-- ==== Sys2Proof/Word.lean ====
section
/-! DEFINITION. The word types of the device and the names of the tables that hold sparse data.

A value the manual treats as bits is a `BitVec`; a count, a size or an index is a `Nat` (R12, R14). -/

namespace Sys2Proof

/-- One byte of memory. -/
abbrev Byte := BitVec 8
abbrev U16 := BitVec 16
/-- A 32-bit word: a CSR (R16), or the code of an FP32 value (R39). -/
abbrev U32 := BitVec 32
abbrev U64 := BitVec 64
/-- An IPv6 address, or an IPv4 address in its mapped form (R357). -/
abbrev IpAddr := BitVec 128
abbrev MacAddr := BitVec 48

/-- Sparse data by key, in one canonical form: keys strictly rising, no entry equal to the default value. -/
abbrev SMap (α : Type) := List (Nat × α)

end Sys2Proof
end

