-- ==== Sys2Proof/Syntax.lean ====
section
/-! DEFINITION. The commands that the block takes: one constructor for each row of the table of operations and events.
A Woror command carries its header fields and its parameter bytes as they travel (R351); an event carries what the
outside world decides about it (which unit it concerns, what was measured, what arrived). -/

namespace Sys2Proof

/-- What an error-correcting code found on a read (R219, R220). -/
inductive Ecc where
  | clean | corrected | uncorrectable
deriving DecidableEq, Repr

/-- What a scrub pass reads of a codeword: its code's finding and the stack's own correction count since the last pass (R219). -/
structure ScrubFound where
  ecc : Ecc
  onDie : Nat
deriving DecidableEq, Repr

/-- What a frame finds of the host port's receive buffer: room below its three-quarters mark, room above it, or none (R347; the spec
gives no size, log 103). -/
inductive RxFill where
  | room | high | full
deriving DecidableEq, Repr

/-- A frame as it arrives at the host port: the VIDs of its 802.1Q tags from the outermost (R346), the codewords of it that the FEC
corrected (R345, R366), and what it finds of the receive buffer. -/
structure Arrival where
  tags : List (BitVec 12) := []
  corrected : Nat := 0
  buffer : RxFill := .room
deriving DecidableEq, Repr

/-- The SEND that carries a command: queue pair, PSN of its first packet, whether its last one asks for an acknowledgement, and
whether its packets carry ECN CE (R356, R358, R359). -/
structure Carrier where
  qpi : Nat
  psn : BitVec 24
  ackReq : Bool
  ecnCe : Bool
deriving DecidableEq, Repr

/-- A Woror command packet that has passed the magic, length and CRC checks of R352. The opcode is the constructor's. -/
structure Packet where
  /-- source and destination IP address, source MAC address and UDP port of the datagram (R349, R354) -/
  src : IpAddr
  dst : IpAddr
  srcMac : MacAddr
  srcPort : U16
  /-- the SEND that carried the command; none for a UDP datagram (R356) -/
  viaQp : Option Carrier
  /-- `WFLAGS`, `JOB`, `CONTEXT`, `SEQ`, `HOST_TAG` (R351) -/
  wflags : Byte
  job : Byte
  ctx : Byte
  seq : U32
  tag : U64
  /-- the `PARAM_LEN` parameter bytes -/
  params : List Byte
  /-- what error correction finds in the units that a memory command reads, in ascending address (R221, R227); this does not
  travel in the packet, nor do the frame's state and the number of commands that MC0 has taken from its queue since the
  last arrival (R352) -/
  found : List Ecc
  frame : Arrival := {}
  taken : Nat := 256
deriving DecidableEq, Repr

/-- A datagram to the Woror port, or the message of a SEND, as raw bytes (R352, R356). -/
structure Datagram where
  src : IpAddr
  dst : IpAddr
  srcMac : MacAddr
  srcPort : U16
  bytes : List Byte
  frame : Arrival := {}
deriving DecidableEq, Repr

/-- Who asks for an address or an echo: its MAC address, and the frame (R346, R349). -/
structure Asker where
  mac : MacAddr
  frame : Arrival := {}
deriving DecidableEq, Repr

/-- A pause of a PFC frame in quanta, and the frame (R347). -/
structure Pause where
  quanta : U16
  frame : Arrival := {}
deriving DecidableEq, Repr

/-- Why a received frame is dropped (R345, R346, R350). -/
inductive DropReason where
  | badFcs | tooLong | otherMac | wrongTag | ipError | otherPort
  /-- the frame met codewords that the FEC could not correct, beside others that it corrected (R345) -/
  | fecFailed (corrected uncorrectable : Nat)
deriving DecidableEq, Repr

/-- The place of a RoCEv2 packet in its message. -/
inductive MsgPart where
  | first | middle | last | only
deriving DecidableEq, Repr

/-- A RoCEv2 packet and whether its ICRC is good (R356): BTH fields, the RETH of a first WRITE packet or a READ request, payload. -/
structure RocePacket where
  src : IpAddr
  srcMac : MacAddr
  dst : IpAddr
  qpn : BitVec 24
  psn : BitVec 24
  part : MsgPart
  ackReq : Bool
  /-- the packet carries ECN CE (R359) -/
  ecnCe : Bool
  va : U64
  rkey : U32
  dmaLen : U32
  payload : List Byte
  /-- what error correction finds in the units that a READ, or the command of a SEND, reads, in ascending address (R221, R227) -/
  found : List Ecc
  icrcOk : Bool := true
  frame : Arrival := {}
  taken : Nat := 256
deriving DecidableEq, Repr

/-- A fabric packet (R310). READY and JOIN carry the collective's CRC (R322), a pair hello its settings (R450): both in
the payload. -/
structure FabPacket where
  dest : BitVec 12
  src : BitVec 12
  tag : U32
  pkind : Byte
  format : Byte
  collId : U32
  step : U32
  attempt : U16
  epoch : U16
  unit : U32
  offset : U32
  poison : BitVec 128
  payload : List Byte
deriving DecidableEq, Repr

/-- A flit as the receiver puts it together from the port's lanes (R304, R305): its 256 bytes, the symbols corrected in each
lane's codewords, and the lanes with a codeword that could not be corrected. -/
structure Flit where
  bytes : List Byte
  corrected : List Nat
  badLanes : BitVec 4
deriving DecidableEq, Repr

/-- The result of a port's retraining (R307, R309). -/
structure TrainResult where
  /-- lanes that locked -/
  locked : BitVec 4
  peerFid : BitVec 12
  peerPort : BitVec 3
  margins : BitVec 32
deriving DecidableEq, Repr

/-- A unit whose residue or parity check mismatched (`LAST_UNIT` of R74). -/
inductive ResUnit where
  | arrayMod3 | arrayMod7 | vector | conversion | parityArray | parityVector | parityConversion
deriving DecidableEq, Repr

/-- An ECC event of a tile memory (R86, R99): memory 1 scratchpad, 2 accumulator, 3 weight-gradient buffer, 4 operand
buffer; the window offset of the word or codeword, and of an operand buffer a number that names the chunk. -/
structure TileEcc where
  memory : Nat
  offset : Nat
  uncorrectable : Bool
deriving DecidableEq, Repr

/-- A transfer of a stream: its descriptor, and what error correction found in the scratchpad words that a source in a scratchpad and
additions into one read, in that order (R86, R99). -/
structure StreamTurn where
  sd : Nat
  found : List Ecc
deriving DecidableEq, Repr

/-- What went wrong in one unit of work of a tile: the attempts that mismatched, in order, each with the checks that found
it (R69, R70), and the ECC events of its memories. -/
structure TileFaults where
  attempts : List (List ResUnit)
  ecc : List TileEcc
deriving DecidableEq, Repr

/-- The operations of R96. -/
inductive AtomicOp where
  | addI32 | addF32 | addF32x | swap32 | swap64 | combineF32x
deriving DecidableEq, Repr

/-- Who sends an atomic access: a tile, or a skip that serves a job (R24, R239). -/
inductive AtomicMaster where
  | tile (n : Nat)
  | skip (job : Nat)
deriving DecidableEq, Repr

/-- One atomic access (R96): the window offset of its 64-byte granule's first lane, lane mask, operands by lane; what
error correction found in the granule's eight 72-bit words (R97, R99). -/
structure AtomicAccess where
  master : AtomicMaster
  op : AtomicOp
  offset : Nat
  mask : BitVec 16
  operands : List Nat
  returnOld : Bool
  ecc : List Ecc
deriving DecidableEq, Repr

/-- The disturbance classes of R421. -/
inductive Disturbance where
  | feedSag | overcurrent (rail : Nat) | brownOut | powerFail | railFault (rail : Nat)
deriving DecidableEq, Repr

/-- What MC2 reads in one cap-loop period (R410, R418, R421, R423). -/
structure Telemetry where
  /-- rail powers in mW and voltages in mV, rails 0-7, and which rails were renewed -/
  railMw : List Nat
  railMv : List Nat
  renewed : BitVec 8
  /-- junction temperature of each paddock in quarter degrees Celsius -/
  tempQc : List Int
  /-- the disturbances that the status of the VRMs shows standing, over PMBus or AVSBus (R421, R486); none while neither answers -/
  vrmStatus : Option (List Disturbance) := .none
deriving DecidableEq, Repr

/-- A supply that has stayed up at a paddock's droop detector (R416): the lowest local VDD_Aq of the span, in mV, and its length in ns. -/
structure Steady where
  paddock : Nat
  lowestMv : Nat
  ns : Nat
deriving DecidableEq, Repr

/-- The PLLs of R401 in the lock order of R466. -/
inductive Pll where
  | root | hbm (h : Nat) | ddr (east : Bool) | fab (east : Bool) | host
deriving DecidableEq, Repr

/-- The straps sampled on the rising edge of RESET_N (R491). -/
structure Straps where
  feedId : BitVec 4
  sbAddr : BitVec 2
  testEnN : Bool
deriving DecidableEq, Repr

/-- What memory training finds in stage 3 (R212, R465): the channels with a DIMM, and those that trained at 8000 MT/s. `dimmSize`
and `ddrType` are the codes of `RES_MEM_CFG`. -/
structure Training where
  hbmOk : BitVec 8
  populated : BitVec 12
  ddrCh : BitVec 12
  dimmSize : BitVec 4
  ddrType : BitVec 2
  /-- every populated DIMM has the same type and capacity -/
  uniform : Bool
deriving DecidableEq, Repr

/-- Why a warm reset happens (R462). -/
inductive WarmCause where
  | command | watchdog (core : Nat) | rootPll | relock
deriving DecidableEq, Repr

/-- A DRAM row that fails (R228): its identity for the permanent tables and the poison units in it. -/
structure DramRow where
  tier : Nat
  unit : Nat
  pc : Nat
  bankRow : Nat
  das : List Nat
  /-- a spare row is left for the repair -/
  spareLeft : Bool
deriving DecidableEq, Repr

/-- What an hourly record takes from the PHY of the host port, which no register holds: the lowest eye margin of each host lane over the
hour (R478). -/
structure HourlyData where
  hostMargins : List Nat
deriving DecidableEq, Repr

/-- A private write on the sideband bus: the address and the bytes (R493). -/
structure SbWrite where
  address : BitVec 7
  bytes : List Byte
deriving DecidableEq, Repr

/-- A private read on the sideband bus: the address and the number of words that the controller takes (R493). -/
structure SbRead where
  address : BitVec 7
  words : Nat
deriving DecidableEq, Repr

/-- The commands of the block: one constructor for each row of the table. -/
inductive Instr where
  -- Woror commands
  | deviceInfo (p : Packet)
  | netConfig (p : Packet)
  | memRead (p : Packet)
  | memWrite (p : Packet)
  | csrWrite (p : Packet)
  | csrRead (p : Packet)
  | streamArm (p : Packet)
  | streamCancel (p : Packet)
  | streamStatus (p : Packet)
  | qpConnect (p : Packet)
  | xferOpen (p : Packet)
  | xferClose (p : Packet)
  | xferStatus (p : Packet)
  | jobCreate (p : Packet)
  | jobModify (p : Packet)
  | jobRelease (p : Packet)
  | contextCreate (p : Packet)
  | contextRelease (p : Packet)
  | stepBegin (p : Packet)
  | stepBeginTakesEffect (seq : Nat)
  | barrier (p : Packet)
  | barrierComplete (seq : Nat)
  | hayloftPop (p : Packet)
  | hayloftPopTakesEffect (seq : Nat)
  | hayloftFree (p : Packet)
  | hayloftFreeTakesEffect (seq : Nat)
  | gradOpen (p : Packet)
  | gradOpenTakesEffect (seq : Nat)
  | phaseMark (p : Packet)
  | phaseMarkTakesEffect (seq : Nat)
  | row (p : Packet)
  | opIssue (p : Packet)
  | operationStart (seq : Nat)
  | opCancel (p : Packet)
  | collective (p : Packet)
  | collectiveStart (seq : Nat)
  | collectiveComplete (seq : Nat)
  | mapSet (p : Packet)
  | mapSetTakesEffect (seq : Nat)
  | gradNorm (p : Packet)
  | gradNormStart (seq : Nat)
  | powerCapSet (p : Packet)
  | phasePointsSet (p : Packet)
  | powerRead (p : Packet)
  | energyRead (p : Packet)
  | throttleRead (p : Packet)
  | stepCommit (p : Packet)
  | stepCommitTakesEffect (seq : Nat)
  | checkpointSet (p : Packet)
  | restore (p : Packet)
  | mirrorPair (p : Packet)
  | mirrorUnpair (p : Packet)
  | failover (p : Packet)
  | sparePolicySet (p : Packet)
  | leaseGrant (p : Packet)
  | identityRead (p : Packet)
  | attest (p : Packet)
  | attestReportComplete
  | fwStage (p : Packet)
  | fwActivate (p : Packet)
  | resetWarm (p : Packet)
  | journalInfo (p : Packet)
  | journalRead (p : Packet)
  | bitmapRead (p : Packet)
  | retiredList (p : Packet)
  | memTest (p : Packet)
  | setDate (p : Packet)
  | lifeRead (p : Packet)
  -- register writes
  | tileCntClrPhase (tile : Nat)
  | tileCntClrFtq (tile : Nat)
  | tileCntClrAcc (tile : Nat)
  | tileCntClrPort (tile : Nat)
  | stpClrAll
  | fidWrite (fid : BitVec 12)
  | fabRetrain (port : Nat)
  | fabPortEnable (port : Nat) (on : Bool)
  | hostpRetrain
  -- host port events
  | heldCommandExpiry (seq : U32)
  | journalMirrorWrite (slot : Nat)
  | droppedFrame (why : DropReason)
  | arpRequest (target : U32) (asker : U32) (mac : Asker)
  | neighborSolicitation (target : IpAddr) (asker : IpAddr) (mac : Asker)
  | echoRequest (target : IpAddr) (asker : IpAddr) (mac : Asker) (payload : List Byte)
  | pfcFrame (prio : BitVec 3) (pause : Pause)
  | send (r : RocePacket)
  | rdmaWrite (r : RocePacket)
  | rdmaReadRequest (r : RocePacket)
  | cnp (r : RocePacket)
  | cnpRateRestore (qpi : Nat)
  | hostTransferComplete (slot : Nat)
  | hostTimeout (slot : Nat)
  | hostLaneLossOfLock (lane : Nat)
  | hostPortTrained (locked : BitVec 8)
  -- fabric events
  | dataFlit (port : Nat) (f : Flit)
  | ackFlit (port : Nat) (ackSeq : BitVec 12)
  | nakFlit (port : Nat) (missing : BitVec 12)
  | replayLimit (port : Nat)
  | ackFlitTimer (port : Nat)
  | laneLossOfLock (port lane : Nat)
  | portRetrainComplete (port : Nat) (r : TrainResult)
  | packetForward (k : FabPacket)
  | ready (k : FabPacket)
  | data (k : FabPacket)
  | join (k : FabPacket)
  | e2eAck (k : FabPacket)
  | e2eAckTimeout (k : FabPacket)
  | stepAbort (k : FabPacket)
  | peerTimeout (seq : Nat)
  | peerLost (job device : Nat)
  | spareDue (job : Nat)
  | pairTimeout (job : Nat)
  | heartbeat (job : Nat)
  | mirrorPairTimeout (job : Nat)
  | mirrorCopyComplete (job : Nat)
  | checkpointComplete (job : Nat)
  | restoreComplete (job : Nat)
  | leaseLapse
  -- work of the tiles, the skips and the sequencer
  | take (tile : Nat)
  | doneMessage (tile : Nat)
  | applyPassEnd (seq : Nat)
  | pullIssue (tile : Nat)
  | pull (skip tile : Nat)
  | skipReadReturn (skip : Nat) (found : List Ecc)
  | computeStart (tile : Nat)
  | kRunEnd (tile : Nat) (f : TileFaults)
  | recoveredLimit (tile : Nat)
  | eccQuarantineLimit (tile : Nat)
  | ftqEntryRetire (tile : Nat) (f : TileFaults)
  | storeStart (tile : Nat)
  | spillComplete (ctx : Nat)
  | refillComplete (ctx : Nat)
  | skipWrite (skip : Nat)
  | writeAcknowledged (skip : Nat)
  | streamTransferStart (job : Nat) (turn : StreamTurn)
  | cancellationComplete (seq : Nat)
  | atomic (tile : Nat) (a : AtomicAccess)
  | scatteredPartial (tile : Nat) (f : TileFaults)
  | flagWrite (da : Nat) (value : U64)
  | flagPoll (da : Nat)
  | compatProgramEnd (tile : Nat)
  | compatInsnStop (tile : Nat) (offset : Nat)
  | zeroingComplete (job : Nat)
  | scrubRead (da : Nat) (found : ScrubFound)
  | eccWriteBack (da : Nat)
  | softRepair (r : DramRow)
  -- power, clocks, reset and boot
  | capLoopPeriod (t : Telemetry)
  | telemetryLost
  | thermalCeilingStep (paddock : Nat)
  | vrmAtTarget (quarter : Nat)
  /-- the local VDD_Aq that the detector sees, in mV -/
  | droopTrip (paddock supplyMv : Nat)
  | stretchEnd (held : Steady)
  | brakeNLow
  | brakeNRelease
  | vrmAlert (d : Disturbance) (standing : Bool)
  | vrmRecoveryTimer (d : Disturbance)
  | hourlyRecord (h : HourlyData)
  | watchdogExpiry (core : Nat)
  | pllLossOfLock (p : Pll)
  | pllRelockTimeout (p : Pll)
  | warmReset (c : WarmCause)
  | jobTableReload
  | resetNFall
  | resetNRise (straps : Straps)
  | pllLock (p : Pll)
  | pllLockTimeout (p : Pll)
  | romStageEnd
  | stage1End
  | mainStageEnd (t : Training)
  | sidebandWrite (w : SbWrite)
  | sidebandRead (r : SbRead)
  | badWororPacket (d : Datagram) (taken : Nat)
  | unassignedOpcode (opcode : U16) (p : Packet)
  | roceInvalidRequest (r : RocePacket)
  | imageApplyComplete (job : Nat)
  /-- the units in error in ascending address, each with whether it is uncorrectable -/
  | memTestComplete (errors : List (Nat × Bool))
deriving DecidableEq, Repr

end Sys2Proof
end

