-- ==== Sys2Proof/Decode.lean ====
section
/-! DEFINITION. Words that spell commands. The table gives no row any bits: commands reach the block as packets, register
accesses and events, never as instruction words, so no word spells a command. -/

namespace Sys2Proof

/-- The command that a word spells: none, since no row of the table has an encoding. -/
def decodeTableWord (_nbits _w : Nat) : Option Instr := none

end Sys2Proof
end

