-- ==== Sys2Proof/Config.lean ====
section
/-! DEFINITION. What an implementation fixes and the spec leaves open: constants without a value, so that no proof can rest
on one. -/

namespace Sys2Proof

/-- The value that the spec leaves open at the n-th such place of a run; the state counts the places. -/
opaque Config.freeValue : Nat → U64

/-- The public identity keys that a device secret gives, RSA modulus and SLH-DSA key; the spec names no derivation (R473, R474, log
41). -/
opaque Config.identityKeys : List Byte → List Byte

/-- The alias certificates, RSA (false) and SLH-DSA (true): the identity key of a device secret signs the alias key of a seed, with a
measurement M0 in an extension (R473, log 41). -/
opaque Config.aliasCert : Bool → List Byte → List Byte → List Byte → List Byte

/-- The signatures of an attestation report's body with the alias keys of a seed, RSA (false) and SLH-DSA (true) (R475, log 41). -/
opaque Config.aliasSign : Bool → List Byte → List Byte → List Byte

/-- Whether the n-th write of a lifetime record or a permanent entry to the serial flash fails (R480). -/
opaque Config.flashFails : Nat → Bool

/-- The mapping block of the epoch before, for a device that joins a job at a later epoch: `JOB_CREATE` carries the block of its
own epoch alone (R317, R380). -/
opaque Config.priorMapping : List Byte → List Byte

/-- The energy of one activity event of a paddock (R423), fused per part: event 0-5 an array k-step of each mode, 6 a scratchpad port
cycle, 7 a vector-engine pass, 8 a jig write. -/
opaque Config.energyOf : Nat → Nat

/-- The leakage energy of a paddock in one cap-loop period at a rail voltage in mV and a temperature in quarter degrees, fused per
part, in the unit of `energyOf` (R423). -/
opaque Config.leakage : Nat → Nat → Int → Nat

/-- The silicon revision that `DEVICE_INFO` reports (R375). -/
opaque Config.siliconRev : U16

end Sys2Proof
end

