-- ==== Sys2Proof/Machine/Float.lean ====
section
/-! DEFINITION. Exact values, element formats, rounding and the FP32 operations of "Number Formats, Accumulation and
Residue Checking" (R39-R47, R54, R57, R60-R62).

A finite value is held exactly, as sign, magnitude and power of two; an operation computes exactly and rounds once. -/

namespace Sys2Proof.Machine

/-- What an element code stands for: a NaN, an infinity, or the exact value ±`m`·2^`e` (R40, R46). -/
inductive FVal where
  | nan
  | inf (neg : Bool)
  | fin (neg : Bool) (m : Nat) (e : Int)
deriving DecidableEq, Repr

/-- The special codes of a floating-point element format (the last two columns of R40). -/
inductive Specials where
  /-- exponent all ones is an infinity or a NaN -/
  | ieee
  /-- E4M3: only all ones is NaN, no infinity -/
  | e4m3
  /-- MX elements: every code is finite -/
  | none
deriving DecidableEq, Repr

/-- The parameters of a floating-point element format (R40). -/
structure FloatFmt where
  ebits : Nat
  fbits : Nat
  bias : Nat
  specials : Specials
deriving DecidableEq, Repr

def fp32 : FloatFmt := ⟨8, 23, 127, .ieee⟩
def bf16 : FloatFmt := ⟨8, 7, 127, .ieee⟩
def fp16 : FloatFmt := ⟨5, 10, 15, .ieee⟩
def e5m2 : FloatFmt := ⟨5, 2, 15, .ieee⟩
def e4m3 : FloatFmt := ⟨4, 3, 7, .e4m3⟩
def e3m2 : FloatFmt := ⟨3, 2, 3, .none⟩
def e2m3 : FloatFmt := ⟨2, 3, 1, .none⟩
def e2m1 : FloatFmt := ⟨2, 1, 1, .none⟩

/-- The width of a code. -/
def FloatFmt.width (f : FloatFmt) : Nat := 1 + f.ebits + f.fbits

/-- The exponent of the smallest subnormal. -/
def FloatFmt.emin (f : FloatFmt) : Int := 1 - (f.bias : Int) - f.fbits

/-- The magnitude code of the largest finite value (R40). -/
def FloatFmt.maxMag (f : FloatFmt) : Nat :=
  match f.specials with
  | .ieee => (2 ^ f.ebits - 1) * 2 ^ f.fbits - 1
  | .e4m3 => 2 ^ (f.ebits + f.fbits) - 2
  | .none => 2 ^ (f.ebits + f.fbits) - 1

/-- The magnitude code of infinity, in a format that has one. -/
def FloatFmt.infMag (f : FloatFmt) : Nat := (2 ^ f.ebits - 1) * 2 ^ f.fbits

/-- The canonical NaN of a destination format (R45). -/
def FloatFmt.nanCode (f : FloatFmt) : Nat :=
  match f.specials with
  | .ieee => f.infMag + 2 ^ (f.fbits - 1)
  | .e4m3 => 2 ^ (f.ebits + f.fbits) - 1
  | .none => 0

/-- The exact magnitude of a magnitude code read as a number of the format's grid, extended above its largest value. -/
def FloatFmt.gridVal (f : FloatFmt) (mag : Nat) : Nat × Int :=
  let field := mag / 2 ^ f.fbits
  let frac := mag % 2 ^ f.fbits
  if field = 0 then (frac, f.emin) else (2 ^ f.fbits + frac, f.emin + (field - 1 : Nat))

/-- Reads a code (R40). -/
def FloatFmt.decode (f : FloatFmt) (code : Nat) : FVal :=
  let mag := code % 2 ^ (f.ebits + f.fbits)
  let neg := code / 2 ^ (f.ebits + f.fbits) % 2 = 1
  if f.specials = .ieee ∧ mag > f.infMag then .nan
  else if f.specials = .ieee ∧ mag = f.infMag then .inf neg
  else if f.specials = .e4m3 ∧ mag = f.nanCode then .nan
  else .fin neg (f.gridVal mag).1 (f.gridVal mag).2

/-- Puts the sign on a magnitude code. -/
def FloatFmt.signed (f : FloatFmt) (neg : Bool) (mag : Nat) : Nat :=
  if neg then 2 ^ (f.ebits + f.fbits) + mag else mag

/-- Rounds the magnitude `m`·2^`e` (a little more than that when `sticky`) to the format's grid by
round-to-nearest-even. The answer is a magnitude code; it exceeds `maxMag` when the value rounds out of range. -/
def FloatFmt.roundMag (f : FloatFmt) (m : Nat) (e : Int) (sticky : Bool) : Nat :=
  if m = 0 then 0
  else
    let top : Int := e + (Nat.log2 m : Int)
    let q : Int := max (top - f.fbits) f.emin
    let sig : Nat :=
      if e ≥ q then m * 2 ^ (e - q).toNat
      else
        let sh := (q - e).toNat
        let lo := m % 2 ^ sh
        let hi := m / 2 ^ sh
        let half := 2 ^ (sh - 1)
        if lo > half ∨ (lo = half ∧ (sticky ∨ hi % 2 = 1)) then hi + 1 else hi
    (q - f.emin).toNat * 2 ^ f.fbits + sig

/-- The largest magnitude code at or below `m`·2^`e` on the format's grid, and whether it is equal (R66). -/
def FloatFmt.floorMag (f : FloatFmt) (m : Nat) (e : Int) : Nat × Bool :=
  if m = 0 then (0, true)
  else
    let top : Int := e + (Nat.log2 m : Int)
    let q : Int := max (top - f.fbits) f.emin
    let sig := if e ≥ q then m * 2 ^ (e - q).toNat else m / 2 ^ (q - e).toNat
    let exact := e ≥ q ∨ m % 2 ^ (q - e).toNat = 0
    ((q - f.emin).toNat * 2 ^ f.fbits + sig, exact)

/-- The code of an FP32 value that rounds to nearest even; out of range gives infinity (R46). -/
def fp32Round (neg : Bool) (m : Nat) (e : Int) (sticky : Bool) : U32 :=
  let mag := fp32.roundMag m e sticky
  BitVec.ofNat 32 (fp32.signed neg (if mag > fp32.maxMag then fp32.infMag else mag))

def nan32 : U32 := 0x7FC00000#32
def inf32 (neg : Bool) : U32 := if neg then 0xFF800000#32 else 0x7F800000#32
def zero32 (neg : Bool) : U32 := if neg then 0x80000000#32 else 0#32
def one32 : U32 := 0x3F800000#32

/-- The value of an FP32 code. -/
def val32 (x : U32) : FVal := fp32.decode x.toNat

def FVal.isNaN : FVal → Bool
  | .nan => true
  | _ => false
def FVal.isFinite : FVal → Bool
  | .fin _ _ _ => true
  | _ => false
def FVal.isZero : FVal → Bool
  | .fin _ m _ => m == 0
  | _ => false
def FVal.neg : FVal → Bool
  | .nan => false
  | .inf n => n
  | .fin n _ _ => n

/-- The FP32 code of a value, by round-to-nearest-even (exact for every narrower format: R61). -/
def FVal.to32 : FVal → U32
  | .nan => nan32
  | .inf n => inf32 n
  | .fin n m e => if m = 0 then zero32 n else fp32Round n m e false

/-- `m`·2^`e` as an integer multiple of 2^`e0`, for `e0` at most `e`. -/
def scaled (neg : Bool) (m : Nat) (e e0 : Int) : Int :=
  let v : Int := (m : Int) * 2 ^ (e - e0).toNat
  if neg then -v else v

/-- A sum of two values as an exact value; a zero sum is +0 unless both are −0 (R46). -/
def FVal.add : FVal → FVal → FVal
  | .nan, _ => .nan
  | _, .nan => .nan
  | .inf a, .inf b => if a = b then .inf a else .nan
  | .inf a, _ => .inf a
  | _, .inf b => .inf b
  | .fin na ma ea, .fin nb mb eb =>
    let e0 := min ea eb
    let t := scaled na ma ea e0 + scaled nb mb eb e0
    if t = 0 then .fin (na && nb) 0 0 else .fin (t < 0) t.natAbs e0

/-- A product of two values as an exact value (R46). -/
def FVal.mul : FVal → FVal → FVal
  | .nan, _ => .nan
  | _, .nan => .nan
  | .inf a, .inf b => .inf (a != b)
  | .inf a, .fin n m _ => if m = 0 then .nan else .inf (a != n)
  | .fin n m _, .inf b => if m = 0 then .nan else .inf (n != b)
  | .fin na ma ea, .fin nb mb eb => .fin (na != nb) (ma * mb) (ea + eb)

def FVal.negate : FVal → FVal
  | .nan => .nan
  | .inf n => .inf (!n)
  | .fin n m e => .fin (!n) m e

def FVal.absolute : FVal → FVal
  | .nan => .nan
  | .inf _ => .inf false
  | .fin _ m e => .fin false m e

/-- IEEE 754-2019 binary32 operations with round-to-nearest-even (R60). -/
def fadd (a b : U32) : U32 := ((val32 a).add (val32 b)).to32
def fneg (a : U32) : U32 := (val32 a).negate.to32
def fsub (a b : U32) : U32 := ((val32 a).add (val32 b).negate).to32
def fmul (a b : U32) : U32 := ((val32 a).mul (val32 b)).to32
def ffma (a b c : U32) : U32 := (((val32 a).mul (val32 b)).add (val32 c)).to32
def fabs (a : U32) : U32 := (val32 a).absolute.to32

/-- Division, correctly rounded (R60). -/
def fdiv (a b : U32) : U32 :=
  match val32 a, val32 b with
  | .nan, _ => nan32
  | _, .nan => nan32
  | .inf x, .inf _ => let _ := x; nan32
  | .inf x, v => inf32 (x != v.neg)
  | v, .inf y => zero32 (v.neg != y)
  | .fin na ma ea, .fin nb mb eb =>
    if mb = 0 then (if ma = 0 then nan32 else inf32 (na != nb))
    else if ma = 0 then zero32 (na != nb)
    else
      let n := ma * 2 ^ 64
      fp32Round (na != nb) (n / mb) (ea - eb - 64) (n % mb ≠ 0)

/-- The integer square root, one bit of the root a step from the highest. -/
def isqrtFrom : Nat → Nat → Nat → Nat
  | 0, _, r => r
  | k + 1, n, r =>
    let r' := r + 2 ^ k
    isqrtFrom k n (if r' * r' ≤ n then r' else r)

def isqrt (n : Nat) : Nat := isqrtFrom (Nat.log2 n / 2 + 1) n 0

/-- Square root, correctly rounded (R60). -/
def fsqrt (a : U32) : U32 :=
  match val32 a with
  | .nan => nan32
  | .inf n => if n then nan32 else inf32 false
  | .fin n m e =>
    if m = 0 then zero32 n
    else if n then nan32
    else
      let odd := e % 2 ≠ 0
      let m' := (if odd then 2 * m else m) * 2 ^ 64
      let e' := (if odd then e - 1 else e) - 64
      let r := isqrt m'
      fp32Round false r (e' / 2) (r * r ≠ m')

/-- Order of two values that are no NaN, infinities included; −0 and +0 are equal. -/
def FVal.lt : FVal → FVal → Bool
  | .nan, _ => false
  | _, .nan => false
  | .inf a, .inf b => a && !b
  | .inf a, .fin _ _ _ => a
  | .fin _ _ _, .inf b => !b
  | .fin na ma ea, .fin nb mb eb =>
    let e0 := min ea eb
    decide (scaled na ma ea e0 < scaled nb mb eb e0)

def FVal.eqv (a b : FVal) : Bool := !a.isNaN && !b.isNaN && !a.lt b && !b.lt a
def flt (a b : U32) : Bool := (val32 a).lt (val32 b)
def fle (a b : U32) : Bool := (val32 a).lt (val32 b) || (val32 a).eqv (val32 b)

/-- IEEE 754-2019 minimum and maximum: a NaN gives NaN, and −0 is below +0 (R60). -/
def fmin (a b : U32) : U32 :=
  if (val32 a).isNaN || (val32 b).isNaN then nan32
  else if flt a b then (val32 a).to32 else if flt b a then (val32 b).to32
  else if (val32 a).neg then (val32 a).to32 else (val32 b).to32
def fmax (a b : U32) : U32 :=
  if (val32 a).isNaN || (val32 b).isNaN then nan32
  else if flt a b then (val32 b).to32 else if flt b a then (val32 a).to32
  else if (val32 a).neg then (val32 b).to32 else (val32 a).to32

/-! Compensated accumulation. -/

/-- An accumulator pair: the running sum and its error term (R54); in INT8 mode the low and the high word of the
64-bit integer (R52). -/
structure Pair where
  s : U32
  c : U32
deriving DecidableEq, Repr

def Pair.zero : Pair := ⟨0#32, 0#32⟩

/-- The exact error of `t = s + p`, larger magnitude first (R54). -/
def sumError (s p t : U32) : U32 :=
  if fle (fabs p) (fabs s) then fadd (fsub s t) p else fadd (fsub p t) s

/-- `add_term` of R54. -/
def addTerm (a : Pair) (p : U32) : Pair :=
  let t := fadd a.s p
  if (val32 t).isFinite then ⟨t, fadd a.c (sumError a.s p t)⟩ else ⟨t, 0#32⟩

/-- `combine` of R57: the left pair is the partial of the lower index. -/
def combine (a b : Pair) : Pair :=
  let t := fadd a.s b.s
  if (val32 t).isFinite then ⟨t, fadd (fadd a.c b.c) (sumError a.s b.s t)⟩ else ⟨t, 0#32⟩

/-- The readout r = s + c of R56. -/
def readout (a : Pair) : U32 := if (val32 a.s).isFinite then fadd a.s a.c else (val32 a.s).to32

/-- The 64-bit integer of an INT8 slot (R52). -/
def Pair.int (a : Pair) : Int := (a.c ++ a.s).toInt
def Pair.ofInt (n : Int) : Pair :=
  let w := BitVec.ofInt 64 n
  ⟨w.setWidth 32, (w >>> 32).setWidth 32⟩

/-- An integer rounded to FP32 by round-to-nearest-even. -/
def intTo32 (n : Int) : U32 := if n = 0 then 0#32 else fp32Round (n < 0) n.natAbs 0 false

/-- A value rounded to an integer by round-to-nearest-even; a NaN gives 0, an infinity the end of the range
(R45, R55, R62, R63). -/
def FVal.toIntClamp (lo hi : Int) : FVal → Int
  | .nan => 0
  | .inf n => if n then lo else hi
  | .fin n m e =>
    let mag : Nat :=
      if e ≥ 0 then m * 2 ^ e.toNat
      else
        let sh := (-e).toNat
        let h := m / 2 ^ sh
        let r := m % 2 ^ sh
        let half := 2 ^ (sh - 1)
        if r > half ∨ (r = half ∧ h % 2 = 1) then h + 1 else h
    let v : Int := if n then -(mag : Int) else mag
    max lo (min hi v)

/-- The pair an INT8 accumulator gives an FP32X destination when neither scale factors nor steps apply (R56). -/
def intPair (n : Int) : Pair :=
  let r := intTo32 n
  let e : FVal := match val32 r with
    | .fin ng m x => (FVal.fin (n < 0) n.natAbs 0).add (.fin (!ng) m x)
    | _ => .nan
  ⟨r, e.to32⟩

/-! The magnitude order of R135: NaN first, then infinities, then finite values by absolute value. -/

/-- Strictly ahead in the magnitude order. -/
def FVal.ahead (a b : FVal) : Bool :=
  match a, b with
  | .nan, .nan => false
  | .nan, _ => true
  | _, .nan => false
  | a, b => b.absolute.lt a.absolute

end Sys2Proof.Machine
end

