-- ==== Sys2Proof/Machine/Formats.lean ====
section
/-! DEFINITION. The element formats of R39, the reading and writing of their codes (R41-R45), every conversion
(R61-R64), stochastic rounding (R65-R67) and the packing of codes into bytes (R41, R114). -/

namespace Sys2Proof.Machine

/-- The element formats of R39. -/
inductive Fmt where
  | fp32 | bf16 | fp16 | e4m3 | e5m2 | int8 | int32 | mxE3M2 | mxE2M3 | mxE2M1 | fp32x
deriving DecidableEq, Repr

/-- The 8-bit code of a format (R39). -/
def Fmt.ofCode : Nat → Option Fmt
  | 0x01 => some .fp32 | 0x02 => some .bf16 | 0x03 => some .fp16 | 0x04 => some .e4m3 | 0x05 => some .e5m2
  | 0x06 => some .int8 | 0x07 => some .int32 | 0x08 => some .mxE3M2 | 0x09 => some .mxE2M3 | 0x0A => some .mxE2M1
  | 0x0B => some .fp32x
  | _ => none

def Fmt.code : Fmt → Nat
  | .fp32 => 0x01 | .bf16 => 0x02 | .fp16 => 0x03 | .e4m3 => 0x04 | .e5m2 => 0x05 | .int8 => 0x06 | .int32 => 0x07
  | .mxE3M2 => 0x08 | .mxE2M3 => 0x09 | .mxE2M1 => 0x0A | .fp32x => 0x0B

/-- Bits per element (R39). -/
def Fmt.bits : Fmt → Nat
  | .fp32 => 32 | .bf16 => 16 | .fp16 => 16 | .e4m3 => 8 | .e5m2 => 8 | .int8 => 8 | .int32 => 32
  | .mxE3M2 => 6 | .mxE2M3 => 6 | .mxE2M1 => 4 | .fp32x => 64

def Fmt.isMx : Fmt → Bool
  | .mxE3M2 | .mxE2M3 | .mxE2M1 => true
  | _ => false

def Fmt.isFp8 : Fmt → Bool
  | .e4m3 | .e5m2 => true
  | _ => false

/-- A floating-point element format's parameters; the integers and FP32X have none. -/
def Fmt.float? : Fmt → Option FloatFmt
  | .fp32 => some Machine.fp32 | .bf16 => some Machine.bf16 | .fp16 => some Machine.fp16
  | .e4m3 => some Machine.e4m3 | .e5m2 => some Machine.e5m2
  | .mxE3M2 => some Machine.e3m2 | .mxE2M3 => some Machine.e2m3 | .mxE2M1 => some Machine.e2m1
  | .int8 | .int32 | .fp32x => none

/-- The array mode of a pairing (R48). -/
inductive Mode where
  | fp8 | int8 | bf16 | fp16 | fp32 | mx
deriving DecidableEq, Repr

/-- The pairings of R48; any other pairing is refused. -/
def pairing (a b : Fmt) : Option Mode :=
  if a.isFp8 && b.isFp8 then some .fp8
  else if a.isMx && b.isMx then some .mx
  else match a, b with
    | .int8, .int8 => some .int8
    | .bf16, .bf16 => some .bf16
    | .fp16, .fp16 => some .fp16
    | .fp32, .fp32 => some .fp32
    | _, _ => none

/-- A two's-complement code as an integer. -/
def twosComp (w code : Nat) : Int := (BitVec.ofNat w code).toInt

/-- The exact value of an element code; for FP32X its readout (R56, R178); for an MX element without its scale. -/
def Fmt.value (f : Fmt) (code : Nat) : FVal :=
  match f with
  | .int8 => let i := twosComp 8 code; .fin (i < 0) i.natAbs 0
  | .int32 => let i := twosComp 32 code; .fin (i < 0) i.natAbs 0
  | .fp32x => val32 (readout ⟨BitVec.ofNat 32 (code % 2 ^ 32), BitVec.ofNat 32 (code / 2 ^ 32)⟩)
  | .fp32 => Machine.fp32.decode code
  | .bf16 => Machine.bf16.decode code
  | .fp16 => Machine.fp16.decode code
  | .e4m3 => Machine.e4m3.decode code
  | .e5m2 => Machine.e5m2.decode code
  | .mxE3M2 => Machine.e3m2.decode code
  | .mxE2M3 => Machine.e2m3.decode code
  | .mxE2M1 => Machine.e2m1.decode code

/-- An MX element with its E8M0 scale byte; the byte 0xFF makes it NaN (R42). -/
def mxValue (f : Fmt) (code scale : Nat) : FVal :=
  if scale = 0xFF then .nan
  else match f.value code with
    | .fin n m e => .fin n m (e + scale - 127)
    | v => v

/-- A pair as its 64-bit FP32X code (R39). -/
def Pair.code (p : Pair) : Nat := p.s.toNat + p.c.toNat * 2 ^ 32
def Pair.ofCode (n : Nat) : Pair := ⟨BitVec.ofNat 32 (n % 2 ^ 32), BitVec.ofNat 32 (n / 2 ^ 32)⟩

/-- The pair an accumulator starts from when the descriptor names an input C (R55). -/
def startPair (f : Fmt) (code : Nat) : Pair :=
  if f = .fp32x then Pair.ofCode code else ⟨(f.value code).to32, 0#32⟩

/-- The 64-bit integer that an INT8-mode accumulator loads from C (R55). -/
def startInt (f : Fmt) (code : Nat) : Int := (f.value code).toIntClamp (-(2 ^ 63)) (2 ^ 63 - 1)

/-! Stochastic rounding. -/

/-- `mix` of R67. -/
def mix (z : U64) : U64 :=
  let z := (z ^^^ (z >>> 31)) * 0xC2B53A7D16E94F83#64
  let z := (z ^^^ (z >>> 29)) * 0x8F1D6C47A3E59B2D#64
  z ^^^ (z >>> 32)

/-- The draw of one element (R67). -/
def draw (seed : U64) (tensorId step : U32) (index : Nat) : Nat :=
  let x := mix (seed ^^^ BitVec.ofNat 64 index)
  let x := mix (x ^^^ ((tensorId.setWidth 64 <<< 32) ||| step.setWidth 64))
  x.toNat % 2 ^ 16

/-- The magnitude code of a stochastic rounding of `m`·2^`e` with draw `r` (R66). -/
def FloatFmt.stochasticMag (f : FloatFmt) (m : Nat) (e : Int) (r : Nat) : Nat :=
  let (lo0, exact0) := f.floorMag m e
  let lo := min lo0 f.maxMag
  if exact0 && lo0 == lo then lo
  else
    let (lm, le) := f.gridVal lo
    let (hm, he) := f.gridVal (lo + 1)
    let e0 := min e (min le he)
    let v : Int := scaled false m e e0
    let l : Int := scaled false lm le e0
    let h : Int := scaled false hm he e0
    let t16 : Int := min (2 ^ 16) (2 ^ 16 * (v - l) / (h - l))
    if (r : Int) < t16 then lo + 1 else lo

/-- Conversion of a value to a floating-point format: by round-to-nearest-even, or stochastically with the given
draw; `sat` is the store's SAT (R61, R62, R66). -/
def FloatFmt.convert (f : FloatFmt) (sat : Bool) (r : Option Nat) (v : FVal) : Nat :=
  match v with
  | .nan => f.nanCode
  | .inf n =>
    match f.specials with
    | .ieee => f.signed n f.infMag
    | .e4m3 => if sat then f.signed n f.maxMag else f.nanCode
    | .none => f.signed n f.maxMag
  | .fin n m e =>
    let mag := match r with
      | none => f.roundMag m e false
      | some d => f.stochasticMag m e d
    if mag ≤ f.maxMag then f.signed n mag
    else match f.specials with
      | .ieee => f.signed n (if sat then f.maxMag else f.infMag)
      | .e4m3 => if sat then f.signed n f.maxMag else f.nanCode
      | .none => f.signed n f.maxMag

/-- Conversion of an FP32 value to any format that is not MX. An FP32X destination gets (v, +0) of a value that scale factors or steps
have made of the accumulator (DESIGN CHOICE, log 136: R56 speaks of the pair alone). -/
def Fmt.convert (f : Fmt) (sat : Bool) (r : Option Nat) (v : U32) : Nat :=
  match f with
  | .fp32 => (val32 v).to32.toNat
  | .bf16 => Machine.bf16.convert sat r (val32 v)
  | .fp16 => Machine.fp16.convert sat r (val32 v)
  | .e4m3 => Machine.e4m3.convert sat r (val32 v)
  | .e5m2 => Machine.e5m2.convert sat r (val32 v)
  | .mxE3M2 => Machine.e3m2.convert sat r (val32 v)
  | .mxE2M3 => Machine.e2m3.convert sat r (val32 v)
  | .mxE2M1 => Machine.e2m1.convert sat r (val32 v)
  | .int8 => (BitVec.ofInt 8 ((val32 v).toIntClamp (-128) 127)).toNat
  | .int32 => (BitVec.ofInt 32 ((val32 v).toIntClamp (-(2 ^ 31)) (2 ^ 31 - 1))).toNat
  | .fp32x => v.toNat

/-- An INT8-mode sum stored with neither scale factors nor steps: clamped to the integer format (R58, R62). -/
def Fmt.ofSum (f : Fmt) (n : Int) : Nat :=
  match f with
  | .int8 => (BitVec.ofInt 8 (max (-128) (min 127 n))).toNat
  | .int32 => (BitVec.ofInt 32 (max (-(2 ^ 31)) (min (2 ^ 31 - 1) n))).toNat
  | .fp32x => (intPair n).code
  | f => f.convert true none (intTo32 n)

/-! MX blocks. -/

/-- The emax of an MX element format (R64). -/
def mxEmax : Fmt → Int
  | .mxE3M2 => 4
  | _ => 2

/-- The floor of log₂ of a non-zero finite magnitude. -/
def floorLog2 (m : Nat) (e : Int) : Int := e + Nat.log2 m

/-- The largest magnitude of a block of finite values, as an exact value. -/
def blockMax (vs : List FVal) : FVal :=
  vs.foldl (fun a v => if a.lt v.absolute then v.absolute else a) (.fin false 0 0)

/-- Converts a block of up to 32 FP32 values to an MX format: the scale byte and the element codes (R64). A block with
a NaN or an infinity is written with the scale byte 0xFF and all element bits zero (R45). Each value comes with its
draw when the store rounds stochastically. -/
def mxBlock (f : Fmt) (vs : List (U32 × Option Nat)) : Nat × List Nat :=
  let fs := vs.map fun p => val32 p.1
  if fs.any fun v => !v.isFinite then (0xFF, vs.map fun _ => 0)
  else match blockMax fs with
    | .fin _ m e =>
      if m = 0 then (0, vs.map fun _ => 0)
      else
        let x : Int := max (-127) (min 127 (floorLog2 m e - mxEmax f))
        let g := match f.float? with | some g => g | none => Machine.e2m1
        ((x + 127).toNat, vs.map fun p =>
          match val32 p.1 with
          | .fin n m e => g.convert true p.2 (.fin n m (e - x))
          | _ => 0)
    | _ => (0, vs.map fun _ => 0)

/-! Bytes. -/

/-- A number as `n` little-endian bytes (R15). -/
def leBytes : Nat → Nat → List Byte
  | 0, _ => []
  | n + 1, v => BitVec.ofNat 8 (v % 256) :: leBytes n (v / 256)

/-- The number that little-endian bytes spell (R15). -/
def leNat : List Byte → Nat
  | [] => 0
  | b :: r => b.toNat + 256 * leNat r

/-- A number as `n` big-endian bytes (Woror header fields, R15). -/
def beBytes (n v : Nat) : List Byte := (leBytes n v).reverse
def beNat (l : List Byte) : Nat := leNat l.reverse

/-- x rounded up to a multiple of `k`. -/
def roundUp (k x : Nat) : Nat := (x + k - 1) / k * k
def r32 (x : Nat) : Nat := roundUp 32 x
def ceilDiv (a b : Nat) : Nat := (a + b - 1) / b

/-- Element codes of `w` bits packed in ascending order into one little-endian number (R41, R114). -/
def packNat (w : Nat) : List Nat → Nat
  | [] => 0
  | c :: r => c % 2 ^ w + 2 ^ w * packNat w r

/-- Packed codes as bytes, padded with zeros to `n` bytes. -/
def packBytes (w n : Nat) (cs : List Nat) : List Byte := leBytes n (packNat w cs)

/-- The `w`-bit code at bit address `bit` of a byte source. -/
def bitsAt (rd : Nat → Byte) (bit w : Nat) : Nat :=
  let a := bit / 8
  let n := ceilDiv (bit % 8 + w) 8
  leNat ((List.range n).map fun i => rd (a + i)) / 2 ^ (bit % 8) % 2 ^ w

end Sys2Proof.Machine
end

