-- ==== Sys2Proof/Machine/Crypto.lean ====
section
/-! DEFINITION. SHA-384 (R336, R470, R473) and CRC-32C (R305, R322, R351), which the spec names and does not define: both
are taken from their standards, FIPS 180-4 and the Castagnoli polynomial (PRESUMED, log 28). -/

namespace Sys2Proof.Machine

/-! ### SHA-384 -/

/-- The round constants of the SHA-512 family. -/
def shaK0 : List U64 :=
  [0x428a2f98d728ae22#64, 0x7137449123ef65cd#64, 0xb5c0fbcfec4d3b2f#64, 0xe9b5dba58189dbbc#64,
   0x3956c25bf348b538#64, 0x59f111f1b605d019#64, 0x923f82a4af194f9b#64, 0xab1c5ed5da6d8118#64,
   0xd807aa98a3030242#64, 0x12835b0145706fbe#64, 0x243185be4ee4b28c#64, 0x550c7dc3d5ffb4e2#64,
   0x72be5d74f27b896f#64, 0x80deb1fe3b1696b1#64, 0x9bdc06a725c71235#64, 0xc19bf174cf692694#64,
   0xe49b69c19ef14ad2#64, 0xefbe4786384f25e3#64, 0x0fc19dc68b8cd5b5#64, 0x240ca1cc77ac9c65#64]

def shaK1 : List U64 :=
  [0x2de92c6f592b0275#64, 0x4a7484aa6ea6e483#64, 0x5cb0a9dcbd41fbd4#64, 0x76f988da831153b5#64,
   0x983e5152ee66dfab#64, 0xa831c66d2db43210#64, 0xb00327c898fb213f#64, 0xbf597fc7beef0ee4#64,
   0xc6e00bf33da88fc2#64, 0xd5a79147930aa725#64, 0x06ca6351e003826f#64, 0x142929670a0e6e70#64,
   0x27b70a8546d22ffc#64, 0x2e1b21385c26c926#64, 0x4d2c6dfc5ac42aed#64, 0x53380d139d95b3df#64,
   0x650a73548baf63de#64, 0x766a0abb3c77b2a8#64, 0x81c2c92e47edaee6#64, 0x92722c851482353b#64]

def shaK2 : List U64 :=
  [0xa2bfe8a14cf10364#64, 0xa81a664bbc423001#64, 0xc24b8b70d0f89791#64, 0xc76c51a30654be30#64,
   0xd192e819d6ef5218#64, 0xd69906245565a910#64, 0xf40e35855771202a#64, 0x106aa07032bbd1b8#64,
   0x19a4c116b8d2d0c8#64, 0x1e376c085141ab53#64, 0x2748774cdf8eeb99#64, 0x34b0bcb5e19b48a8#64,
   0x391c0cb3c5c95a63#64, 0x4ed8aa4ae3418acb#64, 0x5b9cca4f7763e373#64, 0x682e6ff3d6b2b8a3#64,
   0x748f82ee5defb2fc#64, 0x78a5636f43172f60#64, 0x84c87814a1f0ab72#64, 0x8cc702081a6439ec#64]

def shaK3 : List U64 :=
  [0x90befffa23631e28#64, 0xa4506cebde82bde9#64, 0xbef9a3f7b2c67915#64, 0xc67178f2e372532b#64,
   0xca273eceea26619c#64, 0xd186b8c721c0c207#64, 0xeada7dd6cde0eb1e#64, 0xf57d4f7fee6ed178#64,
   0x06f067aa72176fba#64, 0x0a637dc5a2c898a6#64, 0x113f9804bef90dae#64, 0x1b710b35131c471b#64,
   0x28db77f523047d84#64, 0x32caab7b40c72493#64, 0x3c9ebe0a15c9bebc#64, 0x431d67c49c100d4c#64,
   0x4cc5d4becb3e42b6#64, 0x597f299cfc657e2a#64, 0x5fcb6fab3ad6faec#64, 0x6c44198c4a475817#64]

def shaK : List U64 := shaK0 ++ shaK1 ++ shaK2 ++ shaK3

/-- The initial hash value. -/
def shaInit : List U64 :=
  [0xcbbb9d5dc1059ed8#64, 0x629a292a367cd507#64, 0x9159015a3070dd17#64, 0x152fecd8f70e5939#64,
   0x67332667ffc00b31#64, 0x8eb44a8768581511#64, 0xdb0c2e0d64f98fa7#64, 0x47b5481dbefa4fa4#64]

def rotr (x : U64) (n : Nat) : U64 := x.rotateRight n

/-- The sixteen words of a block of 128 bytes, big-endian. -/
def shaWords (b : List Byte) : List U64 := (List.range 16).map fun i => BitVec.ofNat 64 (beNat ((b.drop (8 * i)).take 8))

/-- Runs the rounds; `w` holds the next sixteen words of the schedule. -/
def shaRounds : List U64 → List U64 → List U64 → List U64
  | [], _, v => v
  | k :: ks, w, v =>
    let g (l : List U64) (i : Nat) : U64 := (l[i]?).getD 0#64
    let a := g v 0
    let e := g v 4
    let w0 := g w 0
    let t1 := g v 7 + (rotr e 14 ^^^ rotr e 18 ^^^ rotr e 41) + ((e &&& g v 5) ^^^ (~~~e &&& g v 6)) + k + w0
    let t2 := (rotr a 28 ^^^ rotr a 34 ^^^ rotr a 39) + ((a &&& g v 1) ^^^ (a &&& g v 2) ^^^ (g v 1 &&& g v 2))
    let w1 := g w 1
    let w14 := g w 14
    let next := (rotr w14 19 ^^^ rotr w14 61 ^^^ (w14 >>> 6)) + g w 9 + (rotr w1 1 ^^^ rotr w1 8 ^^^ (w1 >>> 7)) + w0
    shaRounds ks (w.drop 1 ++ [next]) [t1 + t2, a, g v 1, g v 2, g v 3 + t1, e, g v 5, g v 6]

def shaBlock (h : List U64) (b : List Byte) : List U64 := (h.zip (shaRounds shaK (shaWords b) h)).map fun p => p.1 + p.2

/-- The message with its padding. -/
def shaPad (m : List Byte) : List Byte :=
  let n := m.length
  m ++ [0x80#8] ++ List.replicate ((239 - n % 128) % 128) 0#8 ++ beBytes 16 (8 * n)

/-- The hash value over the first `n` blocks. -/
def shaBlocks : Nat → List Byte → List U64 → List U64
  | 0, _, h => h
  | n + 1, m, h => shaBlocks n (m.drop 128) (shaBlock h (m.take 128))

def sha384 (m : List Byte) : List Byte :=
  let p := shaPad m
  ((shaBlocks (p.length / 128) p shaInit).take 6).flatMap fun x => beBytes 8 x.toNat

/-! ### CRC-32C -/

/-- Eight shifts of the reflected Castagnoli polynomial. -/
def crcShift : Nat → U32 → U32
  | 0, c => c
  | n + 1, c => crcShift n (if c.getLsbD 0 then (c >>> 1) ^^^ 0x82F63B78#32 else c >>> 1)

def crcByte (c : U32) (b : Byte) : U32 := crcShift 8 (c ^^^ b.setWidth 32)

def crc32c (m : List Byte) : U32 := (m.foldl crcByte 0xFFFFFFFF#32) ^^^ 0xFFFFFFFF#32

end Sys2Proof.Machine
end

