-- ==== Sys2Proof/Machine/Flags.lean ====
section
/-! DEFINITION. The statuses of R386, which every command, entry and barrier reports. -/

namespace Sys2Proof.Machine.St

/-- Complete -/
def done : Nat := 0x0000
/-- Journalled, not final -/
def accepted : Nat := 0x0001
/-- Ended with part done: cancellation, release or warm reset -/
def partEnd : Nat := 0x0002
/-- Reserved field non-zero -/
def paramReserved : Nat := 0x0101
/-- Misaligned address, length or advance -/
def paramAlign : Nat := 0x0102
/-- Format or pairing not supported -/
def paramFormat : Nat := 0x0103
/-- Address in no mapped range or wrong unit -/
def paramTarget : Nat := 0x0104
/-- Field outside its range -/
def paramRange : Nat := 0x0105
/-- Sparse attribute, jig or mask error -/
def paramSparse : Nat := 0x0106
/-- Capture block error -/
def paramCapture : Nat := 0x0107
/-- Operand list or shape error -/
def paramShape : Nat := 0x0108
/-- Stride or overlap error -/
def paramStride : Nat := 0x0109
/-- Sharding or mapping error -/
def paramShard : Nat := 0x010A
/-- Loop code above 5 -/
def paramLoop : Nat := 0x010B
/-- Epilogue step error -/
def paramEpilogue : Nat := 0x010C
/-- E4 instruction not executed -/
def paramCompatInsn : Nat := 0x010D
/-- Woror version -/
def paramVersion : Nat := 0x010E
/-- Opcode unassigned -/
def paramOpcode : Nat := 0x010F
/-- Too many slots -/
def resSlotFit : Nat := 0x0201
/-- Scratchpad too small -/
def resSpadFit : Nat := 0x0202
/-- Scratch too small -/
def resSplitkScratch : Nat := 0x0203
/-- Memory configuration invalid -/
def resMemConfig : Nat := 0x0204
/-- Region, area or tag in use -/
def resRegionConflict : Nat := 0x0205
/-- Shadow full -/
def resStreamBusy : Nat := 0x0206
/-- Hayloft full -/
def resHayloftFull : Nat := 0x0207
/-- No gradient frames -/
def resWgbFrames : Nat := 0x0208
/-- No transfer slot -/
def resXferSlots : Nat := 0x0209
/-- Paddock held by another job -/
def resPaddockBusy : Nat := 0x020A
/-- Context queue full -/
def resQueueFull : Nat := 0x020B
/-- Journal slot not free; not journalled -/
def resJournalFull : Nat := 0x020C
/-- Bitmap pool full -/
def resBitmapPool : Nat := 0x020D
/-- Index beyond operand; operation completed -/
def sparseIndex : Nat := 0x0301
/-- Over-full group under ABORT -/
def sparseNmOverfull : Nat := 0x0302
/-- Tile header or directory error -/
def sparseHeader : Nat := 0x0303
/-- Popcount differs from `NNZ` -/
def sparseCount : Nat := 0x0304
/-- Coordinates not ascending -/
def sparseOrder : Nat := 0x0305
/-- Host transfer timed out -/
def dataHostTimeout : Nat := 0x0306
/-- Poisoned data consumed -/
def intPoison : Nat := 0x0401
/-- Gradient set lost -/
def intWgbLost : Nat := 0x0402
/-- Peer timeout -/
def intPeerLate : Nat := 0x0403
/-- Step attempt aborted by a peer -/
def intStepAbort : Nat := 0x0404
/-- Job does not exist -/
def stateNoJob : Nat := 0x0501
/-- Context does not exist or is not the job's -/
def stateNoContext : Nat := 0x0502
/-- Tile memory in use -/
def stateTileBusy : Nat := 0x0503
/-- Gradient frame or set mismatch -/
def stateWgbFrame : Nat := 0x0504
/-- Kind not allowed in the job's mode -/
def stateCompat : Nat := 0x0505
/-- A predecessor failed -/
def statePredFailed : Nat := 0x0506
/-- No unbound entry -/
def stateHayloftEmpty : Nat := 0x0507
/-- Entry tag mismatch -/
def stateHayloftTag : Nat := 0x0508
/-- Mapping epoch mismatch -/
def stateMapEpoch : Nat := 0x0509
/-- Collective differs between devices -/
def stateCollMismatch : Nat := 0x050A
/-- Sequence number overwritten in the ring -/
def stateSeqStale : Nat := 0x050B
/-- Job or context number in use -/
def stateExists : Nat := 0x050C
/-- Device fenced by a lapsed lease -/
def stateFenced : Nat := 0x050D
/-- Paddock cannot be removed -/
def statePaddockInUse : Nat := 0x050E
/-- Entry has no completion bitmap -/
def stateNoBitmap : Nat := 0x050F
/-- Range in use by a job, or work of the job in progress -/
def stateJobsActive : Nat := 0x0510
/-- Address outside the job's reach -/
def secWindow : Nat := 0x0601
/-- A signature did not verify -/
def secSignature : Nat := 0x0602
/-- Image older than the anti-rollback count -/
def secRollback : Nat := 0x0603

/-- The statuses that fail neither a barrier nor a commit (R266, R439). -/
def good (st : Nat) : Bool := st == done || st == sparseIndex

end Sys2Proof.Machine.St
end

