-- ==== Sys2Proof/Machine/Maps.lean ====
section
/-! DEFINITION. Reading and writing sparse data. Every table of the machine (memory, tiles, jobs, slots) is one
`SMap`: an unlisted key reads as the default value, and writing the default value removes the entry. -/

namespace Sys2Proof.Machine

variable {α : Type}

/-- The value at key `i`; an unlisted key reads as `d`. -/
def lookup (d : α) : SMap α → Nat → α
  | [], _ => d
  | (k, v) :: r, i => if k = i then v else lookup d r i

/-- Drops every entry of key `i`. -/
def erase : SMap α → Nat → SMap α
  | [], _ => []
  | (k, v) :: r, i => if k = i then erase r i else (k, v) :: erase r i

/-- Puts `v` at key `i`, keeping the keys in rising order. -/
def place : SMap α → Nat → α → SMap α
  | [], i, v => [(i, v)]
  | (k, w) :: r, i, v =>
    if i < k then (i, v) :: (k, w) :: r
    else if i = k then (i, v) :: r
    else (k, w) :: place r i v

/-- Writes `v` at key `i`; writing the default value `d` removes the entry. -/
def store [DecidableEq α] (d : α) (m : SMap α) (i : Nat) (v : α) : SMap α :=
  if v = d then erase m i else place m i v

/-- Keys strictly rising, every key above `lo` when `lo` is given, no entry equal to `d`. -/
def canonFrom [DecidableEq α] (d : α) : Option Nat → SMap α → Bool
  | _, [] => true
  | lo, (k, v) :: r =>
    (match lo with | none => true | some l => decide (l < k)) && decide (v ≠ d) && canonFrom d (some k) r

/-- The canonical form: keys strictly rising, no entry equal to the default value. -/
def canon [DecidableEq α] (d : α) (m : SMap α) : Bool := canonFrom d none m

/-- Writes a run of values at `i`, `i + 1`, ... -/
def storeRun [DecidableEq α] (d : α) : SMap α → Nat → List α → SMap α
  | m, _, [] => m
  | m, i, v :: vs => storeRun d (store d m i v) (i + 1) vs

/-- The `n` values at `i`, `i + 1`, ... -/
def loadRun (d : α) (m : SMap α) (i n : Nat) : List α := (List.range n).map fun k => lookup d m (i + k)

end Sys2Proof.Machine
end

