-- ==== Sys2Proof/Machine/State.lean ====
section
/-! DEFINITION. The state of the device: plain data, holding everything the spec gives it, and its value right after
reset. INVENTORY.md lists each piece with the rule that names it. -/

namespace Sys2Proof.Machine

/-! ### Tiles (R36, R74, R75-R111) -/

inductive Phase where
  | idle | load | compute | store
deriving DecidableEq, Repr

/-- The states of an accumulator slot (R82). -/
inductive SlotState where
  | free | active | finished
deriving DecidableEq, Repr

/-- The kinds of finished-tile queue entry (R104). -/
inductive FtqKind where
  | epilogue | combine | drain
deriving DecidableEq, Repr

/-- A finished-tile queue entry: slot and array-tile coordinates within the work item (R104); `frame` is the
weight-gradient frame of a COMBINE or DRAIN entry. -/
structure FtqEntry where
  kind : FtqKind
  slot : Nat
  ti : Nat
  tj : Nat
  frame : Nat
deriving DecidableEq, Repr

/-- A work item of an operation: the operation's handle (its sequence number, R373) and the item number (R200). -/
structure ItemRef where
  op : Nat
  item : Nat
deriving DecidableEq, Repr

/-- Corrections and uncorrectable words of one tile memory (`TILE_ECC_*`, R110). -/
structure EccCount where
  corr : Nat
  uncorr : Nat
deriving DecidableEq, Repr

/-- One captured output's list in a tile: output row and column, terms added, best entries first (R171). -/
structure Captured where
  row : Nat
  col : Nat
  terms : Nat
  top : List (Nat × U32)
deriving DecidableEq, Repr

/-- Bytes on their way to one granule of a destination: who sends them, where they go, whether they are added
(`add` is the format code, 0 for a plain write), and poison of the bytes' units (R225, R239). -/
inductive WriteOwner where
  | tile (n : Nat)
  | stream (job sd gen seg : Nat)
  | coll (seq : Nat)
  | host (slot gen off : Nat)
  | other
deriving DecidableEq, Repr

structure WriteReq where
  owner : WriteOwner
  /-- the handle of the operation or the sequence number of the entry (R256) -/
  handle : Nat
  da : Nat
  bytes : List Byte
  add : Nat
  poison : Bool
  /-- the copy of a destination that goes into a hayloft entry (R279) -/
  hay : Bool
  /-- bits of the first byte, from below, and of the last byte, from above, that the write leaves as they are (R280) -/
  keep : Nat × Nat := (0, 0)
deriving DecidableEq, Repr

/-- What the jig has written: the request that STORE will send, and the scratchpad offset where its bytes lie until then
(R36, R151); none when the scratchpad has no room left for it. -/
structure JigOut where
  req : WriteReq
  place : Option Nat
deriving DecidableEq, Repr

/-- Bytes that an operand has in the scratchpad: their DA, their number and their scratchpad offset (R36); none while they
stay in the router for want of room. -/
structure Place where
  da : Nat
  len : Nat
  off : Option Nat
deriving DecidableEq, Repr

/-- A scattered partial in a bank's conflict queue (R84): slot, element index, value, and whether it has waited a cycle. -/
structure Scattered where
  slot : Nat
  elem : Nat
  value : U32
  waited : Bool
deriving DecidableEq, Repr

structure Tile where
  phase : Phase
  /-- current item and the item taken early (R109, R110) -/
  item : Option ItemRef
  next : Option ItemRef
  round : Nat
  slotsUsed : Nat
  slots : SMap SlotState
  /-- array tiles whose epilogue has retired -/
  retired : Nat
  /-- array tiles whose k-run has ended in this round; scattered partials of this k-run issued to the banks, and added -/
  runs : Nat
  issued : Nat
  partials : Nat
  /-- the conflict queues of the 16 banks, and the first bank that has not had its turn in the cycle under way (R84) -/
  banks : SMap (List Scattered)
  bankTurn : Nat
  ftq : List FtqEntry
  /-- an entry that waits in the array because the queue is full (R105) -/
  waiting : Option FtqEntry
  /-- operand buffers A0, A1, B0, B1 with their MX scale stores: byte b of buffer n at 12288·n + b, scale byte b at
  768·n + b; the accumulator register sets, pair e of set n at 2304·n + e, and the set that accumulates next; working
  registers W0, W1, element e of register n at 2304·n + e; vector registers V0-V15, element j at 48·n + j (R75) -/
  opBuf : SMap Byte
  opScale : SMap Byte
  accRegs : SMap Pair
  accSet : Nat
  work : SMap U32
  vregs : SMap U32
  /-- requests not yet sent to their skips: skip, base DA, size, how many earlier lines of the round ask for the same bytes;
  requests of the round not yet answered (R232, R238) -/
  pulls : List (Nat × Nat × Nat × Nat)
  waitFor : List (Nat × Nat × Nat)
  pullSent : Bool
  /-- bytes that wait in the tile's router until LOAD begins, by the DA they were read from, and the poisoned 32-byte units
  that the round's bytes came from (R109, R223) -/
  loaded : SMap Byte
  loadedPoison : SMap Bool
  /-- LOAD has begun: where the round's operand bytes lie in the scratchpad, and where the jig's next output goes (R36) -/
  places : List Place
  jigAt : Nat
  /-- capture lists of the item (R171), output values held by the jig (R497), what the jig has written -/
  captured : List Captured
  held : List (Nat × U32)
  output : List JigOut
  /-- STORE writes not yet acknowledged, and the DAs of the additions among them (R201, R239) -/
  storesLeft : Nat
  sent : List Nat
  /-- poison the item has consumed: operand position and DA (R225) -/
  consumed : List (Nat × Nat)
  /-- ACLK cycles of the item's array k-steps (R300); the item's part of the counts of R168 -/
  kcyc : Nat
  countA : Nat
  countB : Nat
  /-- a launch's tile has executed its end instruction (R205) -/
  compatEnded : Bool
  /-- a TAKE of the tile was answered NONE, by which job and when its signal of new items had which number (R201) -/
  asked : Option (Nat × Nat)
  -- residue and quarantine (R71, R74)
  quarantined : Bool
  cause : Nat
  lastUnit : Nat
  mod3 : Nat
  mod7 : Nat
  recovered : Nat
  retries : Nat
  -- counters of R110
  ftqHigh : Nat
  ftqStall : Nat
  veStall : Nat
  pconfOwn : Nat
  pconfAtom : Nat
  pconfHost : Nat
  pconfMgmt : Nat
  pconfWait : Nat
  accConf : Nat
  accQmax : Nat
  accFullStall : Nat
  ecc : List EccCount
  eccLastUnit : Nat
  eccLastUncorr : Bool
  eccLastOffset : Nat
  cycLoad : Nat
  cycCompute : Nat
  cycStore : Nat
  cycIdle : Nat
deriving DecidableEq, Repr

def Tile.reset : Tile :=
  { phase := .idle, item := none, next := none, round := 0, slotsUsed := 0, slots := [], retired := 0, runs := 0, issued := 0,
    partials := 0, banks := [], bankTurn := 0, ftq := [], waiting := none, opBuf := [], opScale := [], accRegs := [], accSet := 0,
    work := [], vregs := [], pulls := [], waitFor := [], pullSent := false, loaded := [], loadedPoison := [], places := [],
    jigAt := 0, captured := [], held := [], output := [], storesLeft := 0, sent := [], consumed := [], kcyc := 0, countA := 0, countB := 0,
    compatEnded := false, asked := none, quarantined := false, cause := 0,
    lastUnit := 0, mod3 := 0, mod7 := 0, recovered := 0, retries := 0, ftqHigh := 0, ftqStall := 0, veStall := 0,
    pconfOwn := 0, pconfAtom := 0, pconfHost := 0, pconfMgmt := 0, pconfWait := 0, accConf := 0, accQmax := 0,
    accFullStall := 0, ecc := [⟨0, 0⟩, ⟨0, 0⟩, ⟨0, 0⟩, ⟨0, 0⟩], eccLastUnit := 0, eccLastUncorr := false,
    eccLastOffset := 0, cycLoad := 0, cycCompute := 0, cycStore := 0, cycIdle := 0 }

/-! ### Skips (R235-R241) -/

/-- A read request of a granule of 256 bytes or a sector of 32 (R232): operation handle with `gen` 0, or the sequence number of a
stream's arm with one more than its generation; base DA, size, how many lines before its own asked for the same bytes (each line
costs requests of its own); the (item, round) pairs that will pull it, for a stream the line that it reads as (line, 0), and whether
a cancellation has marked it (R254, R256). -/
structure ReadReq where
  handle : Nat
  gen : Nat
  granule : Nat
  size : Nat
  copy : Nat
  users : List (Nat × Nat)
  marked : Bool
deriving DecidableEq, Repr

/-- Staged data of a read request: its bytes and the poison of its 32-byte units (R223). -/
structure Staged where
  handle : Nat
  gen : Nat
  granule : Nat
  size : Nat
  copy : Nat
  users : List (Nat × Nat)
  bytes : List Byte
  poison : List Bool
deriving DecidableEq, Repr

/-- A pull waiting at the skip for the data of a request (R238); `again` when its item was returned before (R236). -/
structure Pull where
  tile : Nat
  handle : Nat
  item : Nat
  round : Nat
  granule : Nat
  size : Nat
  copy : Nat
  again : Bool
deriving DecidableEq, Repr

structure Skip where
  reads : List ReadReq
  /-- requests of streams and of the fabric that wait for the read limit (R240) -/
  wants : List ReadReq
  staged : List Staged
  pulls : List Pull
  /-- writes arrived and not issued; writes issued and not acknowledged (R239, R240) -/
  arrived : List WriteReq
  issued : List WriteReq
  /-- since when a checkpoint or mirror copy holds the oldest write that has arrived (R445) -/
  heldAt : Option Nat
  /-- run-ahead position by operation handle: next item whose granules are to be fetched (R236) -/
  walk : SMap Nat
  readsCount : Nat
  drops : Nat
  limits : Nat
deriving DecidableEq, Repr

def Skip.reset : Skip :=
  { reads := [], wants := [], staged := [], pulls := [], arrived := [], issued := [], heldAt := none, walk := [], readsCount := 0, drops := 0,
    limits := 0 }

/-! ### Journal (R387-R394) -/

/-- A Woror reply (R351, R354): where it goes, its header fields and its parameters. -/
structure Reply where
  /-- the address at which the command arrived, and from which its replies leave (R376) -/
  src : IpAddr
  dst : IpAddr
  mac : MacAddr
  port : U16
  opcode : Nat
  job : Byte
  ctx : Byte
  seq : U32
  tag : U64
  status : Nat
  final : Bool
  dup : Bool
  params : List Byte
deriving DecidableEq, Repr

/-- A journal slot with the reply parameters that its mirror record holds (R387, R389). `state` 0 is EMPTY. -/
structure Slot where
  seq : U32
  opcode : Nat
  job : Nat
  ctx : Nat
  state : Nat
  notify : Bool
  shadowed : Bool
  bitmap : Bool
  reset : Bool
  status : Nat
  object : Nat
  accept : Nat
  start : Nat
  finish : Nat
  watermark : Nat
  reply : List Byte
  /-- completion bitmap: total bits, set bits, and AUX of R397 -/
  nbits : Nat
  bits : SMap Bool
  aux : Nat
  /-- where and with which header fields a second reply goes (R354) -/
  back : Option Reply
deriving DecidableEq, Repr

def Slot.empty : Slot :=
  { seq := 0#32, opcode := 0, job := 0, ctx := 0, state := 0, notify := false, shadowed := false, bitmap := false,
    reset := false, status := 0, object := 0, accept := 0, start := 0, finish := 0, watermark := 0, reply := [],
    nbits := 0, bits := [], aux := 0, back := none }

structure Journal where
  slots : SMap Slot
  mirror : SMap Slot
  /-- replies held until their mirror record is written, with the slot that each reports and since when (R389) -/
  heldReplies : List (Nat × Nat × Reply)
  accepted : Nat
  full : Nat
  dupReplies : Nat
  lagMaxUs : Nat
  mirrorOk : Bool
  poolHighMib : Nat
deriving DecidableEq, Repr

/-! ### Entries that are not final -/

/-- An offender that a sparse check reports, with the keys of R137. -/
structure Offender where
  status : Nat
  operand : Nat
  tileSeq : Nat
  rank : Nat
  elem : Nat
  da : Nat
  bit : Nat
deriving DecidableEq, Repr

/-- The tiling of an operation (R194, R197, R200); `kind` fields unused by MAP, PRUNE, REGROW and ROW are 0. -/
structure Tiling where
  mt : Nat
  nt : Nat
  kr : Nat
  granule : Nat
  f : Nat
  slots : Nat
  /-- output blocks in all batch entries, batch entries, items in all -/
  blocks : Nat
  batches : Nat
  items : Nat
deriving DecidableEq, Repr

/-- A running macro-operation or row operation (R196, R201). -/
structure OpRun where
  started : Bool
  tiling : Tiling
  nextNew : Nat
  returned : List Nat
  /-- items that have been returned at some time (R236) -/
  again : List Nat
  /-- items handed out and not final, with their tiles -/
  out : List (Nat × Nat)
  final : SMap Bool
  /-- items that ended without being final, because they consumed poison -/
  spoiled : List Nat
  poison : List (Nat × Nat × Nat)
  index : Option Offender
  abort : Option Offender
  aborting : Bool
  /-- over-full groups counted once each: (operand, tile, line, group) -/
  trunc : List (Nat × Nat × Nat × Nat)
  countA : Nat
  countB : Nat
  /-- where the operation's pairs, lists and images lie in the job's split-k scratch (R198, R257) -/
  scratchDa : Nat
  scratchLen : Nat
  ordered : Bool
  applying : Bool
  /-- elements that the apply pass has applied -/
  applied : Nat
  /-- additions of returned items that had been issued: item and DA (R5, R201) -/
  added : List (Nat × Nat)
  /-- bytes of row tiles of W as they were before an item of a PRUNE or REGROW of scope LINE wrote them in place (R164) -/
  orig : SMap (Option Byte)
  /-- what an item in STORE is about to write over of what it read itself: item, DA, the byte and whether its unit was poisoned;
  the item reads it again when it is returned (R5, R201) -/
  undo : List (Nat × Nat × Byte × Bool)
  /-- the row list of capture, read at issue (R169) -/
  capRows : List Nat
  /-- headers read at the start, to compare when bodies are read (R138) -/
  headers : List (Nat × List Byte)
  /-- the gradient set of a WGB product, and the hayloft entry it pushes -/
  wgbSet : Option Nat
  pushSeq : Option Nat
  /-- tiles of a launch that have ended, and the tile that stopped (R205, R206) -/
  compatTiles : List Nat
deriving DecidableEq, Repr

/-- A running collective, gradient norm or mirror transfer (R322-R337). -/
structure CollRun where
  started : Bool
  id : Nat
  crc : U32
  readyFrom : List Nat
  joinFrom : List Nat
  sentTo : List Nat
  joinSent : Bool
  /-- values received: (unit, element number, code, poisoned); devices are named by fabric ID -/
  got : List (Nat × Nat × Nat × Bool)
  dBytes : Nat
  /-- chunks of D whose root this device has computed and sent on -/
  rooted : List Nat
  /-- D received a poisoned unit; the poison came from another device (R337) -/
  poisoned : Bool
  farPoison : Bool
  /-- when the last packet arrived; none before the first (R342) -/
  lastPacket : Option Nat
  /-- writes into D that wait until the CRC of every participant has agreed, with their fabric skips (R322) -/
  held : List (Nat × List (Nat × List Byte × Bool))
  writesLeft : Nat
  /-- the collective waits for a packet of a peer (R299) -/
  peerWait : Bool
deriving DecidableEq, Repr

/-- An entry that is not final (R367, R387). -/
structure Work where
  seq : Nat
  opcode : Nat
  job : Nat
  /-- the context queue it entered -/
  ctx : Option Nat
  params : List Byte
  /-- step number and attempt at acceptance (R273, R340) -/
  step : Nat
  attempt : Nat
  running : Bool
  /-- a cancellation drains it; the commands that wait for the cancellation (R254) -/
  cancelling : Bool
  cancelBy : List Nat
  /-- of a command that cancels: the counts of R255 taken when the cancellation began (discarded, reads marked,
  granules dropped, writes issued) -/
  counts : List Nat
  /-- of a barrier with `WAIT_HOST`: how its host transfer ended, 0 complete, else the status of its abort (R266, R364) -/
  host : Option Nat
  op : Option OpRun
  coll : Option CollRun
deriving DecidableEq, Repr

/-! ### Jobs and contexts (R276-R300, R315, R380) -/

structure Region where
  base : Nat
  len : Nat
deriving DecidableEq, Repr

/-- A device of a mapping (R315). -/
structure MapDev where
  fid : Nat
  leafFirst : Nat
  leafCount : Nat
deriving DecidableEq, Repr

structure Mapping where
  epoch : Nat
  self : Nat
  width : Nat
  replicas : Nat
  tag : Nat
  devs : List MapDev
deriving DecidableEq, Repr

inductive StreamState where
  | free | waiting | running | done | faulted | cancelling
deriving DecidableEq, Repr

/-- The contents of a stream descriptor: the arm's sequence number and its 384 parameter bytes (R243). -/
structure StreamBody where
  seq : Nat
  params : List Byte
  step : Nat
  /-- how the host transfer of trigger HOST ended: 0 complete, else the status of its abort (R259, R364) -/
  host : Option Nat
deriving DecidableEq, Repr

structure Stream where
  state : StreamState
  gen : Nat
  body : Option StreamBody
  shadow : Option StreamBody
  ordered : Bool
  /-- a transfer is in progress: its reads have begun (R250) -/
  moving : Bool
  /-- transfers completed, segments final in the transfer in progress, bytes of each segment not acknowledged (R249) -/
  doneXfers : Nat
  segs : SMap Bool
  segLeft : SMap Nat
  segTotal : Nat
  watermark : Nat
  /-- the first poisoned source unit of the transfer in progress (R253) -/
  poisonDa : Option Nat
  /-- source elements of the transfer in progress that were poisoned, with their units; the next element that an ordered
  transfer writes (R248) -/
  badElems : List (Nat × Nat)
  nextElem : Nat
  cancelBy : List Nat
deriving DecidableEq, Repr

def Stream.reset : Stream :=
  { state := .free, gen := 0, body := none, shadow := none, ordered := false, moving := false, doneXfers := 0, segs := [], segLeft := [],
    segTotal := 0, watermark := 0, poisonDa := none, badElems := [], nextElem := 0, cancelBy := [] }

/-- An open gradient set (R286-R290): `pins` gives each block's tile and its frames. -/
structure GradSet where
  tensorId : Nat
  mbFirst : Nat
  mbCount : Nat
  rows : Nat
  cols : Nat
  a : Nat
  b : Nat
  pins : List (Nat × List Nat)
  /-- micro-batches accepted, the settings of the first accepted product, micro-batches taken by block -/
  accepted : List Nat
  settings : List Byte
  taken : List (Nat × Nat)
  lost : Bool
deriving DecidableEq, Repr

/-- Checkpoint slots, state regions and interval parameters of a job (R442-R446). -/
structure StateSet where
  regions : List Region
  slotA : Nat
  slotB : Nat
  slotBytes : Nat
  tMin : Nat
  tMax : Nat
  m0 : Nat
  history : Nat
  validA : Bool
  validB : Bool
  stepA : Nat
  stepB : Nat
deriving DecidableEq, Repr

/-- A copy in progress: a checkpoint into a slot (0 A, 1 B), a restore from a source, a mirror image (R445, R449, R451). -/
structure Copy where
  seq : Nat
  target : Nat
  step : Nat
  started : Nat
  /-- the first poisoned unit that the copy met -/
  poison : Option Nat
  /-- what the copy has not read yet: address, destination (of a mirror copy, the offset in it) and length (R445) -/
  left : List (Nat × Nat × Nat)
deriving DecidableEq, Repr

structure Pairing where
  partner : Nat
  secondary : Bool
  override : Bool
  timeoutMs : Nat
  heartbeatUs : Nat
  rxDa : Nat
  rxBytes : Nat
  /-- 0 hello outstanding, 1 PAIRED, 2 PARTNER_LOST -/
  state : Nat
  partnerFeed : Nat
  covered : Bool
  /-- valid images in the receive area with their steps, image being received, image applied (R451, R452) -/
  imageStep : List (Option Nat)
  receiving : Option (Nat × Nat)
  applying : Bool
  applied : Bool
  /-- since when an image is being applied; payload offsets of the image being received; its commit starts a checkpoint -/
  applyAt : Nat
  got : List Nat
  mark : Bool
  /-- the mirror copy being sent, what of it has been read and waits for the partner's READY (offset, bytes, poisoned pieces), and
  that it has gone out; the partner's READY for the next one; the step of the newest copy that the partner holds valid (R451) -/
  sending : Option Copy
  outbox : List (Nat × List Byte × Nat)
  gone : Bool
  ready : Bool
  sentStep : Nat
  pairSeq : Nat
deriving DecidableEq, Repr

structure Job where
  compat : Bool
  truncate : Bool
  paddocks : BitVec 20
  leaving : BitVec 20
  seed : U64
  hostTimeoutMs : Nat
  peerTimeoutUs : Nat
  scratch : Region
  ringDa : Nat
  ringEntries : Nat
  regions : List Region
  mapping : Mapping
  prior : Option Mapping
  step : Nat
  attempt : Nat
  /-- the attempt has been aborted (R339), and with which status -/
  aborted : Bool
  committed : Nat
  /-- sequence numbers of entries that ended badly, and of the STEP_BEGIN that began the attempt (R439, R441) -/
  bad : List Nat
  beginSeq : Option Nat
  touched : Bool
  poisonState : Bool
  collIds : List Nat
  /-- packets that arrived for collectives not yet started here (R323), and the identities of DATA delivered (R312) -/
  early : List FabPacket
  delivered : List (List Nat)
  -- spare policy and peers (R436, R437)
  policy : Nat
  lossAttempts : Nat
  waitS : Nat
  lossMs : Nat
  peerState : Nat
  lost : List Nat
  lostAt : Nat
  /-- device index, consecutive attempts in which the peer was late, and whether it was late in this one -/
  late : List (Nat × Nat × Bool)
  -- state set, checkpoint, pair (R442-R454)
  stateSet : Option StateSet
  checkpoint : Option Copy
  lastCkptStart : Nat
  ckptCosts : List Nat
  restore : Option Copy
  pair : Option Pairing
  events : List Nat
  holdCycles : Nat
  intervalMs : Nat
  costMs : Nat
  mtbfS : Nat
  -- power (R406, R423, R424): energies in nanojoules
  points : List Nat
  paddockNj : Nat
  memNj : Nat
  fabricNj : Nat
  hostNj : Nat
  since : Nat
  -- streams, gradient sets
  streams : SMap Stream
  sets : List GradSet
  -- muster counter: context whose item was last handed out (R202), signals that new items are eligible (R201)
  lastCtx : Nat
  signals : Nat
  /-- the release, or the removal of paddocks, that zeroes memory: its sequence number (R217, R382, R383) -/
  releasing : Option Nat
  modifying : List Nat
  -- registers of R140, R176, R207, R270, R302, R342
  truncGroups : Nat
  lastSparse : Option Offender
  indexOps : Nat
  abortOps : Nat
  gmeSteps : Nat
  gmeDense : Nat
  jigWritten : Nat
  jigEscape : Nat
  jigZero : Nat
  assaySkipped : Nat
  scatterPartials : Nat
  captureRecords : Nat
  maskGenLast : Nat
  itemsTaken : Nat
  itemsDone : Nat
  itemsReturned : Nat
  takeEmpty : Nat
  /-- the last accepted product and operation, by handle, and their tiling (R207) -/
  lastProduct : Nat
  lastOp : Nat
  lastTiling : Tiling
  barFailed : Nat
  /-- the step number that the last `STEP_BEGIN` set, as `SEQ_TRAIN_STEP` shows it (R302) -/
  shownStep : Nat
  records : Nat
  setsLost : Nat
  discards : Nat
  collDone : Nat
  collFailed : Nat
  collAborts : Nat
  collWaitMax : Nat
deriving DecidableEq, Repr

/-- A hayloft entry (R280): its place, the fields of its header, where it lies and which entry pushed it. -/
structure HayEntry where
  tensorId : Nat
  microBatch : Nat
  step : Nat
  seq : Nat
  bodyBytes : Nat
  format : Nat
  ndim : Nat
  sparse : Bool
  slotBytes : Nat
  extents : List Nat
  /-- 0 filling, 1 held, 2 bound -/
  state : Nat
  pushedBy : Nat
  pushOk : Bool
  pushFinal : Bool
  /-- the pop that bound the entry (R282-R284) -/
  boundBy : Nat
  /-- address of the entry in the HBM4 area, or in the spill area when `spilled` -/
  da : Nat
  spilled : Bool
  /-- the entry has a place; until then the writes of its push wait (R281) -/
  placed : Bool
  /-- a copy of the entry is under way, true to DDR5, false back to HBM4, and where to -/
  moving : Option Bool
  moveTo : Nat
deriving DecidableEq, Repr

structure Ctx where
  job : Nat
  /-- sequence numbers of the entries that are not final, in acceptance order -/
  queue : List Nat
  /-- sequence numbers of entries that ended badly; of one that a barrier has judged, the next sequence number of the host port
  at that moment (R266) -/
  bad : List (Nat × Option Nat)
  hlDa : Nat
  hlBytes : Nat
  spDa : Nat
  spBytes : Nat
  hay : List HayEntry
  pushes : Nat
  hlHigh : Nat
  spillOut : Nat
  refill : Nat
  pushWait : Nat
  popWait : Nat
  /-- since when a push, or a pop, has been waiting (R281) -/
  pushSince : Option Nat
  popSince : Option Nat
  /-- phase span: code, stage, micro-batch of the mark, start, items final so far (R299, R300) -/
  phase : Nat
  markPhase : Option Nat
  stage : Nat
  microBatch : Nat
  spanStart : Nat
  spanItems : Nat
  spanCyc : Nat
  nj : Nat
deriving DecidableEq, Repr

/-! ### Host port (R343-R366) -/

structure Qp where
  /-- 0 RESET, 1 RTS, 2 ERROR -/
  state : Nat
  job : Nat
  pmtu : Nat
  destQpn : Nat
  epsn : Nat
  gid : IpAddr
  mac : MacAddr
  tclass : Nat
  hop : Nat
  gapNak : Bool
  unacked : Nat
  /-- the message in progress: 0 none, 1 SEND, 2 WRITE performed, 3 WRITE discarded -/
  msg : Nat
  sendBuf : List Byte
  wrSlot : Nat
  wrGen : Nat
  wrVa : Nat
  wrLeft : Nat
  wrLen : Nat
  /-- READ response rate in 65536ths of line rate (R359), time of the last CNP sent -/
  rate : Nat
  lastCnp : Option Nat
deriving DecidableEq, Repr

def Qp.reset : Qp :=
  { state := 0, job := 0, pmtu := 0, destQpn := 0, epsn := 0, gid := 0#128, mac := 0#48, tclass := 0, hop := 0,
    gapNak := false, unacked := 0, msg := 0, sendBuf := [], wrSlot := 0, wrGen := 0, wrVa := 0, wrLeft := 0, wrLen := 0,
    rate := 65536, lastCnp := none }

structure Xfer where
  /-- transfers of the slot that have stopped taking packets, each with a generation of its own (R361) -/
  past : Nat
  /-- 0 free, 1 open, 2 receiving, 3 complete, 4 aborted by timeout or overrun (R366) -/
  state : Nat
  gen : Nat
  job : Nat
  id : Nat
  read : Bool
  qpi : Nat
  da : Nat
  len : Nat
  /-- bytes of the messages that have arrived whole, bytes so far of the one in progress, watermark, first poisoned DA, status, entry, time of the last packet (R362-R365) -/
  counted : Nat
  part : Nat
  watermark : Nat
  poisonDa : Option Nat
  status : Nat
  seq : Nat
  lastPacket : Option Nat
deriving DecidableEq, Repr

def Xfer.reset : Xfer :=
  { past := 0, state := 0, gen := 0, job := 0, id := 0, read := false, qpi := 0, da := 0, len := 0, counted := 0, part := 0,
    watermark := 0, poisonDa := none, status := 0, seq := 0, lastPacket := none }

/-- A sequenced command that waits for its turn (R353). -/
structure HeldCommand where
  opcode : Nat
  pkt : Packet
deriving DecidableEq, Repr

/-- Where the packets of a queue pair go, and with which IP fields (R349, R357). -/
structure RoceTo where
  mac : MacAddr
  gid : IpAddr
  qpn : Nat
  tclass : Nat
  hop : Nat
deriving DecidableEq, Repr

/-- What the RoCEv2 responder sends (R356): an acknowledgement with its PSN; NAKs by code 0 PSN Sequence Error, 1 Invalid
Request, 2 Remote Access Error; an RNR NAK with its timer code, 1 for 0.01 ms. -/
inductive RoceOut where
  | ack (psn : Nat)
  | nak (psn code : Nat)
  | rnrNak (psn timer : Nat)
  | readResponse (psn : Nat) (part : MsgPart) (data : List Byte)
  | cnp
deriving DecidableEq, Repr

/-- A frame that the host port sends. -/
inductive Frame where
  /-- a Woror reply and its bytes on the wire (R15, R351) -/
  | woror (r : Reply) (bytes : List Byte)
  | arp (target : U32) (asker : U32) (mac : MacAddr)
  | neighbor (target asker : IpAddr) (mac : MacAddr)
  | echo (target asker : IpAddr) (mac : MacAddr) (payload : List Byte)
  /-- a PFC frame that asks for a pause of a priority (R347) -/
  | pfc (prio quanta : Nat)
  | roce (qpi : Nat) (dest : RoceTo) (f : RoceOut)
deriving DecidableEq, Repr

structure HostPort where
  -- HOSTP_CTL, HOSTP_VLAN
  mode : Bool
  mtu : Nat
  vlanEn : Bool
  pfcEn : Bool
  pfcPrio : Nat
  pcp : Nat
  vid : Nat
  -- HOSTP_STATUS: 0 DOWN, 1 TRAINING, 2 UP
  state : Nat
  modeActive : Bool
  locked : BitVec 8
  mac : MacAddr
  ipv4 : Option U32
  ipv6 : Option IpAddr
  permit : List IpAddr
  /-- until when a received pause lasts, and the frames that wait for its end with their tags; the receive buffer has passed three
  quarters full (R347) -/
  pausedUntil : Nat
  txHeld : List (Option Nat × Frame)
  rxHigh : Bool
  /-- commands in the queue into MC0 (R352) -/
  queued : Nat
  /-- ICMP replies sent in the second of SCLK time that `icmpAt` numbers (R349) -/
  icmpSent : Nat
  icmpAt : Nat
  next : U32
  held : List HeldCommand
  /-- the counters of R366 by index 0-20 -/
  counts : SMap Nat
  qps : SMap Qp
  xfers : SMap Xfer
deriving DecidableEq, Repr

/-! ### Fabric (R303-R342) -/

/-- A packet that a port has taken and whose flits the peer has not acknowledged: its bytes not yet in a flit, and the sequence
number of the flit with its last byte so far (R306, R308). -/
structure Carried where
  packet : FabPacket
  left : Nat
  last : Nat
deriving DecidableEq, Repr

structure Port where
  /-- 0 DOWN, 1 TRAINING, 2 UP, 3 DEGRADED, 4 DISABLED -/
  state : Nat
  enable : Bool
  minLanes : Nat
  limitExp : Nat
  lanes : BitVec 4
  dropped : BitVec 4
  peerFid : Nat
  peerPort : Nat
  peerValid : Bool
  margins : U32
  /-- link retry (R306): next sequence number to send, replay buffer, bytes waiting for room, last sequence received in
  order, a NAK is outstanding, flits received since the last acknowledgement -/
  txSeq : Nat
  replay : List (Nat × List Byte)
  txBytes : List Byte
  rxSeq : Nat
  nakOut : Bool
  sinceAck : Nat
  replaysInRow : Nat
  fecCorr : Nat
  fecUncorr : Nat
  crcErr : Nat
  replayCount : Nat
  retrains : Nat
  laneDrops : Nat
  /-- every lane is tested again at the next training (R307) -/
  testAll : Bool
  /-- packets on their way, bytes taken from the peer for which no credit has gone back, credits received (R305) -/
  carrying : List Carried
  owed : Nat
  credit : Nat
  /-- symbols corrected in the last 1 ms, as lane, time and number, and the lanes that have exceeded the limit since the last
  training (R307) -/
  laneCorr : List (Nat × Nat × Nat)
  exceeded : BitVec 4
  /-- since when the port retrains without having had a data flit acknowledged, and the starts of earlier such retrains (R307) -/
  trainAt : Option Nat
  barren : List Nat
  /-- when the port was last UP or DEGRADED (R436) -/
  leftAt : Nat
deriving DecidableEq, Repr

def Port.reset : Port :=
  { state := 1, enable := true, minLanes := 0, limitExp := 12, lanes := 0#4, dropped := 0#4, peerFid := 0xFFF,
    peerPort := 0, peerValid := false, margins := 0#32, txSeq := 0, replay := [], txBytes := [], rxSeq := 4095,
    nakOut := false, sinceAck := 0, replaysInRow := 0, fecCorr := 0, fecUncorr := 0, crcErr := 0, replayCount := 0,
    retrains := 0, laneDrops := 0, testAll := true, carrying := [], owed := 0, credit := 0, laneCorr := [],
    exceeded := 0#4, trainAt := none, barren := [], leftAt := 0 }

/-- `FAB_ROUTEf` (R342). -/
structure Route where
  valid : Bool
  primary : Nat
  altValid : Bool
  alt : Nat
deriving DecidableEq, Repr

structure Fabric where
  fid : Nat
  conflict : Bool
  /-- the ports that have reported a peer which another port had reported too; they send nothing until a new ID (R309) -/
  clashing : List Nat
  drop : Nat
  noRoute : Nat
  ports : SMap Port
  routes : SMap Route
  /-- when a write last took away a route that had a working port (R436) -/
  routedAt : SMap Nat
  /-- DATA packets sent and not acknowledged end to end, with the port that took them last; packets that wait for a route
  (R308, R311, R312) -/
  unacked : List (FabPacket × Option Nat)
  waiting : List FabPacket
deriving DecidableEq, Repr

/-! ### Power and clocks (R401-R430) -/

structure Paddock where
  requested : Nat
  granted : Nat
  div : Nat
  /-- ceilings in the order cap, thermal, VRM, BRAKE_N, host (R408) -/
  cap : Option Nat
  thermal : Option Nat
  vrm : Option Nat
  brake : Option Nat
  host : Option Nat
  /-- the part of the VRM ceiling that an overcurrent imposes (R421) -/
  oc : Option Nat
  /-- pending target, a switch held by a stretch and since when (R414, R417) -/
  pending : Option Nat
  heldSince : Option Nat
  stretch : Nat
  /-- stretches imposed by the thermal and the VRM rule (R418, R421) -/
  hotStretch : Bool
  vrmStretch : Bool
  tempQc : Int
  tempMaxQc : Int
  hot : Nat
  cool : Nat
  stretchEvents : Nat
  stretchCycles : Nat
  /-- since when the detector's stretch has had its level -/
  stretchSince : Nat
  /-- clock-gated since a warm reset although a job holds it (R430) -/
  gated : Bool
deriving DecidableEq, Repr

def Paddock.reset : Paddock :=
  { requested := 4, granted := 4, div := 140, cap := none, thermal := none, vrm := none, brake := none, host := none,
    oc := none, pending := none, heldSince := none, stretch := 0, hotStretch := false, vrmStretch := false, tempQc := 0,
    tempMaxQc := 0, hot := 0, cool := 0, stretchEvents := 0, stretchCycles := 0,
    stretchSince := 0, gated := false }

/-- A throttle record (R422, R429). -/
structure Throttle where
  accUs : Nat
  lastStart : Nat
  lastUs : Nat
  paddocks : BitVec 20
  depth : Nat
  active : Bool
  /-- spans of 700 SCLK cycles accounted for, as a span number -/
  counted : Nat
deriving DecidableEq, Repr

def Throttle.reset : Throttle :=
  { accUs := 0, lastStart := 0, lastUs := 0, paddocks := 0#20, depth := 0, active := false, counted := 0 }

structure Rail where
  mw : Nat
  mv : Nat
  age : Nat
deriving DecidableEq, Repr

/-- The downward ramp of a quarter's voltage (R417). -/
inductive Ramp where
  | still | down | stopped
deriving DecidableEq, Repr

structure Power where
  capW : Nat
  maxPoint : Nat
  thermalC : Nat
  /-- values of POWER_CAP_SET that take effect in the next period (R425) -/
  pendingCap : Option (Nat × Nat × Nat)
  level : Nat
  period : Nat
  telemLost : Bool
  rails : SMap Rail
  paddocks : SMap Paddock
  /-- the point whose voltage VDD_Aq holds, and the target of a ramp under way (R403, R413) -/
  railPoint : SMap Nat
  railTarget : SMap Nat
  ramps : SMap Ramp
  throttles : SMap Throttle
  thresh : Nat
  hold : Nat
  freqChanges : Nat
  heldCount : Nat
  heldMax : Nat
  replaced : Nat
  energyNj : Nat
  overheadNj : Nat
  /-- what has been moved since the last period (R423): bytes of HBM4 by context and, from 16, of DDR5; bytes of the host port by
  job and, from 4, of the fabric; and the remainder that each rail's division carries over, in nJ -/
  moved : SMap Nat
  linkBytes : SMap Nat
  /-- activity events by paddock, context (16 for none) and event, and mesh flits by job (R423) -/
  activity : SMap Nat
  meshFlits : SMap Nat
  carryNj : SMap Nat
  /-- standing disturbances (R421), the ceilings and the stop that outlast them, and BRAKE_N sampled low (R419) -/
  sagCeiling : Bool
  brownCeiling : Bool
  feedSag : Bool
  overcurrent : List Nat
  brownOut : Bool
  powerFail : Bool
  handOutStopped : Bool
  brakeLow : Bool
  -- CLK_STATUS, CLK_LOSS
  rootLock : Bool
  fabLock : BitVec 2
  ddrLock : BitVec 2
  hbmLock : BitVec 8
  hostLock : Bool
  refclkOk : Bool
  loss : Nat
deriving DecidableEq, Repr

/-! ### Memory tiers (R212-R234) -/

structure MemTest where
  seq : Nat
  pattern : Nat
  da : Nat
  len : Nat
deriving DecidableEq, Repr

structure MemInfo where
  hbmOk : BitVec 8
  ddrCh : BitVec 12
  dimmSize : Nat
  ddrType : Nat
  valid : Bool
  hbmHours : Nat
  ddrHours : Nat
  /-- (corrections, uncorrectable units) of each stack and channel, on-die corrections of each stack -/
  hbmEcc : SMap EccCount
  ddrEcc : SMap EccCount
  onDie : SMap Nat
  poisonUsed : Nat
  lastTier : Nat
  lastUnit : Nat
  lastPc : Nat
  lastKind : Nat
  lastDa : Nat
  hardRepairs : Nat
  pendingRepairs : Nat
  /-- the rows repaired since the last cold reset, which the next one repairs for good (R228) -/
  soft : List DramRow
  /-- units found uncorrectable whose row has not been repaired (R228) -/
  failed : List Nat
  /-- units with a corrected value waiting to be written back (R221) -/
  writeBack : List Nat
  test : Option MemTest
deriving DecidableEq, Repr

/-! ### Lease, boot, identity, records (R455-R483) -/

structure Lease where
  /-- 0 UNLEASED, 1 HELD, 2 LAPSED -/
  state : Nat
  nonce : U64
  nonceAt : Nat
  expiry : Nat
  active : BitVec 4
  durationMs : Nat
  grants : Nat
  lapses : Nat
deriving DecidableEq, Repr

/-- `RES_ROWMAPq` (R26). -/
structure RowMap where
  unmapped : Nat
  testUnmapped : Nat
  spareAvail : Bool
  amended : Bool
  pending : Option Nat
deriving DecidableEq, Repr

/-- On-die OTP: row maps of the four quarters, MAC address, root slots (hash), SVN, counts (R26, R470, R481). -/
structure Otp where
  rows : List RowMap
  /-- the VDD_A of the points P0 to P4 in mV, fused at test (R402) -/
  points : List Nat
  /-- the unique device secret of 48 bytes (R473) -/
  secret : List Byte
  mac : MacAddr
  roots : List (Option (List Byte))
  revoked : BitVec 4
  svn : Nat
  coldBoots : Nat
  faultShutdowns : Nat
  thermalShutdowns : Nat
  activations : Nat
  saturated : Bool
deriving DecidableEq, Repr

/-- The boot header in force (R467): generation, ACTIVE (false A), PENDING, RAISE_SVN. -/
structure BootHeader where
  generation : Nat
  active : Bool
  pending : Option Bool
  raiseSvn : Bool
deriving DecidableEq, Repr

/-- A lifetime ring record (R478). -/
structure LifeRecord where
  type : Nat
  boot : Nat
  poweredS : Nat
  dateS : Nat
  body : List Byte
  /-- a reset tore the write: its CRC fails (R478) -/
  torn : Bool := false
deriving DecidableEq, Repr

structure Security where
  stage : Nat
  failCode : Nat
  memFault : Bool
  fallback : Nat
  bank : Bool
  /-- the two copies of the boot header in flash -/
  copy0 : List Byte
  copy1 : List Byte
  /-- the banks' bytes, by bank offset (R467) -/
  bankA : SMap Byte
  bankB : SMap Byte
  fwMajor : Nat
  fwMinor : Nat
  imageSvn : Nat
  rootSlot : Nat
  mainHash : List Byte
  m0 : List Byte
  m1 : List Byte
  deviceId : List Byte
  log : List (Nat × List Byte)
  /-- certificates by OBJECT 0-5 of IDENTITY_READ (R476) -/
  certs : SMap (List Byte)
  report : List Byte
  /-- attestations in acceptance order: sequence number and nonce (R475) -/
  attesting : List (Nat × List Byte)
  feedId : Nat
  sbAddr : Nat
  resetLow : Bool
  faultLow : Bool
  /-- the rails that a shutdown has turned off, in order (R489) -/
  railsOff : List Nat
  /-- the device secret is locked; the identity private keys are held; what the alias keys are derived from (R473) -/
  secretLocked : Bool
  identityHeld : Bool
  aliasSeed : List Byte
  /-- the PLL that may lock next (R466), PLLs waiting for a relock (R435) -/
  pllNext : Nat
  relocking : List Pll
  warmPending : Option WarmCause
  reloading : Bool
deriving DecidableEq, Repr

/-- What has been read since the last hourly record (R478, R479): periods of the cap loop; those in each temperature bin that make no
whole minute yet; sums of the paddocks' temperatures in quarter degrees and of the rails' currents in mA; the eye margins of fabric
ports at trainings; and the hottest paddock has read above 80 °C. -/
structure HourSums where
  periods : Nat
  bins : List Nat
  temps : List Int
  currents : List Nat
  margins : List (Nat × Nat)
  above80 : Bool
deriving DecidableEq, Repr

def HourSums.reset : HourSums :=
  { periods := 0, bins := List.replicate 6 0, temps := List.replicate 20 0, currents := List.replicate 8 0, margins := [], above80 := false }

structure Life where
  ring : List LifeRecord
  ringTotal : Nat
  rows : List DramRow
  tileRows : List (Nat × Nat)
  hardRepairs : Nat
  permFull : Bool
  flashErr : Bool
  bootRec : Bool
  date : Option Nat
  warmResets : Nat
  poweredH : Nat
  /-- life totals of the hourly records: temperature minutes, thermal cycles, wear of each rail, correctable errors of HBM4,
  on-die and DDR5, and the counters at the last record -/
  minutes : List Nat
  cycles : Nat
  wear : List Nat
  errTotals : List Nat
  errAtLast : List Nat
  /-- the permanent tables were full at the last cold reset (R480) -/
  barJobs : Bool
  hour : HourSums
  /-- writes of records and entries to flash so far; when the last write to flash was made, and whether it was the header's (R467,
  R480) -/
  flashWrites : Nat
  flashAt : Option (Nat × Bool)
deriving DecidableEq, Repr

/-! ### What the device sends -/

inductive Out where
  /-- a frame of the host port, with the 802.1Q tag that it carries (R346) -/
  | frame (tag : Option Nat) (f : Frame)
  | packet (port : Nat) (k : FabPacket)
  /-- a flit, as the bytes that each active lane carries (R304, R305) -/
  | flit (port : Nat) (lanes : List (Nat × List Byte))
  /-- muster replies to a tile (R201) -/
  | item (tile : Nat) (i : Option ItemRef)
  | atomicOld (tile : Nat) (old : List (Nat × Bool))
  | status (status : Nat)
  | sideband (words : List U32)
  /-- the acknowledge bit of a sideband transfer (R493) -/
  | sidebandAck (ack : Bool)
deriving DecidableEq, Repr

/-! ### The whole state -/

structure State where
  /-- HBM4, DDR5 and tile-window bytes by DA; an unlisted byte reads 0 (R208, R217) -/
  mem : SMap Byte
  /-- poisoned units by base DA; retired units (R223, R229); corrections since cold reset by unit -/
  poison : SMap Bool
  retired : SMap Bool
  corrections : SMap Nat
  tiles : SMap Tile
  skips : SMap Skip
  jobs : SMap (Option Job)
  ctxs : SMap (Option Ctx)
  /-- the last released job of each number and context of each number, whose registers keep their values until the next
  one is created (R140, R176, R301, R302, R342, R461) -/
  lastJobs : SMap (Option Job)
  lastCtxs : SMap (Option Ctx)
  works : List Work
  journal : Journal
  host : HostPort
  fab : Fabric
  power : Power
  memInfo : MemInfo
  lease : Lease
  otp : Otp
  sec : Security
  life : Life
  restricted : Bool
  restrictReason : Nat
  /-- flits of the short-transfer path in each router input, by 8·router + direction (R262) -/
  stpIn : SMap (List (List Byte))
  stpMessages : Nat
  stpWaitMax : Nat
  stpYield : Nat
  /-- captured high words of low/high register pairs by the high word's DA: the host's and the sideband's -/
  latches : SMap Nat
  sbLatches : SMap Nat
  sbPointer : Nat
  sclk : Nat
  out : List Out
  freeCtr : Nat
  pending : List Instr
deriving DecidableEq, Repr

/-- Why a step stops with a fault. -/
inductive Fault where
  /-- Raised by an event that names a unit the device does not have (a tile above 799, a skip above 47, a port above 7,
  a paddock above 19, a quarter above 3, a job above 3, a context above 15, a slot outside its table). Safe: such an
  event does not happen on the device. -/
  | noSuchUnit
deriving DecidableEq, Repr

/-- Why a command has no meaning. -/
inductive Refusal where
  /-- Raised by an arm of `exec` whose command has no meaning yet. Safe: nothing is claimed of it. -/
  | notModelled (mnemonic : String)
deriving DecidableEq, Repr

def Journal.reset : Journal :=
  { slots := [], mirror := [], heldReplies := [], accepted := 0, full := 0, dupReplies := 0, lagMaxUs := 0,
    mirrorOk := false, poolHighMib := 0 }

def HostPort.reset : HostPort :=
  { mode := false, mtu := 0, vlanEn := false, pfcEn := false, pfcPrio := 3, pcp := 0, vid := 0, state := 0,
    modeActive := false, locked := 0#8, mac := 0#48, ipv4 := none, ipv6 := none, permit := [], pausedUntil := 0, txHeld := [], rxHigh := false, queued := 0,
    icmpSent := 0, icmpAt := 0, next := 0#32, held := [], counts := [], qps := [], xfers := [] }

def Fabric.reset : Fabric :=
  { fid := 0xFFF, conflict := false, clashing := [], drop := 0, noRoute := 0, ports := [], routes := [], routedAt := [], unacked := [], waiting := [] }

def Power.reset : Power :=
  { capW := 2400, maxPoint := 0, thermalC := 100, pendingCap := none, level := 64, period := 0, telemLost := false,
    rails := [], paddocks := [], railPoint := [], railTarget := [], ramps := [], throttles := [], thresh := 8, hold := 20,
    freqChanges := 0, heldCount := 0, heldMax := 0, replaced := 0, energyNj := 0, overheadNj := 0, moved := [], linkBytes := [], activity := [], meshFlits := [], carryNj := [], sagCeiling := false, brownCeiling := false, feedSag := false,
    overcurrent := [], brownOut := false, powerFail := false, handOutStopped := false, brakeLow := false,
    rootLock := false, fabLock := 0#2, ddrLock := 0#2, hbmLock := 0#8, hostLock := false, refclkOk := false, loss := 0 }

def MemInfo.reset : MemInfo :=
  { hbmOk := 0#8, ddrCh := 0#12, dimmSize := 0, ddrType := 0, valid := false, hbmHours := 24, ddrHours := 24,
    hbmEcc := [], ddrEcc := [], onDie := [], poisonUsed := 0, lastTier := 0, lastUnit := 0, lastPc := 0, lastKind := 0,
    lastDa := 0, hardRepairs := 0, pendingRepairs := 0, soft := [], failed := [], writeBack := [], test := none }

def Lease.reset : Lease :=
  { state := 0, nonce := 0#64, nonceAt := 0, expiry := 0, active := 0#4, durationMs := 0, grants := 0, lapses := 0 }

/-- A row map as set at test where all 26 rows pass: physical row 25 unmapped, and it can take over (R26). -/
def RowMap.factory : RowMap := { unmapped := 25, testUnmapped := 25, spareAvail := true, amended := false, pending := none }

/-- The OTP of a part that has never booted (DESIGN CHOICE, log 6: the spec gives no part's OTP contents). -/
def Otp.factory : Otp :=
  { rows := [.factory, .factory, .factory, .factory], points := [900, 850, 800, 750, 700], secret := List.replicate 48 0#8, mac := 0#48, roots := [none, none, none, none], revoked := 0#4,
    svn := 0, coldBoots := 0, faultShutdowns := 0, thermalShutdowns := 0, activations := 0, saturated := false }

def Security.reset : Security :=
  { stage := 0, failCode := 0, memFault := false, fallback := 0, bank := false,
    copy0 := [0x00#8, 0x00#8, 0x00#8, 0x00#8, 0x00#8, 0xFF#8, 0x00#8, 0xEE#8, 0x4E#8, 0xDD#8, 0x18#8], copy1 := [], bankA := [], bankB := [],
    fwMajor := 0, fwMinor := 0, imageSvn := 0, rootSlot := 0, mainHash := [], m0 := List.replicate 48 0#8, m1 := List.replicate 48 0#8, deviceId := [],
    log := [], certs := [], report := [], attesting := [], feedId := 0, sbAddr := 0, resetLow := true,
    faultLow := false, railsOff := [], secretLocked := false, identityHeld := false, aliasSeed := [], pllNext := 0, relocking := [], warmPending := none, reloading := false }

def Life.reset : Life :=
  { ring := [], ringTotal := 0, rows := [], tileRows := [], hardRepairs := 0, permFull := false, flashErr := false,
    bootRec := false, date := none, warmResets := 0, poweredH := 0, minutes := [0, 0, 0, 0, 0, 0], cycles := 0,
    wear := [0, 0, 0, 0, 0, 0, 0, 0], errTotals := [0, 0, 0], errAtLast := [0, 0, 0], barJobs := false, hour := .reset, flashWrites := 0, flashAt := none }

/-- The device right after a cold reset, held in reset until RESET_N rises (R462, R465, R487). -/
def State.reset : State :=
  { mem := [], poison := [], retired := [], corrections := [], tiles := [], skips := [], jobs := [], ctxs := [], lastJobs := [], lastCtxs := [],
    works := [], journal := .reset, host := .reset, fab := .reset, power := .reset, memInfo := .reset, lease := .reset,
    otp := .factory, sec := .reset, life := .reset, restricted := true, restrictReason := 1, stpIn := [], stpMessages := 0,
    stpWaitMax := 0, stpYield := 0, latches := [], sbLatches := [], sbPointer := 0, sclk := 0, out := [], freeCtr := 0,
    pending := [] }

end Sys2Proof.Machine
end

