-- ==== Sys2Proof/Machine/Ops.lean ====
section
/-! DEFINITION. The named operations on the state that every command uses: access to tiles, skips, jobs, contexts,
entries and the journal, and reading and writing memory with poison (R208-R229, R387-R394). -/

namespace Sys2Proof.Machine

/-! ### Access to the parts -/

def State.tile (s : State) (n : Nat) : Tile := lookup Tile.reset s.tiles n
def State.setTile (s : State) (n : Nat) (t : Tile) : State := { s with tiles := store Tile.reset s.tiles n t }
def State.modTile (s : State) (n : Nat) (f : Tile → Tile) : State := s.setTile n (f (s.tile n))

def State.skip (s : State) (n : Nat) : Skip := lookup Skip.reset s.skips n
def State.setSkip (s : State) (n : Nat) (k : Skip) : State := { s with skips := store Skip.reset s.skips n k }
def State.modSkip (s : State) (n : Nat) (f : Skip → Skip) : State := s.setSkip n (f (s.skip n))

def State.job (s : State) (j : Nat) : Option Job := lookup none s.jobs j
def State.setJob (s : State) (j : Nat) (x : Option Job) : State := { s with jobs := store none s.jobs j x }
/-- Changes a job that exists. -/
def State.modJob (s : State) (j : Nat) (f : Job → Job) : State := s.setJob j ((s.job j).map f)

def State.ctx (s : State) (c : Nat) : Option Ctx := lookup none s.ctxs c
def State.setCtx (s : State) (c : Nat) (x : Option Ctx) : State := { s with ctxs := store none s.ctxs c x }
/-- Changes a context that exists. -/
def State.modCtx (s : State) (c : Nat) (f : Ctx → Ctx) : State := s.setCtx c ((s.ctx c).map f)

def State.qp (s : State) (i : Nat) : Qp := lookup Qp.reset s.host.qps i
def State.setQp (s : State) (i : Nat) (q : Qp) : State :=
  { s with host := { s.host with qps := store Qp.reset s.host.qps i q } }
def State.modQp (s : State) (i : Nat) (f : Qp → Qp) : State := s.setQp i (f (s.qp i))

def State.xfer (s : State) (k : Nat) : Xfer := lookup Xfer.reset s.host.xfers k
def State.setXfer (s : State) (k : Nat) (x : Xfer) : State :=
  { s with host := { s.host with xfers := store Xfer.reset s.host.xfers k x } }
def State.modXfer (s : State) (k : Nat) (f : Xfer → Xfer) : State := s.setXfer k (f (s.xfer k))

def State.port (s : State) (p : Nat) : Port := lookup Port.reset s.fab.ports p
def State.setPort (s : State) (p : Nat) (x : Port) : State :=
  { s with fab := { s.fab with ports := store Port.reset s.fab.ports p x } }
def State.modPort (s : State) (p : Nat) (f : Port → Port) : State := s.setPort p (f (s.port p))

def State.paddock (s : State) (p : Nat) : Paddock := lookup Paddock.reset s.power.paddocks p
def State.setPaddock (s : State) (p : Nat) (x : Paddock) : State :=
  { s with power := { s.power with paddocks := store Paddock.reset s.power.paddocks p x } }
def State.modPaddock (s : State) (p : Nat) (f : Paddock → Paddock) : State := s.setPaddock p (f (s.paddock p))

def State.send (s : State) (o : Out) : State := { s with out := s.out ++ [o] }
def State.sends (s : State) (os : List Out) : State := { s with out := s.out ++ os }

/-- The number of an SMap's entries with a property. -/
def countWhere {α : Type} (p : α → Bool) (m : SMap α) : Nat := (m.filter fun e => p e.2).length

def bit (v i : Nat) : Bool := v / 2 ^ i % 2 == 1
/-- The field [hi:lo] of a number. -/
def field (v hi lo : Nat) : Nat := v / 2 ^ lo % 2 ^ (hi + 1 - lo)
def b2n (b : Bool) : Nat := if b then 1 else 0

/-- Counters stop at their maximum value (R110, R234, R400). -/
def sat (w v : Nat) : Nat := min v (2 ^ w - 1)
def sat16 (v : Nat) : Nat := sat 16 v
def sat32 (v : Nat) : Nat := sat 32 v

/-- The next free value's number; each use takes a fresh one. -/
def State.freshen (s : State) : State := { s with freeCtr := s.freeCtr + 1 }

/-! ### Geometry (R21-R25, R32, R33) -/

def tileX (n : Nat) : Nat := n % 32
def tileY (n : Nat) : Nat := n / 32
def quarterOf (n : Nat) : Nat := tileX n / 8
def paddockOf (n : Nat) : Nat := 5 * (tileX n / 8) + tileY n / 5

/-- The physical row that carries a logical row of quarter q (R25). -/
def physRow (s : State) (q y : Nat) : Nat :=
  let u := match s.otp.rows[q]? with | some r => r.unmapped | none => 25
  if y < u then y else y + 1

/-- The job that holds a paddock (R23). -/
def State.holder (s : State) (p : Nat) : Option Nat :=
  (List.range 4).find? fun j => match s.job j with | some x => x.paddocks.getLsbD p | none => false

/-! ### The device address map (R208-R214) -/

inductive Region4 where
  | hbm | ddr | tile (n off : Nat) | csr | none
deriving DecidableEq, Repr

def hbmBytes : Nat := 384 * 2 ^ 30
def ddrBase : Nat := 2 ^ 48
def tileBase : Nat := 2 * 2 ^ 48
def csrBase : Nat := 3 * 2 ^ 48 + 0x1_0000
def csrEnd : Nat := 3 * 2 ^ 48 + 0xC_0000
def windowBytes : Nat := 0x20_0000
def windowDA (n off : Nat) : Nat := tileBase + n * windowBytes + off

/-- The capacity in GiB that a `DIMM_SIZE` code stands for (R234). -/
def dimmGiB : Nat → Nat
  | 1 => 32 | 2 => 64 | 3 => 96 | 4 => 128 | 5 => 256 | 6 => 512
  | _ => 0

/-- Populated channels that trained. -/
def MemInfo.channels (m : MemInfo) : Nat := ((List.range 12).filter fun c => m.ddrCh.getLsbD c).length

/-- Installed DDR5 in GiB: C of R213. -/
def MemInfo.ddrGiB (m : MemInfo) : Nat := m.channels * dimmGiB m.dimmSize

def State.ddrBytes (s : State) : Nat := s.memInfo.ddrGiB * 2 ^ 30

/-- The device reserve: the highest 1 GiB of installed DDR5 (R213). -/
def State.reserveBase (s : State) : Nat := ddrBase + s.ddrBytes - 2 ^ 30

/-- The region of a DA (R208). -/
def State.regionOf (s : State) (da : Nat) : Region4 :=
  if da < hbmBytes then .hbm
  else if ddrBase ≤ da ∧ da < ddrBase + s.ddrBytes then .ddr
  else if tileBase ≤ da ∧ da < tileBase + 800 * windowBytes then
    .tile ((da - tileBase) / windowBytes) ((da - tileBase) % windowBytes)
  else if csrBase ≤ da ∧ da < csrEnd then .csr
  else .none

def State.inHbm (s : State) (da len : Nat) : Bool := let _ := s; decide (da + len ≤ hbmBytes)
def State.inDdr (s : State) (da len : Nat) : Bool := decide (ddrBase ≤ da ∧ da + len ≤ ddrBase + s.ddrBytes)

/-- The range lies wholly within one mapped range of R208; a tile window's hole is not mapped (R75). -/
def State.mapped (s : State) (da len : Nat) : Bool :=
  s.inHbm da len || s.inDdr da len ||
  (match s.regionOf da with
   | .tile _ off => decide (off + len ≤ 0x12_0000) || (decide (0x1F_0000 ≤ off) && decide (off + len ≤ windowBytes))
   | .csr => decide (da + len ≤ csrEnd)
   | _ => false)

/-! #### Placement functions -/

/-- The exclusive-or of the `w`-bit fields of `x`, `n` of them. -/
def foldXor (w : Nat) : Nat → Nat → Nat
  | 0, _ => 0
  | n + 1, x => (x % 2 ^ w) ^^^ foldXor w n (x / 2 ^ w)

/-- `hbm_place` of R210: stack and pseudo-channel. -/
def hbmStack (da : Nat) : Nat := foldXor 3 11 (da / 256)
def hbmPc (da : Nat) : Nat := foldXor 6 5 (da / 256 / 8)

/-- `ddr_place` of R213: the channel. -/
def State.ddrChannel (s : State) (da : Nat) : Nat :=
  let n := max 1 s.memInfo.channels
  let g := (da - ddrBase) / 256
  let i := (g % n + g / n) % n
  if n = 12 then i else 2 * i

/-- The skip that serves a granule (R32, R33, R211); none for an address outside HBM4 and DDR5. -/
def State.skipOf (s : State) (da : Nat) : Option Nat :=
  if da < hbmBytes then some (4 * hbmStack da + hbmPc da / 16)
  else if s.inDdr da 1 then some (32 + s.ddrChannel da)
  else none

/-- The PLL of the memory tier that serves an address. -/
def State.pllOf (s : State) (da : Nat) : Option Pll :=
  if da < hbmBytes then some (.hbm (hbmStack da))
  else if s.inDdr da 1 then some (.ddr (decide (6 ≤ s.ddrChannel da)))
  else none

/-- An access to a range waits while the PLL of a tier that it meets relocks (R405, R435), and for ever when a shutdown has turned the
tiers off (R489). -/
def State.tierWaits (s : State) (da n : Nat) : Bool :=
  (!s.sec.railsOff.isEmpty && decide (da < tileBase)) || (List.range ((da + n - 1) / 256 - da / 256 + 1)).any fun i => match s.pllOf (max da ((da / 256 + i) * 256)) with
    | some p => s.sec.relocking.contains p
    | none => false

/-! ### Reading and writing memory -/

/-- The byte at a DA. -/
def State.byte (s : State) (da : Nat) : Byte := lookup 0#8 s.mem da
def State.bytes (s : State) (da n : Nat) : List Byte := loadRun 0#8 s.mem da n

/-- The size of the poison unit at a DA (R223). -/
def unitSize (da : Nat) : Nat :=
  if da < ddrBase then 32
  else if da < tileBase then 128
  else if (da - tileBase) % windowBytes < 0xC_0000 then 8 else 32

/-- The base of the poison unit of a DA. -/
def unitOf (da : Nat) : Nat := da / unitSize da * unitSize da

def State.poisonedAt (s : State) (da : Nat) : Bool := lookup false s.poison (unitOf da)
def State.retiredAt (s : State) (da : Nat) : Bool := lookup false s.retired (unitOf da)

/-- The first poisoned DA unit that a range meets, from below. -/
def State.firstPoison (s : State) (da : Nat) : Nat → Option Nat
  | 0 => none
  | n + 1 =>
    match s.firstPoison da n with
    | some x => some x
    | none => if s.poisonedAt (da + n) then some (unitOf (da + n)) else none

/-- The units that lie wholly within a range. -/
def wholeUnits (da len : Nat) : List Nat :=
  (List.range len).filterMap fun i =>
    let a := da + i
    if unitOf a = a ∧ a + unitSize a ≤ da + len then some a else none

def touchedUnits (da len : Nat) : List Nat :=
  ((List.range len).map fun i => unitOf (da + i)).dedup

/-- Marks a unit poisoned. -/
def State.mark (s : State) (u : Nat) : State := { s with poison := store false s.poison u true }

/-- Clears a unit's mark, unless the unit is retired (R224, R229). -/
def State.unmark (s : State) (u : Nat) : State :=
  if s.retiredAt u then s else { s with poison := store false s.poison u false }

/-- Writes bytes: a write that covers a whole unit clears its mark, a partial write merges and leaves it (R224); a
demand write cancels a pending write-back of its units (R221). -/
def State.write (s : State) (da : Nat) (bs : List Byte) : State :=
  let s := { s with mem := storeRun 0#8 s.mem da bs }
  let s := (wholeUnits da bs.length).foldl State.unmark s
  let t := touchedUnits da bs.length
  { s with memInfo := { s.memInfo with writeBack := s.memInfo.writeBack.filter fun u => !t.contains u } }

/-- The write of an item that is not final: zeros, with the whole units marked poisoned (R225). -/
def State.writePoison (s : State) (da len : Nat) : State :=
  let s := s.write da (List.replicate len 0#8)
  (wholeUnits da len).foldl State.mark s

/-- Removes the entries of a range. -/
def dropRange {α : Type} (lo len : Nat) (m : SMap α) : SMap α := m.filter fun e => !(decide (lo ≤ e.1) && decide (e.1 < lo + len))

/-- Writes a range as zero with valid check bits; a retired unit stays poisoned (R217, R229). -/
def State.zero (s : State) (da len : Nat) : State :=
  { s with
    mem := dropRange da len s.mem
    poison := s.poison.filter fun e => !(decide (da ≤ e.1) && decide (e.1 < da + len)) || lookup false s.retired e.1 }

/-- Zeroes a tile's scratchpad, accumulator memory and weight-gradient buffer (R217). -/
def State.zeroTile (s : State) (n : Nat) : State := s.zero (windowDA n 0) 0x12_0000

/-! #### Small structures in memory -/

def State.rdNat (s : State) (da n : Nat) : Nat := leNat (s.bytes da n)

/-! ### Entries (R367, R387) -/

def State.work (s : State) (seq : Nat) : Option Work := s.works.find? fun w => w.seq == seq
def State.modWork (s : State) (seq : Nat) (f : Work → Work) : State :=
  { s with works := s.works.map fun w => if w.seq == seq then f w else w }
def State.modOp (s : State) (seq : Nat) (f : OpRun → OpRun) : State :=
  s.modWork seq fun w => { w with op := w.op.map f }
def State.modColl (s : State) (seq : Nat) (f : CollRun → CollRun) : State :=
  s.modWork seq fun w => { w with coll := w.coll.map f }
def State.opRun (s : State) (seq : Nat) : Option OpRun := (s.work seq).bind Work.op
def State.collRun (s : State) (seq : Nat) : Option CollRun := (s.work seq).bind Work.coll

/-! ### The journal (R387-R394) -/

def slotIx (seq : Nat) : Nat := seq % 65536
def State.slot (s : State) (i : Nat) : Slot := lookup Slot.empty s.journal.slots i
def State.setSlot (s : State) (i : Nat) (x : Slot) : State :=
  { s with journal := { s.journal with slots := store Slot.empty s.journal.slots i x } }

/-- The journal entry of a sequence number, when its slot still holds it (R387). -/
def State.entry (s : State) (seq : Nat) : Option Slot :=
  let x := s.slot (slotIx seq)
  if x.state ≠ 0 ∧ x.seq.toNat = seq then some x else none

def State.modEntry (s : State) (seq : Nat) (f : Slot → Slot) : State :=
  match s.entry seq with
  | some x => s.setSlot (slotIx seq) (f x)
  | none => s

/-- Bytes of the pool that a bitmap takes (R394). -/
def bitmapBytes (nbits : Nat) : Nat := ceilDiv nbits 512 * 64

/-- Pool bytes in use: entries that are not final, and final ones that keep their bitmap (R394). -/
def State.poolUsed (s : State) : Nat :=
  s.journal.slots.foldl (fun a e =>
    if e.2.state = 1 ∨ e.2.state = 2 ∨ e.2.bitmap then a + bitmapBytes e.2.nbits else a) 0

def poolBytes : Nat := 768 * 2 ^ 20

/-- The pool may never have been so full (R400). -/
def State.poolMark (s : State) : State :=
  { s with journal := { s.journal with poolHighMib := max s.journal.poolHighMib (ceilDiv s.poolUsed (2 ^ 20)) } }

/-! ### Activity that energy is divided by (R423) -/

/-- Mesh flits of 64 bytes that carry a job's traffic. -/
def State.countFlits (s : State) (job n : Nat) : State :=
  { s with power := { s.power with meshFlits := store 0 s.power.meshFlits job (lookup 0 s.power.meshFlits job + ceilDiv n 64) } }

/-- Activity events of a paddock are counted under `activityKey`. -/
def activityKey (paddock ctx event : Nat) : Nat := (paddock * 17 + ctx) * 16 + event

/-- Events of a tile, tagged with the context of its work item, if it has one. -/
def State.countActivity (s : State) (tile : Nat) (ctx : Option Nat) (event n : Nat) : State :=
  let k := activityKey (paddockOf tile) (ctx.getD 16) event
  { s with power := { s.power with activity := store 0 s.power.activity k (lookup 0 s.power.activity k + n) } }

/-- The events beside the k-steps, which are events 0 to 5. -/
def evPort : Nat := 6
def evVector : Nat := 7
def evJig : Nat := 8

/-- A skip moves bytes for the context of an entry, and the mesh carries them. -/
def State.countMoved (s : State) (handle da n : Nat) : State :=
  match s.entry handle with
  | some x =>
    let s := s.countFlits x.job n
    if x.ctx < 16 then
      let k := x.ctx + if da < hbmBytes then 0 else 16
      { s with power := { s.power with moved := store 0 s.power.moved k (lookup 0 s.power.moved k + n) } }
    else s
  | none => s

/-- A new context counts nothing of the one before it under its number (R424). -/
def State.forgetCtx (s : State) (c : Nat) : State :=
  { s with power := { s.power with moved := s.power.moved.filter fun e => e.1 % 16 != c
                                   activity := s.power.activity.filter fun e => e.1 / 16 % 17 != c } }

/-- A new job counts nothing of the one before it under its number (R424). -/
def State.forgetJob (s : State) (jn : Nat) : State :=
  { s with power := { s.power with linkBytes := s.power.linkBytes.filter fun e => e.1 % 4 != jn
                                   meshFlits := s.power.meshFlits.filter fun e => e.1 != jn } }

/-- The host port, or a fabric skip, moves bytes for a job. -/
def State.countLink (s : State) (fabric : Bool) (job n : Nat) : State :=
  let s := s.countFlits job n
  let k := job + if fabric then 4 else 0
  { s with power := { s.power with linkBytes := store 0 s.power.linkBytes k (lookup 0 s.power.linkBytes k + n) } }

def State.setBit (s : State) (seq i : Nat) : State :=
  s.modEntry seq fun x => { x with bits := store false x.bits i true }

def State.setWatermark (s : State) (seq w : Nat) : State := s.modEntry seq fun x => { x with watermark := w }

/-- The entry begins running (R387, R388). -/
def State.startEntry (s : State) (seq : Nat) : State :=
  let s := s.modEntry seq fun x => if x.state = 1 then { x with state := 2, start := s.sclk } else x
  s.modWork seq fun w => { w with running := true }

/-- A reply waits until its mirror record is written (R389). -/
def State.holdReply (s : State) (seq : Nat) (r : Reply) : State :=
  { s with journal := { s.journal with heldReplies := s.journal.heldReplies ++ [(slotIx seq, s.sclk, r)] } }

/-! ### A job's reach (R24, R216, R230, R377) -/

def Region.has (r : Region) (da len : Nat) : Bool := decide (r.base ≤ da ∧ da + len ≤ r.base + r.len)
def Region.meets (r : Region) (da len : Nat) : Bool := decide (r.base < da + len ∧ da < r.base + r.len)

/-- The range lies within the job's regions; regions that touch make one range. -/
def inRegionsFuel (rs : List Region) : Nat → Nat → Nat → Bool
  | 0, _, len => len == 0
  | n + 1, da, len =>
    if len = 0 then true
    else match rs.find? fun r => decide (r.base ≤ da ∧ da < r.base + r.len) with
      | none => false
      | some r => if da + len ≤ r.base + r.len then true
                  else inRegionsFuel rs n (r.base + r.len) (da + len - (r.base + r.len))

def Job.inRegions (j : Job) (da len : Nat) : Bool := inRegionsFuel j.regions (j.regions.length + 1) da len

/-- The range lies in the scratchpad of a tile of the job's paddocks. -/
def Job.inScratchpads (s : State) (j : Job) (da len : Nat) : Bool :=
  match s.regionOf da with
  | .tile n off => decide (off + len ≤ 0xC_0000) && j.paddocks.getLsbD (paddockOf n)
  | _ => false

/-- The hayloft areas of every context of a job (R276). -/
def State.hayAreas (s : State) (j : Nat) : List Region :=
  (List.range 16).flatMap fun c => match s.ctx c with
    | some k => if k.job = j ∧ k.hlBytes ≠ 0 then [⟨k.hlDa, k.hlBytes⟩, ⟨k.spDa, k.spBytes⟩].filter (·.len ≠ 0) else []
    | none => []

def State.meetsHay (s : State) (j da len : Nat) : Bool := (s.hayAreas j).any fun r => r.meets da len

/-- A tile is working when it is not quarantined. -/
def State.workingTiles (s : State) : Nat := 800 - countWhere Tile.quarantined s.tiles

/-- The job's tiles. -/
def Job.tiles (j : Job) : List Nat := (List.range 800).filter fun n => j.paddocks.getLsbD (paddockOf n)

/-! ### Little readers of parameter bytes -/

/-- The unsigned little-endian field of `n` bytes at offset `o`. -/
def le (p : List Byte) (o n : Nat) : Nat := leNat ((p.drop o).take n)

/-- Bytes o .. o+n-1 are zero (a reserved field: R19). -/
def zeroAt (p : List Byte) (o n : Nat) : Bool := ((p.drop o).take n).all (· == 0#8)

/-- Sequence number arithmetic of R353. -/
def ahead (s e : U32) : Nat := (s - e).toNat

end Sys2Proof.Machine
end

