-- ==== Sys2Proof/Machine/Operands.lean ====
section
/-! DEFINITION. Tensor descriptors (R179-R185), the parts that a device holds of a sharded tensor (R181, R318), element
addresses (R180), and the operation descriptor with its blocks (R152, R159, R166, R167, R169, R177, R190, R192). -/

namespace Sys2Proof.Machine

/-! ### Tensor descriptors -/

/-- The sparse attribute block (R116). -/
structure Attr where
  kind : Nat
  nm : Nat
  layout : Nat
  slotBytes : Nat
  dirDa : Nat
  regionBytes : Nat
deriving DecidableEq, Repr

/-- A tensor descriptor (R179). -/
structure Tensor where
  id : Nat
  format : Nat
  ndim : Nat
  flags : Nat
  scaleKind : Nat
  base : Nat
  scaleDa : Nat
  extents : List Nat
  strides : List Int
  parts : List Nat
  units : List Nat
  attr : Attr
  raw : List Byte
deriving DecidableEq, Repr

def Tensor.bytes : Nat := 160

/-- Reads a descriptor of 160 bytes. -/
def Tensor.parse (b : List Byte) : Tensor :=
  let nd := min 6 (le b 5 1)
  { id := le b 0 4, format := le b 4 1, ndim := le b 5 1, flags := le b 6 1, scaleKind := le b 7 1,
    base := le b 8 8, scaleDa := le b 16 8,
    extents := (List.range nd).map fun d => le b (24 + 4 * d) 4,
    strides := (List.range nd).map fun d => (BitVec.ofNat 64 (le b (48 + 8 * d) 8)).toInt,
    parts := (List.range nd).map fun d => le b (96 + 2 * d) 2,
    units := (List.range nd).map fun d => le b (108 + d) 1,
    attr := { kind := le b 128 1, nm := le b 129 1, layout := le b 130 1, slotBytes := le b 132 4, dirDa := le b 136 8,
              regionBytes := le b 144 8 },
    raw := b.take 160 }

def Tensor.sparse (t : Tensor) : Bool := bit t.flags 0
def Tensor.allowAlias (t : Tensor) : Bool := bit t.flags 1

/-- Reserved fields of a tensor descriptor are zero (R19, R116, R179, R182). -/
def Tensor.reservedOk (t : Tensor) : Bool :=
  let b := t.raw
  decide (t.flags < 4) && zeroAt b 114 14 &&
  ((List.range 6).all fun d => decide (d < t.ndim) ||
    (zeroAt b (24 + 4 * d) 4 && zeroAt b (48 + 8 * d) 8 && zeroAt b (96 + 2 * d) 2 && zeroAt b (108 + d) 1)) &&
  (if t.sparse then
    zeroAt b 131 1 && zeroAt b 152 8 && ((List.range 6).all fun d => zeroAt b (48 + 8 * d) 8)
   else zeroAt b 128 32)

/-- The element format. A MASK tensor has no values (R130): it must name a listed code that a sparse tensor may have (R39,
R114), and its positions stand for 8-bit elements. -/
def Tensor.fmt (t : Tensor) : Option Fmt :=
  match Fmt.ofCode t.format with
  | some f => if t.sparse ∧ t.attr.kind = 6 then (if f = .int32 ∨ f = .fp32x then none else some .int8) else some f
  | none => none
def Tensor.isMask (t : Tensor) : Bool := t.sparse && t.attr.kind == 6
def Tensor.extent (t : Tensor) (d : Nat) : Nat := (t.extents[d]?).getD 1
def Tensor.stride (t : Tensor) (d : Nat) : Int := (t.strides[d]?).getD 0
def Tensor.part (t : Tensor) (d : Nat) : Nat := (t.parts[d]?).getD 1
def Tensor.unitEls (t : Tensor) (d : Nat) : Nat :=
  match (t.units[d]?).getD 0 with
  | 0 => 1 | 1 => 32 | 2 => 48 | _ => 96

/-- Every stride is the sign extension of a 40-bit value (R179). -/
def signed40 (v : Int) : Bool := decide (-(2 ^ 39) ≤ v) && decide (v < 2 ^ 39)
def Tensor.stridesOk (t : Tensor) : Bool := t.strides.all signed40

def Tensor.size (t : Tensor) : Nat := t.extents.foldl (· * ·) 1

/-! ### Parts -/

/-- The elements of part `p` of an extent `e` split into `n` parts of unit `u`: start and length (R181). -/
def partRange (e n u p : Nat) : Nat × Nat :=
  let us := ceilDiv e u
  let q := us / n
  let r := us % n
  let lo := min e ((p * q + min p r) * u)
  let hi := min e ((p * q + min p r + (if p < r then q + 1 else q)) * u)
  (lo, hi - lo)

/-- The held pieces of a dimension: global start and length, in ascending part order. -/
abbrev Axis := List (Nat × Nat)

def Axis.len (a : Axis) : Nat := a.foldl (fun n p => n + p.2) 0

/-- The global index of a local one. -/
def Axis.global : Axis → Nat → Nat
  | [], i => i
  | (s, n) :: r, i => if i < n then s + i else Axis.global r (i - n)

/-- The local index of a global one, where the device holds it. -/
def Axis.local? : Axis → Nat → Option Nat
  | [], _ => none
  | (s, n) :: r, g => if s ≤ g ∧ g < s + n then some (g - s) else (Axis.local? r g).map (n + ·)

/-- Columns in which a device owns an active leaf (R314, R318). -/
def Mapping.columns (m : Mapping) (d : MapDev) : List Nat :=
  (((List.range d.leafCount).filterMap fun i =>
    let l := d.leafFirst + i
    if l / m.width < m.replicas then some (l % m.width) else none)).dedup

def Mapping.selfDev (m : Mapping) : MapDev := (m.devs[m.self]?).getD ⟨0xFFF, 0, 1024⟩

/-- The per-dimension part indices of shard `s`, row-major. -/
def shardIndex : List Nat → Nat → List Nat
  | [], _ => []
  | p :: ps, s =>
    let q := ps.foldl (· * ·) 1
    (s / q % p) :: shardIndex ps s

/-- The shards that a device holds (R318). -/
def Tensor.shardsOf (t : Tensor) (m : Mapping) (d : MapDev) : List Nat :=
  let q := t.parts.foldl (· * ·) 1
  if q ≤ 1 then [0]
  else
    let cols := m.columns d
    (List.range q).filter fun s => cols.contains (s * m.width / q)

/-- The part indices held in each dimension; none when the shards form no product of part sets (R318). -/
def Tensor.heldParts (t : Tensor) (m : Mapping) (d : MapDev) : Option (List (List Nat)) :=
  let sh := (t.shardsOf m d).map (shardIndex t.parts)
  let sets := (List.range t.parts.length).map fun k => (sh.map fun ix => (ix[k]?).getD 0).dedup
  if sh.isEmpty then some (t.parts.map fun _ => [])
  else if sh.length = sets.foldl (fun n l => n * l.length) 1 then some sets else none

/-- A tensor as the device holds it: its descriptor, format and the held pieces of each dimension. -/
structure Held where
  t : Tensor
  fmt : Fmt
  axes : List Axis
deriving DecidableEq, Repr

def Tensor.heldBy (t : Tensor) (m : Mapping) (d : MapDev) : Option Held :=
  match t.fmt, t.heldParts m d with
  | some f, some sets =>
    some { t := t, fmt := f,
           axes := (List.range t.ndim).map fun k =>
             ((sets[k]?).getD [0]).map fun p => partRange (t.extent k) (t.part k) (t.unitEls k) p }
  | _, _ => none

def Tensor.held (t : Tensor) (m : Mapping) : Option Held := t.heldBy m m.selfDev

def Held.axis (h : Held) (d : Nat) : Axis := (h.axes[d]?).getD [(0, 1)]
def Held.len (h : Held) (d : Nat) : Nat := (h.axis d).len
def Held.shape (h : Held) : List Nat := h.axes.map Axis.len
def Held.size (h : Held) : Nat := h.shape.foldl (· * ·) 1
/-- A global or local extent is 0 (R183). -/
def Held.emptyTensor (h : Held) : Bool := h.t.extents.any (· == 0) || h.shape.any (· == 0)

/-! ### Indices and addresses -/

/-- The row-major linear index. -/
def linear : List Nat → List Nat → Nat
  | n :: ns, i :: is => let _ := n; i * ns.foldl (· * ·) 1 + linear ns is
  | _, _ => 0

/-- The indices of a row-major linear index. -/
def unlinear : List Nat → Nat → List Nat
  | [], _ => []
  | n :: ns, k =>
    let q := ns.foldl (· * ·) 1
    (k / q % (max n 1)) :: unlinear ns (k % q)

def Held.global (h : Held) (ix : List Nat) : List Nat := (h.axes.zip ix).map fun p => p.1.global p.2

/-- The global linear index of a local element (R67, R112, R185). -/
def Held.globalLinear (h : Held) (ix : List Nat) : Nat := linear h.t.extents (h.global ix)

/-- The element offset of R180. -/
def strideSum (ss : List Int) (ix : List Nat) : Int :=
  (ss.zip ix).foldl (fun a p => a + p.1 * p.2) 0

/-- The bit address of a local element (R180). -/
def Held.bitAddr (h : Held) (ix : List Nat) : Nat :=
  (8 * (h.t.base : Int) + strideSum h.t.strides ix * (h.fmt.bits : Int)).toNat

/-- The address of the scale byte that covers a local element of an MX tensor: the scale plane is row-major over the
local shape with one byte for 32 positions of each innermost line (R182). -/
def Held.scaleAddr (h : Held) (ix : List Nat) : Nat :=
  let n := h.t.ndim
  let inner := (ix[n - 1]?).getD 0
  let line := linear (h.shape.take (n - 1)) (ix.take (n - 1))
  h.t.scaleDa + line * ceilDiv (h.len (n - 1)) 32 + inner / 32

def Held.code (h : Held) (rd : Nat → Byte) (ix : List Nat) : Nat := bitsAt rd (h.bitAddr ix) h.fmt.bits

/-- The value of a dense element. -/
def Held.value (h : Held) (rd : Nat → Byte) (ix : List Nat) : FVal :=
  if h.fmt.isMx then mxValue h.fmt (h.code rd ix) (rd (h.scaleAddr ix)).toNat else h.fmt.value (h.code rd ix)

/-- The byte ranges that hold a local element: its code's bytes. -/
def Held.elemBytes (h : Held) (ix : List Nat) : Nat × Nat :=
  let b := h.bitAddr ix
  (b / 8, ceilDiv (b % 8 + h.fmt.bits) 8)

/-- Lowest and highest byte of a dense tensor over the corners of its local shape (R196 check 10, R245). -/
def spanOf (base w : Nat) (strides : List Int) (shape : List Nat) : Int × Int :=
  let ends := (strides.zip shape).map fun p => p.1 * ((p.2 : Int) - 1)
  let lo := ends.foldl (fun a e => a + min 0 e) 0
  let hi := ends.foldl (fun a e => a + max 0 e) 0
  (((8 * (base : Int)) + lo * w) / 8, ((8 * (base : Int)) + hi * w + w - 1) / 8)

def Held.span (h : Held) : Int × Int := spanOf h.t.base h.fmt.bits h.t.strides h.shape

/-- The non-overlap test of R185 on a destination's local shape. -/
def insertDim (x : Nat × Nat × Nat) : List (Nat × Nat × Nat) → List (Nat × Nat × Nat)
  | [] => [x]
  | y :: r => if x.1 < y.1 ∨ (x.1 = y.1 ∧ x.2.1 < y.2.1) then x :: y :: r else y :: insertDim x r

def nonOverlap (strides : List Int) (shape : List Nat) : Bool :=
  let dims := (List.range shape.length).filterMap fun d =>
    let e := (shape[d]?).getD 0
    if e > 1 then some (((strides[d]?).getD 0).natAbs, d, e) else none
  let sorted := dims.foldl (fun l x => insertDim x l) []
  (sorted.foldl (fun (acc : Bool × Nat) x => (acc.1 && decide (x.1 ≥ 1 + acc.2), acc.2 + x.1 * (x.2.2 - 1))) (true, 0)).1

def zeroStride (strides : List Int) (shape : List Nat) : Bool :=
  (strides.zip shape).any fun p => p.1 == 0 && decide (p.2 > 1)

/-! ### The operation descriptor (R177) -/

/-- The jig rule block (R152). -/
structure JigRule where
  rule : Nat
  tau : U32
  gen : Nat
  raw : List Byte
deriving DecidableEq, Repr

/-- The capture block (R169). -/
structure Capture where
  region : Nat
  rowList : Nat
  rows : Nat
  colLo : Nat
  colHi : Nat
  k : Nat
  raw : List Byte
deriving DecidableEq, Repr

/-- An epilogue step (R190). -/
structure EStep where
  code : Nat
  func : Nat
  imm : U32
  res : Nat
deriving DecidableEq, Repr

structure OpDesc where
  kind : Nat
  nOps : Nat
  nSteps : Nat
  flags : Nat
  loop : List Nat
  paddocks : Nat
  tileM : Nat
  tileN : Nat
  tileK : Nat
  splitK : Nat
  microBatch : Nat
  jig : JigRule
  cap : Capture
  steps : List EStep
  sflags : Nat
  mode : Nat
  axisMap : Nat
  kindParams : List Byte
  raw : List Byte
  operands : List Tensor
deriving DecidableEq, Repr

def OpDesc.parse (b : List Byte) : OpDesc :=
  { kind := le b 0 1, nOps := le b 1 1, nSteps := le b 2 1, flags := le b 4 4,
    loop := (List.range 4).map fun i => le b (8 + i) 1,
    paddocks := le b 12 4, tileM := le b 16 4, tileN := le b 20 4, tileK := le b 24 4, splitK := le b 28 1,
    microBatch := le b 32 4,
    jig := { rule := le b 48 1, tau := BitVec.ofNat 32 (le b 52 4), gen := le b 56 4, raw := (b.drop 48).take 16 },
    cap := { region := le b 64 8, rowList := le b 72 8, rows := le b 80 4, colLo := le b 84 4, colHi := le b 88 4,
             k := le b 92 1, raw := (b.drop 64).take 32 },
    steps := (List.range (min 8 (le b 2 1))).map fun i =>
      { code := le b (96 + 8 * i) 1, func := le b (97 + 8 * i) 1, imm := BitVec.ofNat 32 (le b (100 + 8 * i) 4),
        res := le b (98 + 8 * i) 2 },
    sflags := le b 160 1, mode := le b 161 1, axisMap := le b 164 4, kindParams := (b.drop 176).take 32,
    raw := b.take 208,
    operands := (List.range (min 12 (le b 1 1))).map fun i => Tensor.parse ((b.drop (208 + 160 * i)).take 160) }

def OpDesc.aLines (d : OpDesc) : Bool := bit d.flags 0
def OpDesc.bLines (d : OpDesc) : Bool := bit d.flags 1
def OpDesc.hasC (d : OpDesc) : Bool := bit d.flags 2
def OpDesc.skipUnselected (d : OpDesc) : Bool := bit d.flags 3
def OpDesc.wgb (d : OpDesc) : Bool := d.kind == 1 && bit d.flags 4
def OpDesc.satOn (d : OpDesc) : Bool := !bit d.sflags 0
def OpDesc.sr (d : OpDesc) : Bool := bit d.sflags 1
def OpDesc.hay (d : OpDesc) : Bool := bit d.sflags 2
def OpDesc.isProduct (d : OpDesc) : Bool := d.kind == 1

/-- The jig rule names a mask: MASK or MASK_THRESHOLD on a sparse destination (R152). -/
def JigRule.named (j : JigRule) : Bool := j.rule == 0 || j.rule == 2

/-- The step takes a tensor (R178, R190). -/
def EStep.takes (e : EStep) : Bool := decide (1 ≤ e.code ∧ e.code ≤ 6)

/-! #### The places of operands in the list (R178) -/

def OpDesc.dPos (d : OpDesc) : Nat := if d.kind = 5 then 1 else if d.kind = 6 then 0 else 2
def OpDesc.operand (d : OpDesc) (i : Nat) : Option Tensor := d.operands[i]?
def OpDesc.dTensor (d : OpDesc) : Option Tensor := d.operand d.dPos

/-- The destination of a product or MAP is sparse and its rule names a mask. -/
def OpDesc.usesMask (d : OpDesc) : Bool :=
  match d.dTensor with
  | some t => t.sparse && d.jig.named
  | none => false

def OpDesc.cPos (d : OpDesc) : Option Nat := if d.kind = 1 ∧ d.hasC then some 3 else none
def OpDesc.maskPos (d : OpDesc) : Option Nat :=
  if (d.kind = 1 ∨ d.kind = 5) ∧ d.usesMask then some (d.dPos + 1 + b2n (d.kind == 1 && d.hasC)) else none

/-- The position of the first epilogue operand. -/
def OpDesc.ePos (d : OpDesc) : Nat := d.dPos + 1 + b2n (d.kind == 1 && d.hasC) + b2n d.usesMask

/-- Each step with its operand's position, where it takes one. -/
def stepOperands : Nat → List EStep → List (EStep × Option Nat)
  | _, [] => []
  | p, e :: r => if e.takes then (e, some p) :: stepOperands (p + 1) r else (e, none) :: stepOperands p r

def OpDesc.epilogue (d : OpDesc) : List (EStep × Option Nat) := stepOperands d.ePos d.steps

/-- The number of operands that R178 asks for. -/
def OpDesc.operandCount (d : OpDesc) : Nat :=
  match d.kind with
  | 1 | 5 => d.ePos + (d.steps.filter EStep.takes).length
  | 2 => 3 + b2n (le d.kindParams 12 1 % 2 == 1)
  | 3 => 4 + b2n (le d.kindParams 0 1 == 1)
  | 4 => 5 + b2n (le d.kindParams 3 1 % 2 == 1)
  | _ => 1

/-- The positions of tensors that an operation of the kind writes. -/
def OpDesc.destinations (d : OpDesc) : List Nat :=
  match d.kind with
  | 1 => [2]
  | 5 => [1]
  | 2 => if le d.kindParams 12 1 % 2 = 1 then [2, 3] else [2]
  | 3 | 4 => [2, 3]
  | _ => []

end Sys2Proof.Machine
end

