-- ==== Sys2Proof/Machine/Sparse.lean ====
section
/-! DEFINITION. Sparse tensor formats (R112-R139): the tile grid, layouts, headers and bodies, the header pass, the body
checks, and the order in which offenders are reported. -/

namespace Sys2Proof.Machine

/-! ### Magnitude order and selection (R135) -/

/-- Puts a candidate into a list kept in magnitude order, ties to the lower index. -/
def rankInsert (x : Nat × FVal) : List (Nat × FVal) → List (Nat × FVal)
  | [] => [x]
  | y :: r =>
    if x.2.ahead y.2 ∨ (¬ y.2.ahead x.2 ∧ x.1 < y.1) then x :: y :: r else y :: rankInsert x r

def rankAll (l : List (Nat × FVal)) : List (Nat × FVal) := l.foldl (fun a x => rankInsert x a) []

/-- The indices of the `n` candidates that come first in the magnitude order. -/
def topN (n : Nat) (l : List (Nat × FVal)) : List Nat := ((rankAll l).take n).map Prod.fst

/-! ### Tile kinds -/

def kDENSE : Nat := 0
def kNM : Nat := 1
def kBLOCK16 : Nat := 2
def kBITMAP : Nat := 3
def kCOO : Nat := 4
def kZERO : Nat := 5
def kMASK : Nat := 6

/-- Tile kinds that a target kind allows (R118). -/
def kindAllowed (target kind : Nat) : Bool :=
  match target with
  | 1 => kind == 1 || kind == 0 || kind == 5
  | 2 => kind == 2 || kind == 0 || kind == 5
  | 3 => kind == 3 || kind == 4 || kind == 0 || kind == 5
  | 6 => kind == 6
  | _ => false

def legalNM (nm : Nat) : Bool := nm == 0x14 || nm == 0x24 || nm == 0x28 || nm == 0x48

/-- The dense body of a full tile (R114). -/
def fullDense (f : Fmt) : Nat := r32 (ceilDiv (2304 * f.bits) 8)

/-- The smallest `SLOT_BYTES` (R119). -/
def minSlot (kind : Nat) (f : Fmt) : Nat := if kind = 6 then 320 else 32 + fullDense f

/-! ### The tile grid (R112, R113) -/

/-- The global tile numbers along an axis that the device holds. -/
def heldTiles (a : Axis) : List Nat := a.flatMap fun p => (List.range (ceilDiv p.2 48)).map fun k => p.1 / 48 + k

def Held.lineDim (h : Held) : Nat := h.t.ndim - 2
def Held.posDim (h : Held) : Nat := h.t.ndim - 1
def Held.tileRows (h : Held) : List Nat := heldTiles (h.axis h.lineDim)
def Held.tileCols (h : Held) : List Nat := heldTiles (h.axis h.posDim)
def Held.outerShape (h : Held) : List Nat := h.shape.take (h.t.ndim - 2)
def Held.outerCount (h : Held) : Nat := h.outerShape.foldl (· * ·) 1
/-- T of R113: the tiles that the device holds. -/
def Held.tileCount (h : Held) : Nat := h.outerCount * h.tileRows.length * h.tileCols.length

/-- A held tile: local and global sequence numbers, extents, and the global origin of its lines and positions. -/
structure TileGeo where
  tL : Nat
  seq : Nat
  lines : Nat
  positions : Nat
  line0 : Nat
  pos0 : Nat
  /-- the local outer indices -/
  outer : List Nat
deriving DecidableEq, Repr

def Held.tileGeo (h : Held) (tL : Nat) : TileGeo :=
  let nr := max 1 h.tileRows.length
  let nc := max 1 h.tileCols.length
  let o := unlinear h.outerShape (tL / nc / nr)
  let tl := (h.tileRows[tL / nc % nr]?).getD 0
  let tp := (h.tileCols[tL % nc]?).getD 0
  let L := h.t.extent h.lineDim
  let P := h.t.extent h.posDim
  let og := ((h.axes.take (h.t.ndim - 2)).zip o).map fun p => p.1.global p.2
  let m := linear (h.t.extents.take (h.t.ndim - 2)) og
  { tL := tL, seq := (m * ceilDiv L 48 + tl) * ceilDiv P 48 + tp,
    lines := min 48 (L - 48 * tl), positions := min 48 (P - 48 * tp), line0 := 48 * tl, pos0 := 48 * tp, outer := o }

/-- The local sequence number of the tile that holds a local element. -/
def Held.tileOfElem (h : Held) (outer : List Nat) (li pi : Nat) : Nat :=
  let gl := (h.axis h.lineDim).global li
  let gp := (h.axis h.posDim).global pi
  let a := h.tileRows.findIdx (· == gl / 48)
  let b := h.tileCols.findIdx (· == gp / 48)
  (linear h.outerShape outer * h.tileRows.length + a) * h.tileCols.length + b

/-- The address of a tile's header (R119, R120). -/
def Held.tileAddr (h : Held) (rd : Nat → Byte) (tL : Nat) : Nat :=
  if h.t.attr.layout = 0 then h.t.base + tL * h.t.attr.slotBytes
  else h.t.base + 32 * leNat ((List.range 4).map fun i => rd (h.t.attr.dirDa + 4 * tL + i))

/-! ### Headers (R121, R122) -/

structure TileHdr where
  ver : Nat
  kind : Nat
  format : Nat
  nm : Nat
  lines : Nat
  positions : Nat
  target : Nat
  nnz : Nat
  body : Nat
  seq : Nat
  gen : Nat
deriving DecidableEq, Repr

def TileHdr.parse (b : List Byte) : TileHdr :=
  { ver := le b 0 1, kind := le b 1 1, format := le b 2 1, nm := le b 3 1, lines := le b 4 1, positions := le b 5 1,
    target := le b 6 1, nnz := le b 8 4, body := le b 12 4, seq := le b 16 4, gen := le b 20 4 }

def TileHdr.bytes (h : TileHdr) : List Byte :=
  leBytes 1 h.ver ++ leBytes 1 h.kind ++ leBytes 1 h.format ++ leBytes 1 h.nm ++ leBytes 1 h.lines ++
  leBytes 1 h.positions ++ leBytes 1 h.target ++ leBytes 1 0 ++ leBytes 4 h.nnz ++ leBytes 4 h.body ++
  leBytes 4 h.seq ++ leBytes 4 h.gen ++ leBytes 8 0

/-- `BODY_BYTES` of R122. -/
def bodyBytes (kind w lines positions nnz : Nat) : Nat :=
  match kind with
  | 0 => r32 (ceilDiv (lines * positions * w) 8)
  | 1 | 3 => 288 + r32 (ceilDiv (nnz * w) 8)
  | 2 => 32 + nnz / 256 * (256 * w / 8)
  | 4 => r32 (2 * nnz) + r32 (ceilDiv (nnz * w) 8)
  | 6 => 288
  | _ => 0

/-- `NNZ` lies in the range of its tile kind (R122). -/
def nnzOk (kind lines positions nnz : Nat) : Bool :=
  match kind with
  | 0 => nnz == lines * positions
  | 1 | 3 | 6 => decide (nnz ≤ 2304)
  | 2 => decide (nnz ≤ 2304) && nnz % 256 == 0
  | 4 => decide (nnz ≤ 144)
  | _ => nnz == 0

def rdList (rd : Nat → Byte) (a n : Nat) : List Byte := (List.range n).map fun i => rd (a + i)

/-- The order of R137. -/
def Offender.before (a b : Offender) : Bool :=
  if a.operand ≠ b.operand then decide (a.operand < b.operand)
  else if a.tileSeq ≠ b.tileSeq then decide (a.tileSeq < b.tileSeq)
  else if a.rank ≠ b.rank then decide (a.rank < b.rank)
  else if a.elem ≠ b.elem then decide (a.elem < b.elem)
  else decide (a.da < b.da)

def firstOffender (l : List Offender) : Option Offender :=
  l.foldl (fun acc o => match acc with
    | none => some o
    | some p => if o.before p then some o else some p) none

def earlier (a b : Option Offender) : Option Offender :=
  match a, b with
  | none, b => b
  | a, none => a
  | some x, some y => if y.before x then some y else some x

/-- The first header byte that breaks R134, with its status; `ok` lists the checks in order of byte address. -/
def headerFault (t : Tensor) (f : Fmt) (g : TileGeo) (hb : List Byte) (room : Nat) : Option (Nat × Nat) :=
  let h := TileHdr.parse hb
  let mask := t.attr.kind == 6
  let rows : List (Bool × Nat × Nat) :=
    [ (h.ver == 1, 0, St.sparseHeader),
      (kindAllowed t.attr.kind h.kind, 1, St.sparseHeader),
      (h.format == (if mask then 0 else t.format), 2, St.sparseHeader),
      (h.nm == (if h.kind == 1 || mask then t.attr.nm else 0), 3, St.sparseHeader),
      (h.lines == g.lines, 4, St.sparseHeader),
      (h.positions == g.positions, 5, St.sparseHeader),
      (h.target == t.attr.kind || (h.kind == 0 && h.target == 0), 6, St.sparseHeader),
      (le hb 7 1 == 0, 7, St.paramReserved),
      (nnzOk h.kind g.lines g.positions h.nnz, 8, St.sparseHeader),
      (h.body == bodyBytes h.kind f.bits g.lines g.positions h.nnz && decide (32 + h.body ≤ room), 12, St.sparseHeader),
      (h.seq == g.seq, 16, St.sparseHeader) ] ++
    (List.range 8).map fun i => (le hb (24 + i) 1 == 0, 24 + i, St.paramReserved)
  (rows.find? fun r => !r.1).map Prod.snd

/-- What the header pass finds for one tile, and the header that it recorded (R134). `poison` tells whether the unit of
a DA is poisoned. -/
def tilePass (h : Held) (op : Nat) (rd : Nat → Byte) (poison : Nat → Bool) (tL : Nat) :
    Option Offender × Nat × List Byte :=
  let g := h.tileGeo tL
  let off (st rank da : Nat) : Offender :=
    { status := st, operand := op, tileSeq := g.seq, rank := rank, elem := 0, da := da, bit := 0 }
  let dir := h.t.attr.dirDa + 4 * tL
  let a := h.tileAddr rd tL
  let packed := h.t.attr.layout == 1
  if packed && poison dir then (some (off St.intPoison 0 (unitOf dir)), a, [])
  else if packed && decide (a - h.t.base + 32 > h.t.attr.regionBytes) then (some (off St.sparseHeader 0 dir), a, [])
  else if poison a then (some (off St.intPoison 1 (unitOf a)), a, [])
  else
    let hb := rdList rd a 32
    let room :=
      if packed then
        let lim := h.t.attr.regionBytes - (a - h.t.base)
        if tL + 1 < h.tileCount then min lim (h.tileAddr rd (tL + 1) - a) else lim
      else h.t.attr.slotBytes
    match headerFault h.t h.fmt g hb room with
    | some (o, st) => (some (off st 1 (a + o)), a, hb)
    | none => (none, a, hb)

/-! ### Bodies (R123-R130) -/

/-- An element of a body in stream order: its in-tile index, its code, and the byte and bit that make it present. -/
structure Elem where
  u : Nat
  code : Nat
  da : Nat
  bit : Nat
deriving DecidableEq, Repr

/-- The set bits of a 288-byte bitmap. -/
def bitmapBits (rd : Nat → Byte) (a : Nat) : List Nat :=
  (List.range 2304).filter fun u => (rd (a + u / 8)).toNat / 2 ^ (u % 8) % 2 == 1

/-- The blocks present in a block map, in ascending bit order. -/
def mapBlocks (rd : Nat → Byte) (a : Nat) : List Nat :=
  (List.range 9).filter fun b => (rd (a + b / 8)).toNat / 2 ^ (b % 8) % 2 == 1

/-- The elements that a body holds, in stream order, those beyond the extents included. -/
def bodyElems (w : Nat) (h : TileHdr) (rd : Nat → Byte) (a : Nat) : List Elem :=
  let b := a + 32
  match h.kind with
  | 0 => (List.range (h.lines * h.positions)).map fun k =>
      { u := 48 * (k / max 1 h.positions) + k % max 1 h.positions, code := bitsAt rd (8 * b + k * w) w, da := b + k * w / 8, bit := 0 }
  | 1 | 3 | 6 => ((bitmapBits rd b).zipIdx).map fun p =>
      { u := p.1, code := if h.kind = 6 then 1 else bitsAt rd (8 * (b + 288) + p.2 * w) w, da := b + p.1 / 8, bit := p.1 % 8 }
  | 2 => ((mapBlocks rd b).zipIdx).flatMap fun p => (List.range 256).map fun e =>
      { u := 48 * (16 * (p.1 / 3) + e / 16) + 16 * (p.1 % 3) + e % 16,
        code := bitsAt rd (8 * (b + 32) + (p.2 * 256 + e) * w) w, da := b + p.1 / 8, bit := p.1 % 8 }
  | 4 => (List.range h.nnz).map fun k =>
      { u := leNat (rdList rd (b + 2 * k) 2), code := bitsAt rd (8 * (b + r32 (2 * h.nnz)) + k * w) w, da := b + 2 * k, bit := 0 }
  | _ => []

def inExtents (h : TileHdr) (u : Nat) : Bool := decide (u < 2304 ∧ u / 48 < h.lines ∧ u % 48 < h.positions)

/-- Over-full groups of an NM or MASK body: line, group and the set bits of the group (R124, R130). Bits beyond the extents
count towards a stored group, as R138 counts bits set, and under TRUNCATE they may take one of its N places; the jig's own
mask groups hold positions within the extents alone (DESIGN CHOICE, log 52). -/
def overFull (h : TileHdr) (els : List Elem) : List (Nat × Nat × List Elem) :=
  if (h.kind = 1 ∨ h.kind = 6) ∧ h.nm ≠ 0 then
    let n := h.nm / 16
    let m := max 1 (h.nm % 16)
    (List.range 48).flatMap fun i => (List.range (48 / m)).filterMap fun g =>
      let es := els.filter fun e => decide (e.u / 48 = i ∧ e.u % 48 / m = g)
      if es.length > n then some (i, g, es) else none
  else []

/-- Offenders of a body other than over-full groups (R138); the first list aborts, the second is of `SPARSE_INDEX`. -/
def bodyOffenders (op seq : Nat) (h : TileHdr) (recorded : List Byte) (rd : Nat → Byte) (a : Nat) :
    List Offender × List Offender :=
  let b := a + 32
  let off (st rank el da bt : Nat) : Offender :=
    { status := st, operand := op, tileSeq := seq, rank := rank, elem := el, da := da, bit := bt }
  let now := rdList rd a 32
  let changed := ((List.range 32).find? fun i => now[i]? != recorded[i]?).toList.map fun i => off St.sparseHeader 1 0 (a + i) 0
  match h.kind with
  | 1 | 3 | 6 =>
    let bits := bitmapBits rd b
    (changed ++ (if bits.length ≠ h.nnz then [off St.sparseCount 1 0 (a + 8) 0] else []),
     (bits.filter fun u => !inExtents h u).map fun u => off St.sparseIndex 2 u (b + u / 8) (u % 8))
  | 2 =>
    let blocks := mapBlocks rd b
    let res := (if (rd (b + 1)).toNat / 2 ≠ 0 then [1] else []) ++
      ((List.range 30).filterMap fun i => if rd (b + 2 + i) ≠ 0#8 then some (2 + i) else none)
    (changed ++ (if blocks.length * 256 ≠ h.nnz then [off St.sparseCount 1 0 (a + 8) 0] else []) ++
      (res.head?.toList.map fun i => off St.sparseHeader 2 0 (b + i) 0),
     (blocks.filter fun k => decide (16 * (k / 3) ≥ h.lines ∨ 16 * (k % 3) ≥ h.positions)).map fun k =>
       off St.sparseIndex 2 (48 * 16 * (k / 3) + 16 * (k % 3)) (b + k / 8) (k % 8))
  | 4 =>
    let cs := (List.range h.nnz).map fun k => leNat (rdList rd (b + 2 * k) 2)
    let bad := (List.range h.nnz).filter fun k => decide (k > 0 ∧ (cs[k]?).getD 0 ≤ (cs[k - 1]?).getD 0)
    (changed ++ (bad.map fun k => off St.sparseOrder 2 ((cs[k]?).getD 0) (b + 2 * k) 0),
     (cs.zipIdx.filter fun p => !inExtents h p.1).map fun p => off St.sparseIndex 2 p.1 (b + 2 * p.2) 0)
  | _ => (changed, [])

/-- Over-full groups as offenders of the ABORT policy, at the lowest bit of the group in the bitmap at `b` (R135, R137). -/
def groupOffenders (op seq m b : Nat) (gs : List (Nat × Nat × List Elem)) : List Offender :=
  gs.map fun g =>
    let u := 48 * g.1 + m * g.2.1
    { status := St.sparseNmOverfull, operand := op, tileSeq := seq, rank := 2, elem := u, da := b + u / 8, bit := u % 8 }

/-- The elements that contribute terms: within the extents, and in an over-full group under TRUNCATE only the N that
come first in the magnitude order (R135, R138). -/
def presentElems (val : Elem → FVal) (h : TileHdr) (els : List Elem) : List Elem :=
  let gs := overFull h els
  let dropped := gs.flatMap fun g =>
    let keep := topN (h.nm / 16) (g.2.2.map fun e => (e.u, val e))
    (g.2.2.filter fun e => !keep.contains e.u).map Elem.u
  els.filter fun e => inExtents h e.u && !dropped.contains e.u

/-- The byte range of a tile in memory: header and body. -/
def tileSpan (h : TileHdr) (a : Nat) : Nat × Nat := (a, 32 + h.body)

/-! ### Encoding a tile (R131, R133, R154-R157) -/

/-- The encoding of a destination tile: `present` gives the presence set, `code` the codes of the elements. -/
def encodeTile (t : Tensor) (f : Fmt) (g : TileGeo) (gen : Nat) (present : Nat → Bool) (code : Nat → Nat) : List Byte :=
  let us := (List.range 2304).filter fun u => decide (u / 48 < g.lines ∧ u % 48 < g.positions)
  let ps := us.filter present
  let w := f.bits
  let dense := bodyBytes 0 w g.lines g.positions 0
  let blocks := (List.range 9).filter fun b => ps.any fun u => decide (u / 48 / 16 = b / 3 ∧ u % 48 / 16 = b % 3)
  let bitmap := leBytes 288 (packNat 1 ((List.range 2304).map fun u => b2n (ps.contains u)))
  let kind :=
    if t.attr.kind = 6 then 6
    else if ps.isEmpty then 5
    else if t.attr.kind = 1 then 1
    else if t.attr.kind = 3 then (if ps.length ≤ 128 then 4 else 3)
    else 2
  let nnz := match kind with
    | 2 => 256 * blocks.length
    | 5 => 0
    | _ => ps.length
  let size := bodyBytes kind w g.lines g.positions nnz
  let escape := kind ≠ 6 ∧ size > dense
  let kind' := if escape then 0 else kind
  let nnz' := if escape then g.lines * g.positions else nnz
  let size' := if escape then dense else size
  let hdr : TileHdr :=
    { ver := 1, kind := kind', format := if t.attr.kind = 6 then 0 else t.format,
      nm := if kind' = 1 ∨ kind' = 6 then t.attr.nm else 0, lines := g.lines, positions := g.positions,
      target := t.attr.kind, nnz := nnz', body := size', seq := g.seq, gen := gen }
  let val (u : Nat) : Nat := if present u ∧ u / 48 < g.lines ∧ u % 48 < g.positions then code u else 0
  let body : List Byte :=
    match kind' with
    | 0 => packBytes w size' ((List.range (g.lines * g.positions)).map fun k =>
        val (48 * (k / max 1 g.positions) + k % max 1 g.positions))
    | 1 | 3 => bitmap ++ packBytes w (size' - 288) (ps.map val)
    | 6 => bitmap
    | 4 => leBytes (r32 (2 * nnz')) (packNat 16 ps) ++ packBytes w (size' - r32 (2 * nnz')) (ps.map val)
    | 2 => leBytes 32 (packNat 1 ((List.range 9).map fun b => b2n (blocks.contains b))) ++
        packBytes w (size' - 32) (blocks.flatMap fun b => (List.range 256).map fun e =>
          val (48 * (16 * (b / 3) + e / 16) + 16 * (b % 3) + e % 16))
    | _ => []
  hdr.bytes ++ body

/-- The kept positions of a mask tile for the jig: an over-full group keeps the N positions first by the values to be
stored there (R130, R135, R154). `trunc` lists the over-full groups. -/
def maskKept (nm : Nat) (g : TileGeo) (kept : Nat → Bool) (val : Nat → FVal) : List Nat × List (Nat × Nat) :=
  let us := (List.range 2304).filter fun u => decide (u / 48 < g.lines ∧ u % 48 < g.positions) && kept u
  if nm = 0 then (us, [])
  else
    let n := nm / 16
    let m := max 1 (nm % 16)
    let groups := (List.range 48).flatMap fun i => (List.range (48 / m)).map fun k => (i, k)
    let inG (i k u : Nat) : Bool := decide (u / 48 = i ∧ u % 48 / m = k)
    let ovf := groups.filter fun p => decide ((us.filter (inG p.1 p.2)).length > n)
    let dropped := ovf.flatMap fun p =>
      let es := us.filter (inG p.1 p.2)
      let keep := topN n (es.map fun u => (u, val u))
      es.filter fun u => !keep.contains u
    (us.filter fun u => !dropped.contains u, ovf)

end Sys2Proof.Machine
end

