-- ==== Sys2Proof/Machine/Tiling.lean ====
section
/-! DEFINITION. The shape of an operation as the device holds it, the tiling of R193-R195 and R497, the split of R197,
the numbering of R199-R200, and the jobs' scratch need of R198 and R257. -/

namespace Sys2Proof.Machine

/-- An operation resolved against the job's mapping: its held operands, the roles of the destination's dimensions, and
the extents of its matrices (R187, R188). The tiling is chosen from the global extents, which no mapping changes (R3, R5,
R6); the items cover the local ones. -/
structure View where
  d : OpDesc
  ops : List Held
  roles : List Nat
  nb : Nat
  batch : List Nat
  m : Nat
  n : Nat
  k : Nat
  /-- the global extents of batch, row, column and contraction -/
  gb : Nat
  gm : Nat
  gn : Nat
  gk : Nat
  /-- contraction dimension of A and of B -/
  ca : Nat
  cb : Nat
  g : Nat
  mode : Option Mode
deriving DecidableEq, Repr

def Held.blank : Held :=
  { t := Tensor.parse [], fmt := .fp32, axes := [] }

def View.op (v : View) (i : Nat) : Held := (v.ops[i]?).getD Held.blank
def View.dHeld (v : View) : Held := v.op v.d.dPos

/-- Product geometry: PRODUCT and ASSAY (R159, R187). -/
def OpDesc.productLike (d : OpDesc) : Bool := d.kind == 1 || d.kind == 2

/-- The roles that `AXIS_MAP` gives (R162, R188, R192); MAP, PRUNE and REGROW have fixed ones (R178, R193). -/
def rolesOf (d : OpDesc) (ndim : Nat) : List Nat :=
  if d.productLike then (List.range ndim).map fun i => d.axisMap / 4 ^ i % 4
  else (List.range ndim).map fun i => if i + 1 = ndim then 2 else if i + 2 = ndim then 1 else 0

/-- The product of the entries whose role is `r`. -/
def roleProd (roles ext : List Nat) (r : Nat) : Nat :=
  ((roles.zip ext).filter fun p => p.1 == r).foldl (fun a p => a * p.2) 1

/-- The contraction granule: the least common multiple of 48 for each sparse operand and 32 for each MX one (R194). -/
def granuleOf (a b : Tensor) (fa fb : Fmt) : Nat :=
  let s := a.sparse || b.sparse
  let x := fa.isMx || fb.isMx
  if s && x then 96 else if s then 48 else 32

/-- Resolves an operation. An assay converts whole blocks of 32 positions, so its granule holds whole blocks (DEDUCED,
log 20), and its array mode is MX whatever its operands' formats are (R160). -/
def mkView (m : Mapping) (d : OpDesc) : Option View :=
  let hs := d.operands.map fun t => t.held m
  if hs.any Option.isNone then none
  else
    let ops := hs.filterMap id
    match ops[d.dPos]? with
    | none => none
    | some D =>
      let A := (ops[0]?).getD Held.blank
      let B := (ops[1]?).getD Held.blank
      let roles := rolesOf d D.t.ndim
      let nb := if d.productLike then A.t.ndim - 2 else D.t.ndim - 2
      let ca := if d.aLines then A.t.ndim - 2 else A.t.ndim - 1
      let cb := if d.bLines then B.t.ndim - 2 else B.t.ndim - 1
      some
        { d := d, ops := ops, roles := roles, nb := nb, batch := D.shape.take nb,
          m := roleProd roles D.shape 1, n := roleProd roles D.shape 2,
          k := if d.productLike then A.len ca else 0,
          gb := roleProd roles D.t.extents 0, gm := roleProd roles D.t.extents 1, gn := roleProd roles D.t.extents 2,
          gk := if d.productLike then A.t.extent ca else 0, ca := ca, cb := cb,
          g := if !d.productLike then granuleOf A.t A.t A.fmt A.fmt
               else if d.kind = 2 ∧ granuleOf A.t B.t A.fmt B.fmt = 48 then 96
               else granuleOf A.t B.t A.fmt B.fmt,
          mode := if d.kind = 2 then (pairing A.fmt B.fmt).map fun _ => .mx
                  else if d.productLike then pairing A.fmt B.fmt else none }

def View.batches (v : View) : Nat := v.batch.foldl (· * ·) 1

/-- Some tensor has a global or local extent of 0 (R183). -/
def View.empty (v : View) : Bool := v.ops.any Held.emptyTensor

/-! ### Index maps -/

/-- The local index of D for batch entry `b`, local row `i` and column `j` (R188). -/
def dIndexAux (roles shape : List Nat) (bs rs cs : List Nat) : List Nat :=
  match roles, shape with
  | r :: roles, _ :: shape =>
    match r with
    | 1 => (rs.head?.getD 0) :: dIndexAux roles shape bs rs.tail cs
    | 2 => (cs.head?.getD 0) :: dIndexAux roles shape bs rs cs.tail
    | _ => (bs.head?.getD 0) :: dIndexAux roles shape bs.tail rs cs
  | _, _ => []

def View.dimsOf (v : View) (r : Nat) (ext : List Nat) : List Nat := ((v.roles.zip ext).filter fun p => p.1 == r).map Prod.snd

def View.dIndex (v : View) (b i j : Nat) : List Nat :=
  let sh := v.dHeld.shape
  dIndexAux v.roles sh (unlinear (v.dimsOf 0 sh) b) (unlinear (v.dimsOf 1 sh) i) (unlinear (v.dimsOf 2 sh) j)

/-- The global row and column of a local row and column. -/
def View.globalRC (v : View) (r i : Nat) : Nat :=
  let h := v.dHeld
  let axes := ((v.roles.zip h.axes).filter fun p => p.1 == r).map Prod.snd
  let loc := unlinear (axes.map Axis.len) i
  linear (v.dimsOf r h.t.extents) ((axes.zip loc).map fun p => p.1.global p.2)
def View.globalRow (v : View) (i : Nat) : Nat := v.globalRC 1 i
def View.globalCol (v : View) (j : Nat) : Nat := v.globalRC 2 j

/-- The global index in an operand with D's roles of D's element at batch entry `b`, local row `i` and column `j`. The
operand may factor the rows and columns otherwise than D does (R187, R190). -/
def View.globalOfD (v : View) (t : Tensor) (b i j : Nat) : List Nat :=
  let D := v.dHeld
  let roles := rolesOf v.d t.ndim
  let dims (r : Nat) : List Nat := ((roles.zip t.extents).filter fun p => p.1 == r).map Prod.snd
  let axes := ((v.roles.zip D.axes).filter fun p => p.1 == 0).map Prod.snd
  let bs := (axes.zip (unlinear (v.dimsOf 0 D.shape) b)).map fun p => p.1.global p.2
  dIndexAux roles t.extents bs (unlinear (dims 1) (v.globalRow i)) (unlinear (dims 2) (v.globalCol j))

/-- The local index there, where the device holds the element: the two may hold different parts (R180). -/
def View.localOfD? (v : View) (h : Held) (b i j : Nat) : List (Option Nat) :=
  (h.axes.zip (v.globalOfD h.t b i j)).map fun q => q.1.local? q.2
def View.localOfD (v : View) (h : Held) (b i j : Nat) : List Nat := (v.localOfD? h b i j).map fun q => q.getD 0

/-- The contraction dimension of A (operand 0) or B (operand 1), and the local index along its output axis of D's local
row or column `o` (R180, R187). -/
def View.contraction (v : View) (pos : Nat) : Nat := if pos = 0 then v.ca else v.cb
def View.outIndex (v : View) (pos o : Nat) : Nat :=
  let h := v.op pos
  let d := if v.contraction pos + 1 = h.t.ndim then h.t.ndim - 2 else h.t.ndim - 1
  ((h.axis d).local? (if pos = 0 then v.globalRow o else v.globalCol o)).getD 0

/-- The local index of A or B: batch entry of D, D's local row or column and the index along the contraction; an extent
of 1 broadcasts (R187). -/
def View.factorIndex (v : View) (pos b o k : Nat) : List Nat :=
  let D := v.dHeld
  let h := v.op pos
  let o := v.outIndex pos o
  let bs := unlinear v.batch b
  let bl := (List.range v.nb).map fun q =>
    if h.t.extent q = 1 then 0 else ((h.axis q).local? ((D.axis q).global ((bs[q]?).getD 0))).getD 0
  if v.contraction pos + 1 = h.t.ndim then bl ++ [o, k] else bl ++ [k, o]

/-! ### Capture (R169, R170) -/

/-- The row list, in memory order. -/
def Capture.rowsIn (c : Capture) (rd : Nat → Byte) : List Nat :=
  (List.range c.rows).map fun q => leNat (rdList rd (c.rowList + 4 * q) 4)

/-- Local rows that are captured, with their place in the list. -/
def View.capturedRows (v : View) (rows : List Nat) : List (Nat × Nat) :=
  if rows.isEmpty then []
  else (List.range v.m).filterMap fun i =>
    let q := rows.findIdx (· == v.globalRow i)
    if q < rows.length then some (i, q) else none

/-- The captured rows by global row, for the tiling (R170, R194). -/
def View.capturedGlobal (v : View) (rows : List Nat) : List (Nat × Nat) :=
  (rows.zipIdx.filter fun p => decide (p.1 < v.gm))

/-- Captured rows among `n` rows from `lo`. -/
def capturedIn (cr : List (Nat × Nat)) (lo n : Nat) : Nat := (cr.filter fun p => decide (lo ≤ p.1 ∧ p.1 < lo + n)).length

/-! ### bytes(Mt, Nt, Kr) of R195 -/

def Held.denseBytes (h : Held) (n : Nat) : Nat := ceilDiv (n * h.fmt.bits) 8

def tileBound (h : Held) : Nat := 32 + (if h.t.isMask then 288 else fullDense h.fmt)

def View.spadBytes (v : View) (cr : List (Nat × Nat)) (mt nt kr : Nat) : Nat :=
  let factor (h : Held) (lines : Nat) : Nat :=
    if h.t.sparse then ceilDiv lines 48 * ceilDiv kr 48 * tileBound h
    else h.denseBytes (lines * kr) + (if h.fmt.isMx then lines * ceilDiv kr 32 else 0)
  let tile (h : Held) : Nat :=
    if h.t.sparse then ceilDiv mt 48 * ceilDiv nt 48 * tileBound h
    else h.denseBytes (mt * nt) + (if h.fmt.isMx then ceilDiv (mt * nt) 32 else 0)
  let c := match v.d.cPos with | some p => (v.op p).denseBytes (mt * nt) | none => 0
  let epi := v.d.epilogue.foldl (fun a e => match e.2 with
    | none => a
    | some p =>
      let h := v.op p
      a + (match e.1.code with
        | 1 | 3 => h.denseBytes nt
        | 2 | 4 => h.denseBytes mt
        | _ => h.denseBytes (mt * nt))) 0
  let h := if cr.isEmpty then 0 else (List.range (ceilDiv v.gm mt)).foldl (fun a i => max a (capturedIn cr (mt * i) mt)) 0
  let cap := if v.d.cap.rows = 0 then 0 else h * min (v.d.cap.colHi - v.d.cap.colLo) nt * (32 + 8 * v.d.cap.k)
  let s := mt / 48 * (nt / 48)
  factor (v.op 0) mt + factor (v.op 1) nt + c + epi + tile v.dHeld + cap + 18432 * (s - 14)

/-! ### The tiling (R193, R194, R197, R497) -/

/-- The dimension that D's blocks run along in an MX destination: its role, 1 row or 2 column; 0 otherwise. -/
def View.blockAxis (v : View) : Nat :=
  if v.dHeld.fmt.isMx ∧ v.d.kind = 1 then (v.roles[v.dHeld.t.ndim - 1]?).getD 2 else 0

def scatterMode : Option Mode → Bool
  | some .fp8 | some .bf16 | some .fp16 => true
  | _ => false

/-- The lead operand of a product with a sparse operand: A when both are sparse (R141). -/
def View.leadPos (v : View) : Option Nat :=
  if (v.op 0).t.sparse then some 0 else if (v.op 1).t.sparse then some 1 else none

/-- Every condition of R148 except the slot limit holds for the whole operation; `kinds` are the kinds of all lead
tiles. -/
def View.scatterAll (v : View) (kinds : List Nat) : Bool :=
  match v.leadPos with
  | none => false
  | some p => scatterMode v.mode && (kinds.all fun x => x == 4 || x == 5) &&
      decide ((if p = 0 then v.gn else v.gm) ≤ 16)

def View.smax (v : View) (scatter : Bool) : Nat :=
  if v.d.wgb then 7
  else if scatter then 14
  else if v.blockAxis ≠ 0 ∧ v.d.splitK ≠ 1 then 16
  else 32

/-- Largest Kr of R194 for a shape. -/
def View.fitK (v : View) (cr : List (Nat × Nat)) (mt nt : Nat) : Option Nat :=
  let limit := 786432
  if v.d.tileK ≠ 0 then (if v.spadBytes cr mt nt v.d.tileK ≤ limit then some v.d.tileK else none)
  else
    let full := roundUp v.g v.gk
    if v.spadBytes cr mt nt full ≤ limit then some full
    else ((List.range 12).reverse.map fun j => v.g * 2 ^ j).find? fun kr =>
      decide (kr ≤ 2048) && decide (v.spadBytes cr mt nt kr ≤ limit)

/-- Shapes in the order of R194: area descending, then a + b ascending, then b descending. -/
def shapeBefore (p q : Nat × Nat) : Bool :=
  if p.1 * p.2 ≠ q.1 * q.2 then decide (p.1 * p.2 > q.1 * q.2)
  else if p.1 + p.2 ≠ q.1 + q.2 then decide (p.1 + p.2 < q.1 + q.2)
  else decide (p.2 > q.2)

def insertShape (p : Nat × Nat) : List (Nat × Nat) → List (Nat × Nat)
  | [] => [p]
  | q :: r => if shapeBefore p q then p :: q :: r else q :: insertShape p r

def View.shapes (v : View) (smax : Nat) (wgb : Option (Nat × Nat)) : List (Nat × Nat) :=
  match wgb with
  | some p => [p]
  | none =>
    let as := if v.d.tileM ≠ 0 then [v.d.tileM / 48] else (List.range (min smax (ceilDiv v.gm 48))).map (· + 1)
    let bs := if v.d.tileN ≠ 0 then [v.d.tileN / 48] else (List.range (min smax (ceilDiv v.gn 48))).map (· + 1)
    ((as.flatMap fun a => bs.map fun b => (a, b)).filter fun p => decide (p.1 * p.2 ≤ smax)).foldl
      (fun l p => insertShape p l) []

def View.shapeOk (v : View) (cr : List (Nat × Nat)) (p : Nat × Nat) : Bool :=
  let mt := 48 * p.1
  let nt := 48 * p.2
  let ext := if v.blockAxis = 1 then mt else nt
  let lim := if v.blockAxis = 1 then v.gm else v.gn
  !(decide (v.blockAxis ≠ 0) && decide (ext % 96 ≠ 0) && decide (ext < lim)) &&
  (cr.isEmpty || (List.range (ceilDiv v.gm mt)).all fun i => decide (capturedIn cr (mt * i) mt ≤ 64))

/-- The largest power of two at most `x`. -/
def pow2Floor (x : Nat) : Nat := if x = 0 then 1 else 2 ^ Nat.log2 x

/-- F of R197. -/
def View.splitF (v : View) (scatter : Bool) (mt nt kr : Nat) : Nat :=
  if v.d.splitK ≠ 0 then v.d.splitK
  else
    let i := ceilDiv v.gm mt * ceilDiv v.gn nt * v.gb
    if i ≥ 400 ∨ v.gk < 4 * kr ∨ v.d.wgb ∨ scatter ∨ v.mode = some .int8 then 1
    else pow2Floor (min 16 (min (v.gk / (2 * kr)) (ceilDiv 800 i)))

/-- H of R199. -/
def halves (s : Nat) : Nat := ceilDiv s 16

/-- Items that a tiling gives, over the given batch entries and extents (R199, R200). -/
def itemCount (b m n mt nt f s : Nat) : Nat :=
  let blocks := ceilDiv m mt * ceilDiv n nt * b
  blocks * f + blocks * (f - 1) * halves s

/-- The limit of check 5 on the work items of an operation; it counts those of the global shape, so that every device
answers alike (R6, R196). -/
def maxItems : Nat := 2 ^ 32 - 2

/-- The items of MAP, PRUNE and REGROW over the global shape (R193). -/
def View.cutItems (v : View) : Nat := v.gb * ceilDiv v.gm 192 * ceilDiv v.gn 384

/-- Check 15 of R196 on the tiling values that the descriptor gives. -/
def View.givenOk (v : View) : Bool :=
  let ba := v.blockAxis
  let given := if ba = 1 then v.d.tileM else v.d.tileN
  let lim := if ba = 1 then v.gm else v.gn
  v.d.tileM % 48 == 0 && v.d.tileN % 48 == 0 && v.d.tileK % v.g == 0 &&
  !(decide (ba ≠ 0 ∧ given ≠ 0 ∧ given % 96 ≠ 0 ∧ given < lim)) &&
  !(decide (v.d.productLike ∧ v.d.tileK ≠ 0 ∧ v.d.splitK > ceilDiv v.gk v.d.tileK))

/-- The tiling of an operation all of whose items are numbered over the extents that the device holds. -/
def View.tilingFor (v : View) (mt nt kr f s : Nat) : Tiling :=
  { mt := mt, nt := nt, kr := kr, granule := if v.d.productLike then v.g else 0, f := f, slots := s,
    blocks := ceilDiv v.m mt * ceilDiv v.n nt * v.batches, batches := v.batches,
    items := itemCount v.batches v.m v.n mt nt f s }

/-- Checks 15 to 17 of R196 with the choice of the tiling: the status of the first check that fails, or the tiling.
`wgb` gives a and b of an open gradient set. The second limit on items is check 5's where the tiling is known only here. -/
def View.chooseTiling (v : View) (cr : List (Nat × Nat)) (scatter : Bool) (wgb : Option (Nat × Nat)) : Except Nat Tiling :=
  if v.empty then
    .ok { mt := 0, nt := 0, kr := 0, granule := v.g, f := 0, slots := 0, blocks := 0, batches := 0, items := 0 }
  else if v.d.kind = 6 then .ok (v.tilingFor 192 384 0 1 32)
  else if !v.givenOk then .error St.paramRange
  else if !v.d.productLike then .ok (v.tilingFor 192 384 0 1 32)
  else
    let ss := v.shapes (v.smax scatter) wgb
    if ss.isEmpty then .error St.resSlotFit
    else if v.d.tileM ≠ 0 ∧ ss.all (fun p =>
        !((List.range (ceilDiv v.gm (48 * p.1))).all fun i => decide (capturedIn cr (48 * p.1 * i) (48 * p.1) ≤ 64))) then
      .error St.paramCapture
    else
      let found := (ss.filter (v.shapeOk cr)).findSome? fun p => (v.fitK cr (48 * p.1) (48 * p.2)).map fun kr => (p, kr)
      match found with
      | none => .error St.resSpadFit
      | some (p, kr) =>
        let f := v.splitF scatter (48 * p.1) (48 * p.2) kr
        if f > ceilDiv v.gk kr then .error St.paramRange
        else if itemCount v.gb v.gm v.gn (48 * p.1) (48 * p.2) f (p.1 * p.2) > maxItems then .error St.paramShape
        else .ok (v.tilingFor (48 * p.1) (48 * p.2) kr f (p.1 * p.2))

/-- The destination that is stored element by element: D, or the scores of an ASSAY (R162). -/
def View.storePos (v : View) : Nat := if v.d.kind = 2 then 3 else v.d.dPos
def View.storeHeld (v : View) : Held := v.op v.storePos

/-- That destination takes the ordered store: it aliases, so its elements are written in ascending global linear index
(R185, R257). -/
def View.ordered (v : View) : Bool :=
  (v.d.kind == 1 || v.d.kind == 5 || (v.d.kind == 2 && decide (3 < v.d.operands.length))) && !v.storeHeld.t.sparse &&
  ((v.d.kind != 2 && v.d.mode == 1) || v.storeHeld.t.allowAlias) && !nonOverlap v.storeHeld.t.strides v.storeHeld.shape

/-- The scratch an operation needs (R198, R257). -/
def View.scratchNeed (v : View) (t : Tiling) (cr : List (Nat × Nat)) : Nat :=
  let pairs := if t.f > 1 then v.gb * t.f * ceilDiv v.gm 48 * ceilDiv v.gn 48 * 18432 else 0
  let cols := v.d.cap.colHi - v.d.cap.colLo
  let lists := if t.f > 1 ∧ v.d.cap.rows ≠ 0 then cr.length * cols * (16 + 8 * v.d.cap.k) * t.f * v.gb else 0
  let images := if v.ordered then v.gb * ceilDiv v.gm t.mt * ceilDiv v.gn t.nt * v.storeHeld.denseBytes (t.mt * t.nt) else 0
  pairs + lists + images

/-! #### The layout of an operation's scratch (R198, R257)

The spec leaves the layout to the device (DESIGN CHOICE, log 57): the pairs by batch entry, array tile and part, then the
capture lists by batch entry, part, captured row and column, then one image for each output block. -/

/-- The pairs of an array tile: 48 × 48 of 8 bytes. -/
def pairBytes : Nat := 18432

/-- Where the pairs of array tile `p` and part `f` lie. -/
def View.pairOff (v : View) (t : Tiling) (b : Nat) (p : Nat × Nat) (f : Nat) : Nat :=
  pairBytes * (((b * ceilDiv v.m 48 + p.1) * ceilDiv v.n 48 + p.2) * t.f + f)

def View.pairSpan (v : View) (t : Tiling) : Nat :=
  if t.f > 1 then pairBytes * (v.batches * ceilDiv v.m 48 * ceilDiv v.n 48 * t.f) else 0

/-- One capture list: row, column, terms, entries, and the entries themselves. -/
def View.listBytes (v : View) : Nat := 16 + 8 * v.d.cap.k
def View.capWidth (v : View) : Nat := v.d.cap.colHi - v.d.cap.colLo

/-- Where the list of the captured row of place `q` of `n` and of captured column `c` lies. -/
def View.listOff (v : View) (t : Tiling) (n b q c f : Nat) : Nat :=
  v.pairSpan t + v.listBytes * (((b * t.f + f) * n + q) * v.capWidth + c)

def View.listSpan (v : View) (t : Tiling) (n : Nat) : Nat :=
  if t.f > 1 ∧ v.d.cap.rows ≠ 0 then v.listBytes * (v.batches * t.f * n * v.capWidth) else 0

def View.imageBytes (v : View) (t : Tiling) : Nat := v.storeHeld.denseBytes (t.mt * t.nt)

/-- D's innermost dimension runs along the rows of the output, so the image of a block is laid out by columns. -/
def View.imageByCols (v : View) : Bool := (v.roles[v.storeHeld.t.ndim - 1]?).getD 2 == 1

/-- The bit of the scratch at which element (i, j) of the image of a block of rank `o` begins. -/
def View.imageBit (v : View) (t : Tiling) (n o i j : Nat) : Nat :=
  8 * (v.pairSpan t + v.listSpan t n + v.imageBytes t * o) +
    (if v.imageByCols then j * t.mt + i else i * t.nt + j) * v.storeHeld.fmt.bits

/-- All that the operation uses of the scratch on this device. -/
def View.scratchSpan (v : View) (t : Tiling) (n : Nat) : Nat :=
  v.pairSpan t + v.listSpan t n + (if v.ordered then v.imageBytes t * t.blocks else 0)

/-! ### Numbering (R193, R199, R200) -/

/-- The order of (m, n, k) that a loop code gives, as a nest of the given ranges. -/
def nest (code : Nat) (ms ns ks : List Nat) : List (Nat × Nat × Nat) :=
  match code with
  | 0 => ms.flatMap fun m => ns.flatMap fun n => ks.map fun k => (m, n, k)
  | 1 => ms.flatMap fun m => ks.flatMap fun k => ns.map fun n => (m, n, k)
  | 2 => ns.flatMap fun n => ms.flatMap fun m => ks.map fun k => (m, n, k)
  | 3 => ns.flatMap fun n => ks.flatMap fun k => ms.map fun m => (m, n, k)
  | 4 => ks.flatMap fun k => ms.flatMap fun m => ns.map fun n => (m, n, k)
  | _ => ks.flatMap fun k => ns.flatMap fun n => ms.map fun m => (m, n, k)

/-- The numbers lo .. min(lo + n, top) - 1. -/
def span (lo n top : Nat) : List Nat := (List.range n).filterMap fun i => if lo + i < top then some (lo + i) else none

def loopAt (d : OpDesc) (i : Nat) : Nat := (d.loop[i]?).getD 0

/-- The partial or output items of one batch entry in order: row block, column block, part. -/
def View.entryOrder (v : View) (t : Tiling) (f : Nat) : List (Nat × Nat × Nat) :=
  let tm := ceilDiv v.m t.mt
  let tn := ceilDiv v.n t.nt
  let bm := ceilDiv tm 4
  let bn := ceilDiv tn 4
  (nest (loopAt v.d 0) (List.range (ceilDiv bm 4)) (List.range (ceilDiv bn 4)) [0]).flatMap fun p =>
    (nest (loopAt v.d 1) (span (4 * p.1) 4 bm) (span (4 * p.2.1) 4 bn) [0]).flatMap fun b =>
      nest (loopAt v.d 2) (span (4 * b.1) 4 tm) (span (4 * b.2.1) 4 tn) (List.range f)

inductive ItemKind where
  | out | part | comb | map | row | fold
deriving DecidableEq, Repr

/-- One work item. `tiles` are its array tiles by row and column of 48 in its matrix, in order; `deps` the items it
waits for. -/
structure Item where
  kind : ItemKind
  batch : Nat
  im : Nat
  jn : Nat
  f : Nat
  width : Nat
  half : Nat
  rank : Nat
  root : Bool
  tiles : List (Nat × Nat)
  deps : List Nat
deriving DecidableEq, Repr

/-- The array tiles of an output block in the order of the array-tile loop; an MX destination takes its blocking axis
innermost (R193, R497). -/
def View.blockTiles (v : View) (t : Tiling) (im jn : Nat) : List (Nat × Nat) :=
  let rs := span (im * (t.mt / 48)) (t.mt / 48) (ceilDiv v.m 48)
  let cs := span (jn * (t.nt / 48)) (t.nt / 48) (ceilDiv v.n 48)
  let code := loopAt v.d 3
  let mFirst := if v.blockAxis = 0 then code == 0 || code == 1 || code == 4 else v.blockAxis == 2
  if mFirst then rs.flatMap fun r => cs.map fun c => (r, c) else cs.flatMap fun c => rs.map fun r => (r, c)

/-- The nodes of the combining tree level by level, the root last: (width, left part). -/
def treeNodes (f : Nat) : List (Nat × Nat) :=
  (List.range 4).flatMap fun l =>
    let w := 2 ^ l
    if w < f then (List.range (f / (2 * w))).map fun i => (w, 2 * w * i) else []

def rankOf (order : List (Nat × Nat × Nat)) (im jn : Nat) : Nat :=
  (order.findIdx fun p => p.1 == im && p.2.1 == jn)

/-- The item of a number (R200). -/
def View.item (v : View) (t : Tiling) (num : Nat) : Item :=
  if v.d.kind = 5 ∨ v.d.kind = 3 ∨ v.d.kind = 4 then
    let nr := max 1 (ceilDiv v.m 192)
    let nc := max 1 (ceilDiv v.n 384)
    let im := num / nc % nr
    let jn := num % nc
    { kind := .map, batch := num / nc / nr, im := im, jn := jn, f := 0, width := 0, half := 0, rank := num, root := true,
      tiles := (span (4 * im) 4 (ceilDiv v.m 48)).flatMap fun r => (span (8 * jn) 8 (ceilDiv v.n 48)).map fun c => (r, c),
      deps := [] }
  else
    let per := max 1 (ceilDiv v.m t.mt * ceilDiv v.n t.nt)
    let I := per * t.batches
    let order1 := v.entryOrder t 1
    if num < I * t.f then
      let b := num / (per * t.f)
      let p := ((v.entryOrder t t.f)[num % (per * t.f)]?).getD (0, 0, 0)
      { kind := if t.f = 1 then .out else .part, batch := b, im := p.1, jn := p.2.1, f := p.2.2, width := 0, half := 0,
        rank := b * per + rankOf order1 p.1 p.2.1, root := t.f == 1, tiles := v.blockTiles t p.1 p.2.1, deps := [] }
    else
      let H := max 1 (halves t.slots)
      let x := num - I * t.f
      let nodes := treeNodes t.f
      let o := x / H / (t.f - 1)
      let vx := x / H % (t.f - 1)
      let h := x % H
      let node := (nodes[vx]?).getD (1, 0)
      let p := (order1[o % per]?).getD (0, 0, 0)
      let b := o / per
      let orderF := v.entryOrder t t.f
      let leaf (f : Nat) : Nat := b * per * t.f + orderF.findIdx (· == (p.1, p.2.1, f))
      let inner (w f : Nat) : List Nat := (List.range H).map fun q =>
        I * t.f + (o * (t.f - 1) + nodes.findIdx (· == (w, f))) * H + q
      let deps := if node.1 = 1 then [leaf node.2, leaf (node.2 + 1)]
        else inner (node.1 / 2) node.2 ++ inner (node.1 / 2) (node.2 + node.1)
      { kind := .comb, batch := b, im := p.1, jn := p.2.1, f := node.2, width := node.1, half := h, rank := o,
        root := vx + 1 == nodes.length, tiles := ((v.blockTiles t p.1 p.2.1).drop (16 * h)).take 16, deps := deps }

/-- The rounds of part `f`: first contraction position and length of each (R197). The contraction that the device holds
may give fewer rounds than there are parts; a part without rounds then takes one that adds no term. -/
def View.rounds (v : View) (t : Tiling) (f : Nat) : List (Nat × Nat) :=
  if t.kr = 0 then [(0, 0)]
  else
    let nr := ceilDiv v.k t.kr
    let (lo, n) := partRange nr t.f 1 f
    if n = 0 then [(0, 0)]
    else (List.range n).map fun r => ((lo + r) * t.kr, min t.kr (v.k - (lo + r) * t.kr))

end Sys2Proof.Machine
end

