-- ==== Sys2Proof/Machine/Checks.lean ====
section
/-! DEFINITION. The issue checks of an operation (R196 checks 1 to 14, R117, R153, R159, R163, R166, R167, R170, R279,
R283, R288): each gives the status of its failure. -/

namespace Sys2Proof.Machine

/-- The status of the first check that fails: 0 when none does. -/
def firstBad : List (Bool × Nat) → Nat
  | [] => 0
  | (ok, st) :: r => if ok then firstBad r else st

/-- The first of several statuses that is not 0. -/
def orElse0 (a b : Nat) : Nat := if a = 0 then b else a

/-! ### Check 1: reserved fields (R19) -/

def OpDesc.reservedOk (d : OpDesc) : Bool :=
  let b := d.raw
  zeroAt b 3 1 && decide (d.flags < 32) && decide (d.paddocks < 2 ^ 20) && zeroAt b 29 3 && zeroAt b 36 12 &&
  zeroAt b 49 3 && zeroAt b 60 4 && zeroAt b 93 3 &&
  (d.steps.all fun e => e.res == 0) && zeroAt b (96 + 8 * min 8 d.nSteps) (8 * (8 - min 8 d.nSteps)) &&
  decide (d.sflags < 8) && zeroAt b 162 2 && zeroAt b 168 8 &&
  (match d.kind with
   | 2 => zeroAt b (176 + 13) 19 && decide (le d.kindParams 12 1 < 2)
   | 3 => zeroAt b (176 + 3) 1 && zeroAt b (176 + 8) 24
   | 4 => decide (le d.kindParams 3 1 < 2) && zeroAt b (176 + 12) 20
   | _ => zeroAt b 176 32) &&
  (d.operands.all Tensor.reservedOk)

/-! ### Check 4: formats -/

def Fmt.operand (f : Fmt) : Bool := f != .int32
/-- An FP32X tensor is a destination or input C, and MAP's X (R39, R178); it is no operand of an epilogue step. -/
def Fmt.stepOperand (f : Fmt) : Bool := f != .int32 && f != .fp32x
def sparseFmt (f : Fmt) : Bool := f != .int32 && f != .fp32x
def addFmt (f : Fmt) : Bool := f == .fp32 || f == .fp32x || f == .int32
/-- Formats that may not be rounded stochastically (R63). -/
def noSr (f : Fmt) : Bool := f == .int8 || f == .int32 || f == .fp32 || f == .fp32x

def Tensor.fmtIs (t : Tensor) (p : Fmt → Bool) : Bool :=
  match t.fmt with | some f => p f | none => false

/-- Check 4 of R196. Any FP8 or INT8 operand may have scale factors (R182); those of A and B of a product or an assay, and of X of
MAP, have an effect (R58, R189; DESIGN CHOICE, log 45: the spec gives no other operand's an effect). -/
def OpDesc.formatsOk (d : OpDesc) : Bool :=
  let T (i : Nat) : Tensor := (d.operands[i]?).getD (Tensor.parse [])
  (d.operands.all fun t => t.fmt.isSome) &&
  (d.operands.all fun t => !t.sparse || t.isMask || t.fmtIs sparseFmt) &&
  (d.operands.all fun t => t.scaleKind == 0 || t.fmtIs fun f => f.isFp8 || f == .int8) &&
  (match d.kind with
   | 1 | 2 =>
     (match (T 0).fmt, (T 1).fmt with
      | some a, some b => (pairing a b).isSome && !(a.isMx && d.aLines) && !(b.isMx && d.bLines)
      | _, _ => false) &&
     (d.kind == 1 || (match d.operands[3]? with | some s => s.fmtIs (· == .fp32) | none => true)) &&
     (match d.cPos with | some p => (T p).fmtIs Fmt.operand | none => true)
   | 5 => (T 0).fmtIs Fmt.operand
   | 3 => (T 0).format == (T 2).format && (match d.operands[4]? with | some g => g.fmtIs fun f => f == .fp32 || f == .bf16 | none => true)
   | 4 => (T 0).format == (T 2).format && (T 4).fmtIs fun f => f == .fp32 || (le d.kindParams 0 1 == 0 && f == .bf16)
   | _ => (T 0).fmtIs (· == .int32)) &&
  (d.epilogue.all fun e => match e.2 with | some p => (T p).fmtIs Fmt.stepOperand | none => true) &&
  !(d.sr && d.destinations.any fun i => !(T i).isMask && (T i).fmtIs noSr) &&
  (if d.kind = 1 ∨ d.kind = 5 then
    match d.dTensor with
    | some t => d.mode != 1 || t.sparse || t.fmtIs addFmt
    | none => false
   else true)

/-! ### Check 5: shapes (R178, R187, R188) -/

def sameShape (a b : Tensor) : Bool := a.ndim == b.ndim && a.extents == b.extents

/-- A tensor with D's element count and `AXIS_MAP` (R187, R190): its batch dimensions, its rows and its columns are D's,
and it may factor rows and columns otherwise (DEDUCED, log 46). -/
def OpDesc.fitsD (d : OpDesc) (t D : Tensor) : Bool :=
  let rt := rolesOf d t.ndim
  let rd := rolesOf d D.ndim
  let batch (rs es : List Nat) : List Nat := ((rs.zip es).filter fun p => p.1 == 0).map Prod.snd
  let nb := (rd.filter (· == 0)).length
  ((rt.drop nb).all (· != 0)) && batch rt t.extents == batch rd D.extents &&
  roleProd rt t.extents 1 == roleProd rd D.extents 1 && roleProd rt t.extents 2 == roleProd rd D.extents 2

def OpDesc.shapesOk (d : OpDesc) (paddocksHeld : Nat) : Bool :=
  let T (i : Nat) : Tensor := (d.operands[i]?).getD (Tensor.parse [])
  (d.operands.all fun t => decide (1 ≤ t.ndim ∧ t.ndim ≤ 6)) &&
  (d.operands.all fun t => !t.sparse || decide (2 ≤ t.ndim)) &&
  (match d.kind with
   | 1 | 2 =>
     let A := T 0
     let B := T 1
     let D := T 2
     let nb := A.ndim - 2
     let roles := rolesOf d D.ndim
     let om := if d.aLines then A.ndim - 1 else A.ndim - 2
     let on := if d.bLines then B.ndim - 1 else B.ndim - 2
     let ka := if d.aLines then A.ndim - 2 else A.ndim - 1
     let kb := if d.bLines then B.ndim - 2 else B.ndim - 1
     decide (2 ≤ A.ndim) && A.ndim == B.ndim && A.extent ka == B.extent kb &&
     ((List.range nb).all fun q =>
       let x := A.extent q
       let y := B.extent q
       (x == y || x == 1 || y == 1) && D.extent q == max x y) &&
     decide (d.axisMap < 4 ^ D.ndim) && decide (nb < D.ndim) &&
     ((roles.take nb).all (· == 0)) && ((roles.drop nb).all fun r => r == 1 || r == 2) &&
     roleProd roles D.extents 1 == A.extent om && roleProd roles D.extents 2 == B.extent on &&
     (!D.sparse || (D.ndim == nb + 2 && (roles.drop nb == [1, 2] || roles.drop nb == [2, 1]))) &&
     (match d.cPos with | some p => d.fitsD (T p) D | none => true) &&
     (d.kind == 1 || (match d.operands[3]? with | some s => sameShape s D | none => true))
   | 5 => sameShape (T 0) (T 1) && d.axisMap == 0
   | 3 | 4 => decide (2 ≤ (T 0).ndim) && (d.operands.all fun t => sameShape t (T 0))
   | _ => (T 0).ndim == 2 && (T 0).extents == [40 * paddocksHeld, 2] && !(T 0).sparse)

/-- The positions of sparse inputs: every operand that is read and is sparse. -/
def View.sparseInputs (v : View) : List Nat :=
  (List.range v.ops.length).filter fun i => (v.op i).t.sparse && !v.d.destinations.contains i

/-- The gradient set that a `WGB` product names fixes its block (R287). -/
def View.wgbShape (v : View) (j : Job) : Option (Nat × Nat) :=
  if v.d.wgb then (j.sets.find? fun g => g.tensorId == v.dHeld.t.id).map fun g => (g.a, g.b) else none

/-- At most 2^32 - 2 work items: tested here wherever the tiling does not wait for sparse headers (R196). -/
def View.itemsOk (v : View) (j : Job) (rows : List Nat) : Bool :=
  if v.empty || v.d.kind == 6 then true
  else if !v.d.productLike then decide (v.cutItems ≤ maxItems)
  else !v.sparseInputs.isEmpty ||
    (match v.chooseTiling (v.capturedGlobal rows) false (v.wgbShape j) with
     | .error e => e != St.paramShape
     | .ok _ => true)

/-! ### Operands that are missing (R153, R166) -/

/-- The list lacks one operand, and the descriptor names a mask or a GRAD prune's gradient: that is the operand it lacks
(DEDUCED, log 51: R153 and R166 give `PARAM_SPARSE` for it). -/
def OpDesc.lacks (d : OpDesc) : Bool :=
  d.nOps + 1 == d.operandCount &&
  (((d.kind == 1 || d.kind == 5) && d.usesMask) || (d.kind == 3 && le d.kindParams 0 1 == 1))

/-- The descriptor with a stand-in for the missing operand, on which checks 4 to 6 are made; check 7 then refuses it. -/
def OpDesc.completed (d : OpDesc) : OpDesc :=
  if !d.lacks then d
  else
    let at_ := d.maskPos.getD d.operands.length
    let D := (d.operands[if d.kind = 3 then 0 else d.dPos]?).getD (Tensor.parse [])
    let x : Tensor := if d.kind = 3 then { D with flags := 0, format := 2, scaleKind := 0 }
                      else { D with attr := { D.attr with kind := 6 } }
    { d with operands := d.operands.take at_ ++ x :: d.operands.drop at_ }

/-! ### Check 6: sharding -/

/-- Adjacent pieces joined. -/
def Axis.merge : Axis → Axis
  | [] => []
  | (s, n) :: r =>
    match Axis.merge r with
    | [] => [(s, n)]
    | (t, k) :: q => if s + n = t then (s, n + k) :: q else (s, n) :: (t, k) :: q

/-- Every index that `b` holds, `a` holds. -/
def Axis.covers (a b : Axis) : Bool :=
  let m := a.merge
  b.all fun p => p.2 == 0 || m.any fun q => decide (q.1 ≤ p.1 ∧ p.1 + p.2 ≤ q.1 + q.2)

/-- The device holds every element of `h` that stands for an element of D's local part (R190): rows, columns and batch
entries are held or not each on its own, since a device holds a product of part sets (R318). -/
def View.holdsD (v : View) (h : Held) : Bool :=
  (List.range h.t.ndim).all (fun q => (h.axis q).merge == [(0, h.t.extent q)]) || v.empty ||
  (((List.range v.batches).all fun b => (v.localOfD? h b 0 0).all Option.isSome) &&
   ((List.range v.m).all fun i => (v.localOfD? h 0 i 0).all Option.isSome) &&
   ((List.range v.n).all fun j => (v.localOfD? h 0 0 j).all Option.isSome))

def Held.coversAll (a b : Held) : Bool := (List.range b.t.ndim).all fun q => (a.axis q).covers (b.axis q)

/-- Check 6 of R196. The granule rule is PRODUCT's. -/
def View.shardsOk (v : View) : Bool :=
  let D := v.dHeld
  let T := v.d.operands
  let out (h : Held) (c r : Nat) (g : Nat → Nat) (n : Nat) : Bool :=
    let o := if c + 1 = h.t.ndim then h.t.ndim - 2 else h.t.ndim - 1
    let _ := r
    (h.axis o).merge == [(0, h.t.extent o)] || ((List.range n).all fun i => ((h.axis o).local? (g i)).isSome)
  let vec (h : Held) (r : Nat) (g : Nat → Nat) (n : Nat) : Bool :=
    let _ := r
    h.t.ndim != 1 || (h.axis 0).merge == [(0, h.t.extent 0)] || ((List.range n).all fun i => ((h.axis 0).local? (g i)).isSome)
  (T.all fun t => ((List.range t.ndim).all fun q =>
    decide (1 ≤ t.part q ∧ t.part q ≤ 1024) && decide ((t.units[q]?).getD 0 ≤ 3))) &&
  (v.ops.all fun h => !h.fmt.isMx || h.t.isMask || (h.t.units[h.t.ndim - 1]?).getD 0 == 1 || (h.t.units[h.t.ndim - 1]?).getD 0 == 3) &&
  (if v.d.productLike then
    (v.d.kind != 1 || [(v.op 0, v.ca), (v.op 1, v.cb)].all fun p =>
      let t := p.1.t
      let n := t.part p.2
      (List.range (n - 1)).all fun q => (partRange (t.extent p.2) n (t.unitEls p.2) q).2 % v.g == 0) &&
    (v.empty || (v.op 0).axis v.ca == (v.op 1).axis v.cb) &&
    (v.empty || (out (v.op 0) v.ca 1 v.globalRow v.m && out (v.op 1) v.cb 2 v.globalCol v.n)) &&
    (v.empty || ([v.op 0, v.op 1].all fun h => (List.range v.nb).all fun q =>
      h.t.extent q == 1 || (h.axis q).covers (D.axis q))) &&
    (match v.d.cPos with | some p => v.holdsD (v.op p) | none => true)
   else (v.ops.all fun h => !sameShape h.t D.t || h.coversAll D)) &&
  (match v.d.maskPos with | some p => !sameShape (v.op p).t D.t || (v.op p).coversAll D | none => true) &&
  (v.d.epilogue.all fun e => match e.2 with
    | none => true
    | some p =>
      let h := v.op p
      match e.1.code with
      | 1 | 3 => v.empty || vec h 2 v.globalCol v.n
      | 2 | 4 => v.empty || vec h 1 v.globalRow v.m
      | _ => !v.d.fitsD h.t D.t || v.holdsD h)

/-! ### Check 7: sparse attributes, jig, capture, kind parameters -/

def Tensor.gridAligned (t : Tensor) : Bool :=
  [t.ndim - 1, t.ndim - 2].all fun q => t.part q ≤ 1 || t.unitEls q == 48 || t.unitEls q == 96

/-- R113, R117 of one sparse tensor; `dest` and `valued` say how the operation names it. The span that a PACKED layout
needs at issue is that of its headers, 32 bytes a tile (DESIGN CHOICE, log 47: the bodies are known only to the header
pass of R134, which holds each tile against `REGION_BYTES`). -/
def attrStatus (h : Held) (dest valued : Bool) : Nat :=
  let t := h.t
  let a := t.attr
  let span := if a.layout = 0 then h.tileCount * a.slotBytes else 32 * h.tileCount
  firstBad
    [ (t.gridAligned, St.paramSparse),
      (a.kind == 1 || a.kind == 2 || a.kind == 3 || a.kind == 6, St.paramSparse),
      (if a.kind = 1 then legalNM a.nm else if a.kind = 6 then a.nm == 0 || legalNM a.nm else a.nm == 0, St.paramSparse),
      (decide (a.layout ≤ 1), St.paramSparse),
      (if a.layout = 0 then a.dirDa == 0 else a.slotBytes == 0, St.paramSparse),
      (a.layout == 1 || (a.slotBytes % 32 == 0 && decide (minSlot a.kind h.fmt ≤ a.slotBytes)), St.paramSparse),
      (decide (span ≤ a.regionBytes), St.paramSparse),
      (!dest || a.layout == 0, St.paramSparse),
      (!valued || a.kind != 6, St.paramSparse) ]

/-- R153 for a product or MAP. A rule that names a mask takes one more operand than the list holds where the mask is
missing; issueStatus gives that case its status. -/
def View.jigStatus (v : View) : Nat :=
  let D := v.dHeld
  let j := v.d.jig
  if !D.t.sparse then firstBad [(zeroAt j.raw 0 16, St.paramSparse)]
  else
    let maskOk : Bool := match v.d.maskPos with
      | none => true
      | some p =>
        let M := v.op p
        M.t.isMask && sameShape M.t D.t && M.axes == D.axes &&
        !(M.t.attr.nm != 0 && D.t.attr.kind == 1 && M.t.attr.nm != D.t.attr.nm)
    let tau := val32 j.tau
    firstBad
      [ (decide (j.rule ≤ 3), St.paramSparse),
        (maskOk, St.paramSparse),
        (!(j.rule == 1 && D.t.attr.kind == 1) && !(j.rule == 3 && D.t.attr.kind != 1), St.paramSparse),
        (tau.isFinite && (!tau.neg || tau.isZero), St.paramRange),
        (!((j.rule == 0 || j.rule == 3) && j.tau != 0#32), St.paramSparse),
        (!(j.named && j.gen != 0), St.paramSparse) ]

/-- Strictly ascending. -/
def ascending : List Nat → Bool
  | a :: b :: r => decide (a < b) && ascending (b :: r)
  | _ => true

/-- R169, R170. A capture block that is not empty on another kind than PRODUCT is refused with `PARAM_CAPTURE` (DESIGN
CHOICE, log 48: R169 speaks of products alone and gives no status). So are a `ROW_COUNT` above 65536, and other fields that are not
zero beside a `ROW_COUNT` of 0 (DESIGN CHOICE, log 142: no rule gives their status). -/
def View.captureStatus (v : View) (rows : List Nat) : Nat :=
  let c := v.d.cap
  if c.rows = 0 then firstBad [(zeroAt c.raw 0 32, St.paramCapture)]
  else
    let D := v.dHeld.t
    firstBad
      [ (v.d.kind == 1, St.paramCapture),
        (decide (c.rows ≤ 65536), St.paramCapture),
        (decide (1 ≤ c.k ∧ c.k ≤ 16), St.paramCapture),
        (decide (c.colLo < c.colHi ∧ c.colHi - c.colLo ≤ 4096), St.paramCapture),
        (ascending rows && rows.all (fun r => decide (r < roleProd v.roles D.extents 1)), St.paramCapture),
        (decide (c.colHi ≤ roleProd v.roles D.extents 2), St.paramCapture) ]

/-- Every line of W lies in the shard of one leaf (R165). -/
def lineWhole (t : Tensor) (m : Mapping) : Bool :=
  let q := t.parts.foldl (· * ·) 1
  let last := max 1 (t.part (t.ndim - 1))
  q ≤ 1 || last ≤ 1 || ((List.range (q / last)).all fun r =>
    (r * last) * m.width / q == (r * last + last - 1) * m.width / q)

/-- Parameter blocks of ASSAY, PRUNE and REGROW (R159, R165-R167). A non-zero `KEEP` or `GROW` under GROUP is refused with
`PARAM_SPARSE`, a `SCORE` above 1 or a `SCOPE` above 3 with `PARAM_RANGE` (DESIGN CHOICE, log 141: the rules name no status). A `TAU` of modes 1 and 3 has no range but FP32. A jig
rule block that is not zero is refused with `PARAM_SPARSE` (DESIGN CHOICE, log 49: R153 gives that status for a dense D
and none for these kinds, which have no jig rule). -/
def OpDesc.kindStatus (d : OpDesc) (m : Mapping) : Nat :=
  let p := d.kindParams
  let f32 (o : Nat) : FVal := val32 (BitVec.ofNat 32 (le p o 4))
  let W := (d.operands[0]?).getD (Tensor.parse [])
  let idle : Bool := zeroAt d.jig.raw 0 16
  match d.kind with
  | 2 =>
    let mode := le p 0 1
    let s := le p 1 1
    let topk := le p 3 1
    firstBad
      [ (decide (1 ≤ mode ∧ mode ≤ 3), St.paramRange),
        (s == 1 || s == 2 || s == 4 || s == 8, St.paramRange),
        (decide (le p 2 1 < s), St.paramRange),
        (if mode = 1 then topk == 0 else decide (1 ≤ topk ∧ topk ≤ 48), St.paramRange),
        (mode != 2 || le p 4 4 == 0, St.paramRange),
        (idle, St.paramSparse) ]
  | 3 =>
    let scope := le p 1 1
    firstBad
      [ (decide (le p 0 1 ≤ 1), St.paramRange), (decide (scope ≤ 3), St.paramRange),
        (if scope = 0 then legalNM (le p 2 1) else le p 2 1 == 0, St.paramSparse),
        (if scope = 0 then le p 4 4 == 0 else le p 4 4 != 0, St.paramSparse),
        (scope != 2 || lineWhole W m, St.paramSparse),
        (idle, St.paramSparse) ]
  | 4 =>
    let scope := le p 1 1
    firstBad
      [ (decide (le p 0 1 ≤ 1), St.paramRange), (decide (scope ≤ 3), St.paramRange),
        (if scope = 0 then legalNM (le p 2 1) else le p 2 1 == 0, St.paramSparse),
        (if scope = 0 then le p 4 4 == 0 else le p 4 4 != 0, St.paramSparse),
        ((f32 8).isFinite && (!(f32 8).neg || (f32 8).isZero), St.paramRange),
        (scope != 2 || lineWhole W m, St.paramSparse),
        (idle, St.paramSparse) ]
  | _ => 0

/-- Check 7 as a whole: the tensors in operand order, then the jig rule, the capture block, the kind's block, and R163;
`SKIP_UNSELECTED` on another kind than PRODUCT is refused with `PARAM_SPARSE` too (DESIGN CHOICE, log 143). A
MASK tensor named as X of MAP, or as W or W out of PRUNE and REGROW, is refused with `PARAM_SPARSE` (DESIGN CHOICE,
log 50: R117 lists A, B, C and epilogue operands, and a mask has no values for these either). -/
def View.check7 (v : View) (m : Mapping) (rows : List Nat) : Nat :=
  let d := v.d
  let valued (i : Nat) : Bool :=
    match d.kind with
    | 1 | 5 => i != d.dPos && some i != d.maskPos
    | 2 => decide (i < 2)
    | _ => i == 0 || i == 2
  let isMaskPos (i : Nat) : Bool :=
    match d.kind with
    | 2 => i == 2
    | 3 => i == 1 || i == 3
    | 4 => i == 1 || i == 3 || i == 5
    | _ => false
  let wPos (i : Nat) : Bool := (d.kind == 3 || d.kind == 4) && (i == 0 || i == 2)
  let dense (i : Nat) : Bool := (d.kind == 2 && i == 3) || (d.kind == 4 && i == 4)
  let one (p : Held × Nat) : Nat :=
    if dense p.2 && p.1.t.sparse then St.paramSparse
    else if (isMaskPos p.2 && !p.1.t.isMask) || (wPos p.2 && !p.1.t.sparse) then St.paramSparse
    else if p.1.t.sparse then attrStatus p.1 (d.destinations.contains p.2) (valued p.2) else 0
  let tensors := (v.ops.zipIdx).foldl (fun a p => orElse0 a (one p)) 0
  let jig := if d.kind = 1 ∨ d.kind = 5 then v.jigStatus else 0
  let wOut : Nat :=
    if d.kind = 3 ∨ d.kind = 4 then
      let nm := le d.kindParams 2 1
      firstBad [(!((v.op 2).t.attr.kind == 1 && nm != 0 && nm != (v.op 2).t.attr.nm), St.paramSparse)]
    else 0
  let tail := firstBad
    [ (!(d.kind != 6 && d.mode == 1 && d.destinations.any fun i => (v.op i).t.sparse), St.paramSparse),
      (!d.skipUnselected || (d.kind == 1 && v.dHeld.t.sparse && d.jig.named), St.paramSparse) ]
  orElse0 tensors (orElse0 jig (orElse0 (v.captureStatus rows) (orElse0 (d.kindStatus m) (orElse0 wOut tail))))

/-! ### Check 8: strides -/

def View.check8 (v : View) : Nat :=
  firstBad
    [ (v.ops.all fun h => h.t.sparse || h.t.stridesOk, St.paramStride),
      (v.ops.all fun h => h.t.sparse || !h.fmt.isMx ||
        (h.t.stride (h.t.ndim - 1) == 1 && ((List.range (h.t.ndim - 1)).all fun q => h.t.stride q % 32 == 0)), St.paramStride),
      (v.d.destinations.all fun i =>
        let h := v.op i
        let add := (v.d.kind == 1 || v.d.kind == 5) && v.d.mode == 1
        h.t.sparse || (!zeroStride h.t.strides h.shape && (h.t.allowAlias || add || nonOverlap h.t.strides h.shape)), St.paramStride) ]

/-! ### Checks 9 and 10: alignment and reach -/

def Held.aligned (h : Held) : Bool :=
  let t := h.t
  if t.sparse then t.base % 32 == 0 && (t.attr.layout == 0 || t.attr.dirDa % 32 == 0) && (!h.fmt.isMx || t.isMask || t.scaleDa % 32 == 0) &&
    (t.scaleKind == 0 || t.scaleDa % 4 == 0)
  else if h.fmt.isMx then t.base % 32 == 0 && t.scaleDa % 32 == 0
  else t.base % (h.fmt.bits / 8) == 0 && (t.scaleKind == 0 || t.scaleDa % 4 == 0)

/-- The local bytes of the scale plane or scale factors of an operand (R179, R182). -/
def Held.scaleBytes (h : Held) (outLen : Nat) : Nat :=
  if h.fmt.isMx && !h.t.isMask then (h.shape.take (h.t.ndim - 1)).foldl (· * ·) 1 * ceilDiv (h.len (h.t.ndim - 1)) 32
  else match h.t.scaleKind with
    | 1 => 4
    | 2 => 4 * outLen
    | _ => 0

/-- A range within the job's regions that meets no hayloft area (R196 check 10, R278). -/
def State.reachable (s : State) (jn : Nat) (j : Job) (da len : Nat) : Bool :=
  len == 0 || (j.inRegions da len && !s.meetsHay jn da len)

/-- The same of its scale plane or scale factors. -/
def Held.scaleReach (s : State) (jn : Nat) (j : Job) (h : Held) (outLen : Nat) : Bool :=
  s.reachable jn j h.t.scaleDa (h.scaleBytes outLen)

/-- Check 10 of R196 for one tensor: its lowest and highest addresses lie in the job's regions, and no byte between them
meets a hayloft area (R278). A sparse tensor lies within its region. -/
def Held.reachOk (s : State) (jn : Nat) (j : Job) (h : Held) (outLen : Nat) : Bool :=
  if h.emptyTensor then true
  else
    (if h.t.sparse then
      s.reachable jn j h.t.base (if h.t.attr.layout = 0 then h.tileCount * h.t.attr.slotBytes else h.t.attr.regionBytes) &&
      (h.t.attr.layout == 0 || s.reachable jn j h.t.attr.dirDa (4 * h.tileCount))
     else
      let (lo, hi) := h.span
      decide (0 ≤ lo) && j.inRegions lo.toNat 1 && j.inRegions hi.toNat 1 &&
      !s.meetsHay jn lo.toNat (hi.toNat + 1 - lo.toNat)) &&
    h.scaleReach s jn j outLen

/-- The operand is read from a bound hayloft entry in place of its own address (R283); scale factors at `SCALE_DA` stay
where they are. -/
def boundEntry (k : Ctx) (t : Tensor) : Option HayEntry := k.hay.find? fun e => e.state == 2 && e.tensorId == t.id

def View.check10 (v : View) (s : State) (jn : Nat) (j : Job) (k : Ctx) : Nat :=
  let ok := (v.ops.zipIdx).all fun p =>
    let bound := !v.d.destinations.contains p.2 && (boundEntry k p.1.t).isSome
    let out := if p.2 = 0 then v.m else v.n
    if bound then p.1.emptyTensor || (p.1.fmt.isMx && !p.1.t.sparse) || p.1.scaleReach s jn j out else p.1.reachOk s jn j out
  let c := v.d.cap
  let cap := c.rows = 0 ∨ (s.reachable jn j c.region (c.rows * (c.colHi - c.colLo) * (32 + 8 * c.k)) ∧
    s.reachable jn j c.rowList (4 * c.rows))
  firstBad [(ok && decide cap, St.secWindow)]

/-! ### Check 12: epilogue steps (R190) -/

def View.check12 (v : View) : Nat :=
  let D := v.dHeld.t
  let ok := v.d.epilogue.all fun e =>
    let c := e.1.code
    decide (1 ≤ c ∧ c ≤ 10) && (if c = 9 then decide (e.1.func ≤ 6) else e.1.func == 0) &&
    (c != 10 || ((val32 e.1.imm).isFinite && (!(val32 e.1.imm).neg || (val32 e.1.imm).isZero))) &&
    (match e.2 with
     | none => true
     | some p =>
       let h := v.op p
       if c ≤ 4 then
         h.t.ndim == 1 && !h.t.sparse && (h.fmt == .fp32 || h.fmt == .bf16) &&
         h.t.extent 0 == (if c = 1 ∨ c = 3 then roleProd v.roles D.extents 2 else roleProd v.roles D.extents 1)
       else v.d.fitsD h.t D && !h.t.isMask)
  firstBad [(ok && (v.d.nSteps == 0 || v.d.kind == 1 || v.d.kind == 5), St.paramEpilogue)]

/-! ### Hayloft and gradient-set checks (R279, R283, R288) -/

/-- The body bytes of a hayloft entry of D (R280). -/
def Held.hayBody (h : Held) : Nat :=
  if h.t.sparse then h.tileCount * h.t.attr.slotBytes
  else r32 (ceilDiv (h.size * h.fmt.bits) 8) + (if h.fmt.isMx then h.scaleBytes 0 else 0)

def hayBytes (body : Nat) : Nat := 256 + roundUp 256 body

def HayEntry.bytes (e : HayEntry) : Nat := hayBytes e.bodyBytes

def Ctx.hayHeld (k : Ctx) : Nat := k.hay.foldl (fun a e => a + e.bytes) 0

def View.hayStatus (v : View) (k : Ctx) : Nat :=
  if !v.d.hay then 0
  else
    let D := v.dHeld
    let b := hayBytes D.hayBody
    firstBad
      [ (v.d.kind == 1 || v.d.kind == 5, St.paramRange),
        (v.d.mode != 1 && !D.t.allowAlias, St.paramRange),
        (D.t.sparse || nonOverlap D.t.strides D.shape, St.paramStride),
        (!v.d.wgb, St.paramRange),
        (decide (b ≤ k.hlBytes) && decide (k.hayHeld + b ≤ k.hlBytes + k.spBytes) && decide (k.hay.length < 4096), St.resHayloftFull) ]

/-- The descriptor matches the bound entry (R283). -/
def Held.matchesEntry (h : Held) (e : HayEntry) : Bool :=
  h.t.format == e.format && h.t.ndim == e.ndim && h.shape == e.extents.take e.ndim &&
  (if e.sparse then h.t.sparse && h.t.attr.layout == 0 && h.t.attr.slotBytes == e.slotBytes else !h.t.sparse)

def View.boundStatus (v : View) (k : Ctx) : Nat :=
  firstBad [((v.ops.zipIdx).all fun p =>
    v.d.destinations.contains p.2 || (match boundEntry k p.1.t with | some e => p.1.matchesEntry e | none => true), St.stateHayloftTag)]

/-- The bytes whose equality R288 asks for: steps, store step and jig rule. -/
def OpDesc.settings (d : OpDesc) : List Byte := (d.raw.drop 96).take 80 ++ (d.raw.drop 48).take 16

def View.wgbStatus (v : View) (j : Job) : Nat :=
  if !v.d.wgb then 0
  else match j.sets.find? fun g => g.tensorId == v.dHeld.t.id with
    | none => St.stateWgbFrame
    | some g =>
      firstBad
        [ (v.d.kind == 1, St.paramRange),
          (decide (g.mbFirst ≤ v.d.microBatch ∧ v.d.microBatch < g.mbFirst + g.mbCount) && !g.accepted.contains v.d.microBatch,
            St.stateWgbFrame),
          (v.m == g.rows && v.n == g.cols && decide (v.batches ≤ 1) && (v.d.tileM == 0 || v.d.tileM == 48 * g.a) &&
            (v.d.tileN == 0 || v.d.tileN == 48 * g.b), St.paramShape),
          (decide (v.d.splitK ≤ 1) && v.d.cap.rows == 0 && !v.d.hay, St.paramRange),
          (g.accepted.isEmpty || g.settings == v.d.settings, St.paramEpilogue) ]

/-! ### Checks 1 to 13 -/

def kindListed (k : Nat) : Bool := decide (1 ≤ k ∧ k ≤ 6)

/-- The limit on work items of an operation whose shards this device cannot hold: the items are those of its whole tensors (R196;
DESIGN CHOICE, log 147). -/
def OpDesc.wholeItemsOk (d : OpDesc) (j : Job) (rows : List Nat) : Bool :=
  let one : Mapping := { epoch := 0, self := 0, width := 1, replicas := 1, tag := 0, devs := [{ fid := 0, leafFirst := 0, leafCount := 1 }] }
  match mkView one { d.completed with operands := d.completed.operands.map fun t => { t with parts := t.parts.map fun _ => 1 } } with
  | some v => v.itemsOk j rows
  | none => true

/-- The status of the issue checks 1 to 13 of R196, 0 when the operation is accepted. The flags of a product mean nothing on another
kind (DESIGN CHOICE, log 148: no check of R196 refuses them there). -/
def issueStatus (s : State) (jn : Nat) (j : Job) (k : Ctx) (d : OpDesc) : Nat :=
  let pre := firstBad
    [ (d.reservedOk, St.paramReserved),
      (kindListed d.kind && decide (1 ≤ d.nOps ∧ d.nOps ≤ 12) && decide (d.nSteps ≤ 8) &&
        [0, 1, 2, 4, 8, 16].contains d.splitK && decide (d.mode ≤ 1) && (d.operands.all fun t => decide (t.scaleKind ≤ 2)) &&
        ((List.range 20).all fun p => !bit d.paddocks p || j.paddocks.getLsbD p), St.paramRange),
      (d.nOps == d.operandCount || d.lacks, St.paramShape),
      (d.completed.formatsOk, St.paramFormat),
      (d.completed.shapesOk ((List.range 20).filter fun p => j.paddocks.getLsbD p).length, St.paramShape) ]
  if pre ≠ 0 then pre
  else match mkView j.mapping d.completed with
    | none => if d.wholeItemsOk j (d.cap.rowsIn s.byte) then St.paramShard else St.paramShape
    | some v =>
      let rows := d.cap.rowsIn s.byte
      orElse0 (firstBad [(v.itemsOk j rows, St.paramShape), (v.shardsOk, St.paramShard), (!d.lacks, St.paramSparse)]) <|
      orElse0 (v.check7 j.mapping rows) <|
      orElse0 v.check8 <|
      orElse0 (firstBad [(v.ops.all Held.aligned, St.paramAlign),
        (d.cap.rows == 0 || (d.cap.region % 32 == 0 && d.cap.rowList % 4 == 0), St.paramAlign)]) <|
      orElse0 (v.check10 s jn j k) <|
      orElse0 (firstBad [(d.loop.all fun c => decide (c ≤ 5), St.paramLoop)]) <|
      orElse0 v.check12 <|
      orElse0 (firstBad [(j.compat == (d.kind == 6), St.stateCompat)]) <|
      orElse0 (v.hayStatus k) <| orElse0 (v.boundStatus k) (v.wgbStatus j)

/-! ### Check 14 (R134) -/

/-- The header pass over all sparse inputs: the first offender, and the recorded headers keyed by operand and tile. -/
def headerKey (op tL : Nat) : Nat := op * 2 ^ 40 + tL

def View.headerPass (v : View) (rd : Nat → Byte) (poison : Nat → Bool) : Option Offender × List (Nat × List Byte) :=
  let all := v.sparseInputs.flatMap fun i =>
    (List.range (v.op i).tileCount).map fun t =>
      let r := tilePass (v.op i) i rd poison t
      (r.1, headerKey i t, leBytes 8 r.2.1 ++ r.2.2)
  (firstOffender (all.filterMap Prod.fst), all.map Prod.snd)

/-- The address and header recorded for a tile (R138). -/
def recorded (hs : List (Nat × List Byte)) (op tL : Nat) : Nat × List Byte :=
  match hs.find? fun e => e.1 == headerKey op tL with
  | some e => (leNat (e.2.take 8), e.2.drop 8)
  | none => (0, [])

def recordedHdr (hs : List (Nat × List Byte)) (op tL : Nat) : TileHdr := TileHdr.parse (recorded hs op tL).2

end Sys2Proof.Machine
end

