-- ==== Sys2Proof/Machine/Elementary.lean ====
section
/-! DEFINITION. The elementary functions of the vector engine (R60): the exact value of the function at its binary32
input, rounded once. Each is evaluated in fixed point with `prec` fractional bits, by the series and the argument
reduction that its docstring names, and rounded with a sticky bit (the exact value is never on the grid there).

UNVERIFIED (log 7): that `prec` bits decide the rounding of every input; the error of each evaluation is far below the
least distance to a rounding boundary that is known for binary32, and no proof of it is given here. -/

namespace Sys2Proof.Machine

/-- Fractional bits of the fixed-point evaluations. -/
def prec : Nat := 288

def fone : Int := 2 ^ prec

/-- The fixed-point number of ±m·2^e (rounded down where bits fall below the last place). -/
def fixOf (neg : Bool) (m : Nat) (e : Int) : Int :=
  let sh := e + prec
  let v : Int := if sh ≥ 0 then (m : Int) * 2 ^ sh.toNat else ((m / 2 ^ (-sh).toNat : Nat) : Int)
  if neg then -v else v

def fixMul (a b : Int) : Int := a * b / fone
def fixDiv (a b : Int) : Int := a * fone / b

/-- `n` terms of Σ z^(2i+1)/(2i+1) from i on, alternating in sign when `alt`; `pw` is z^(2i+1), `z2` is z². -/
def oddSeries (alt : Bool) (z2 : Int) : Nat → Nat → Int → Int → Int
  | 0, _, _, acc => acc
  | n + 1, i, pw, acc =>
    let t := pw / (2 * i + 1 : Nat)
    oddSeries alt z2 n (i + 1) (fixMul pw z2) (if alt && i % 2 = 1 then acc - t else acc + t)

def atanhFix (z : Int) : Int := oddSeries false (fixMul z z) 110 0 z 0
def atanFix (z : Int) : Int := oddSeries true (fixMul z z) 160 0 z 0

/-- ln 2 = 2·atanh(1/3). -/
def lnTwo : Int := 2 * atanhFix (fone / 3)
/-- π = 16·atan(1/5) − 4·atan(1/239). -/
def piFix : Int := 16 * atanFix (fone / 5) - 4 * atanFix (fone / 239)

/-- `n` terms of Σ r^i/i!. -/
def expSeries (r : Int) : Nat → Nat → Int → Int → Int
  | 0, _, _, acc => acc
  | n + 1, i, t, acc => expSeries r n (i + 1) (fixMul t r / (i + 1 : Nat)) (acc + t)

/-- exp of a fixed-point number as y·2^k, y in fixed point from 1 up to 2. -/
def expFix (x : Int) : Int × Int :=
  let k := x / lnTwo
  (expSeries (x - k * lnTwo) 80 0 fone 0, k)

/-- The exponential function (R60). -/
def fexp (x : U32) : U32 :=
  match val32 x with
  | .nan => nan32
  | .inf n => if n then 0#32 else inf32 false
  | .fin n m e =>
    if m = 0 then one32
    else
      let v := fixOf n m e
      if v > 128 * fone then inf32 false
      else if v < -(128 * fone) then 0#32
      else
        let (y, k) := expFix v
        fp32Round false y.toNat (k - prec) true

/-- The natural logarithm (R60). -/
def flog (x : U32) : U32 :=
  match val32 x with
  | .nan => nan32
  | .inf n => if n then nan32 else inf32 false
  | .fin n m e =>
    if m = 0 then inf32 true
    else if n then nan32
    else
      let k := Nat.log2 m
      let f := fixOf false m (-(k : Int))
      let v := 2 * atanhFix (fixDiv (f - fone) (f + fone)) + (e + k) * lnTwo
      if x = one32 then 0#32 else fp32Round (v < 0) v.natAbs (-(prec : Int)) true

/-- The reciprocal square root (R60). -/
def frsqrt (x : U32) : U32 :=
  match val32 x with
  | .nan => nan32
  | .inf n => if n then nan32 else 0#32
  | .fin n m e =>
    if m = 0 then inf32 n
    else if n then nan32
    else
      let sh : Nat := 160 + (if e % 2 = 0 then 0 else 1)
      let r := isqrt (2 ^ sh / m)
      fp32Round false r ((-e - sh) / 2) (r * r * m ≠ 2 ^ sh)

/-- The hyperbolic tangent (R60). -/
def ftanh (x : U32) : U32 :=
  match val32 x with
  | .nan => nan32
  | .inf n => if n then 0xBF800000#32 else one32
  | .fin n m e =>
    if m = 0 then zero32 n
    else
      let v := fixOf false m e
      if v > 16 * fone then (if n then 0xBF800000#32 else one32)
      else
        let (y, k) := expFix (2 * v)
        let ex := y * 2 ^ k.toNat
        fp32Round n (fixDiv (ex - fone) (ex + fone)).toNat (-(prec : Int)) true

/-- The logistic function 1/(1 + e^(−x)) (R60). -/
def flogistic (x : U32) : U32 :=
  match val32 x with
  | .nan => nan32
  | .inf n => if n then 0#32 else one32
  | .fin n m e =>
    if m = 0 then 0x3F000000#32
    else
      let v := fixOf n m e
      if v > 128 * fone then one32
      else if v < -(128 * fone) then 0#32
      else if v > 0 then
        let (y, k) := expFix (-v)
        let d := fone + y / 2 ^ (-k).toNat
        fp32Round false (fixDiv fone d).toNat (-(prec : Int)) true
      else
        let (y, k) := expFix v
        let d := fone + y / 2 ^ (-k).toNat
        fp32Round false (fixDiv y d).toNat (k - prec) true

/-- `n` terms of Σ (−1)^i x^(2i+1)/(i!(2i+1)); `t` is x^(2i+1)/i!. -/
def erfSeries (x2 : Int) : Nat → Nat → Int → Int → Int
  | 0, _, _, acc => acc
  | n + 1, i, t, acc =>
    let u := t / (2 * i + 1 : Nat)
    erfSeries x2 n (i + 1) (fixMul t x2 / (i + 1 : Nat)) (if i % 2 = 1 then acc - u else acc + u)

/-- The square root of π in fixed point. -/
def sqrtPi : Int := ((isqrt (piFix * fone).toNat : Nat) : Int)

/-- The error function (R60). -/
def ferf (x : U32) : U32 :=
  match val32 x with
  | .nan => nan32
  | .inf n => if n then 0xBF800000#32 else one32
  | .fin n m e =>
    if m = 0 then zero32 n
    else
      let v := fixOf false m e
      if v > 4 * fone then (if n then 0xBF800000#32 else one32)
      else
        let s := erfSeries (fixMul v v) 190 0 v 0
        fp32Round n (fixDiv (2 * s) sqrtPi).toNat (-(prec : Int)) true

end Sys2Proof.Machine
end

