-- ==== Sys2Proof/Machine/Compute.lean ====
section
/-! DEFINITION. What one work item computes from the bytes it has loaded: the terms of a k-run in every array mode
(R48-R54, R141-R150), the start of an accumulator (R55), capture (R171-R173), the epilogue (R58, R189-R191), the jig
(R151-R157), the assay (R159-R162), and prune and regrow (R164-R168). -/

namespace Sys2Proof.Machine

/-- What an item reads from: a view, its recorded headers, the bytes loaded and the policy of the job. -/
structure Feed where
  v : View
  t : Tiling
  hs : List (Nat × List Byte)
  rd : Nat → Byte
  truncate : Bool
  seed : U64
  step : Nat
  /-- captured rows of the operation (local row, place in the list) -/
  cap : List (Nat × Nat)
  /-- the operation's place in the split-k scratch -/
  scratch : Nat

/-! ### Elements of operands -/

/-- An element of an operand: its code, and for MX its scale byte. -/
structure Code where
  code : Nat
  scale : Nat
deriving DecidableEq, Repr

def Code.value (f : Fmt) (c : Code) : FVal := if f.isMx then mxValue f c.code c.scale else f.value c.code

/-- The elements of a sparse tile that contribute: in-tile index and code; N:M truncation applied (R135, R138). -/
def Feed.tile (x : Feed) (pos tL : Nat) : List Elem :=
  let h := x.v.op pos
  let (a, hb) := recorded x.hs pos tL
  let hd := TileHdr.parse hb
  let els := bodyElems h.fmt.bits hd x.rd a
  presentElems (fun e => if hd.kind = 6 then .fin false 1 0 else h.fmt.value e.code) hd els

/-- The local index of in-tile element `u` of a tile: line and position. -/
def Held.elemLocal (h : Held) (g : TileGeo) (u : Nat) : Option (Nat × Nat) :=
  match (h.axis h.lineDim).local? (g.line0 + u / 48), (h.axis h.posDim).local? (g.pos0 + u % 48) with
  | some a, some b => some (a, b)
  | _, _ => none

/-- The scale byte of a local element of an MX operand. -/
def Held.scaleOf (h : Held) (rd : Nat → Byte) (ix : List Nat) : Nat :=
  if h.fmt.isMx then (rd (h.scaleAddr ix)).toNat else 127

/-- A local element of an operand: none when a sparse encoding holds it absent. -/
def Feed.elem (x : Feed) (pos : Nat) (ix : List Nat) : Option Code :=
  let h := x.v.op pos
  if h.t.sparse then
    let n := h.t.ndim
    let li := (ix[n - 2]?).getD 0
    let pi := (ix[n - 1]?).getD 0
    let tL := h.tileOfElem (ix.take (n - 2)) li pi
    let g := h.tileGeo tL
    ((x.tile pos tL).find? fun e => h.elemLocal g e.u == some (li, pi)).map fun e =>
      { code := e.code, scale := h.scaleOf x.rd ix }
  else some { code := h.code x.rd ix, scale := h.scaleOf x.rd ix }

/-- One line of a factor: the present elements at contraction positions k0 .. k0 + len - 1 for output index `o`, in
ascending position. A sparse factor's tiles are decoded once for each tile (R141, R150). -/
def Feed.line (x : Feed) (pos b o k0 len : Nat) : List (Nat × Code) :=
  let h := x.v.op pos
  if h.t.sparse then
    let ixs := fun k => x.v.factorIndex pos b o k
    let n := h.t.ndim
    let tLs := ((List.range len).map fun q =>
      let ix := ixs (k0 + q)
      h.tileOfElem (ix.take (n - 2)) ((ix[n - 2]?).getD 0) ((ix[n - 1]?).getD 0)).dedup
    let pres := tLs.flatMap fun tL =>
      let g := h.tileGeo tL
      (x.tile pos tL).filterMap fun e => (h.elemLocal g e.u).map fun p => (p, e.code)
    (List.range len).filterMap fun q =>
      let k := k0 + q
      let ix := ixs k
      let key := ((ix[n - 2]?).getD 0, (ix[n - 1]?).getD 0)
      (pres.find? fun p => p.1 == key).map fun p => (k, { code := p.2, scale := h.scaleOf x.rd ix })
  else (List.range len).map fun q =>
    let ix := x.v.factorIndex pos b o (k0 + q)
    (k0 + q, { code := h.code x.rd ix, scale := h.scaleOf x.rd ix })

/-- The pairs of elements present in both factors, in ascending contraction position (R53). -/
def meet : List (Nat × Code) → List (Nat × Code) → List (Nat × Code × Code)
  | [], _ => []
  | (k, a) :: r, l =>
    match l.dropWhile fun p => p.1 < k with
    | [] => []
    | (k', b) :: q => if k' = k then (k, a, b) :: meet r q else meet r ((k', b) :: q)

/-! ### Terms (R49-R52) -/

/-- A finite FP32 value split into its significand's high and low halves (R51). -/
def splitHalves (v : FVal) : Option (FVal × FVal) :=
  match v with
  | .fin n m e => some (.fin n (m / 4096 * 4096) e, .fin n (m % 4096) e)
  | _ => none

/-- The terms that FP32-split adds for a k-run: three passes in ascending position (R51). -/
def splitTerms (ps : List (Nat × FVal × FVal)) : List (Nat × U32) :=
  let pass (f : FVal × FVal → FVal × FVal → FVal) (special : Bool) : List (Nat × U32) :=
    ps.filterMap fun p =>
      match splitHalves p.2.1, splitHalves p.2.2 with
      | some a, some b => some (p.1, (f a b).to32)
      | _, _ => if special then some (p.1, (p.2.1.mul p.2.2).to32) else none
  pass (fun a b => a.1.mul b.1) true ++ pass (fun a b => a.1.mul b.2) false ++ pass (fun a b => a.2.mul b.1) false

/-- Groups of pairs that share a block of 32 positions, in ascending order. -/
def blockGroups (ps : List (Nat × Code × Code)) : List (List (Nat × Code × Code)) :=
  ((ps.map fun p => p.1 / 32).dedup).map fun b => ps.filter fun p => p.1 / 32 == b

/-- The term of one MX block pair (R50). -/
def mxTerm (fa fb : Fmt) (g : List (Nat × Code × Code)) : U32 :=
  match g with
  | [] => 0#32
  | (_, a, b) :: _ =>
    if a.scale = 0xFF ∨ b.scale = 0xFF then nan32
    else
      let sum : FVal := g.foldl (fun (acc : FVal) p => acc.add ((fa.value p.2.1.code).mul (fb.value p.2.2.code))) (.fin false 0 0)
      match sum with
      | .fin n m e => if m = 0 then 0#32 else (FVal.fin n m (e + a.scale + b.scale - 254)).to32
      | v => v.to32

/-- The terms of a k-run for one output, in the order in which they are added (R49-R51). -/
def floatTerms (mode : Mode) (fa fb : Fmt) (ps : List (Nat × Code × Code)) : List U32 :=
  match mode with
  | .mx => (blockGroups ps).map (mxTerm fa fb)
  | .fp32 => (splitTerms (ps.map fun p => (p.1, fa.value p.2.1.code, fb.value p.2.2.code))).map Prod.snd
  | _ => ps.map fun p => ((fa.value p.2.1.code).mul (fb.value p.2.2.code)).to32

/-- A k-run on one pair (R54, R76); in INT8 mode on the 64-bit integer (R52). -/
def runPair (mode : Mode) (fa fb : Fmt) (ps : List (Nat × Code × Code)) (p : Pair) : Pair :=
  match mode with
  | .int8 => Pair.ofInt (ps.foldl (fun a q => a + twosComp 8 q.2.1.code * twosComp 8 q.2.2.code) p.int)
  | m => (floatTerms m fa fb ps).foldl addTerm p

/-- The captured value of a pair (R171). -/
def captureValue (mode : Mode) (fa fb : Fmt) (a b : Code) : U32 :=
  match mode with
  | .mx =>
    if a.scale = 0xFF ∨ b.scale = 0xFF then nan32
    else match (fa.value a.code).mul (fb.value b.code) with
      | .fin n m e => (FVal.fin n m (e + a.scale + b.scale - 254)).to32
      | v => v.to32
  | .fp32 =>
    let x := fa.value a.code
    let y := fb.value b.code
    match splitHalves x, splitHalves y with
    | some p, some q => (((p.1.mul q.1).add (p.1.mul q.2)).add (p.2.mul q.1)).to32
    | _, _ => (x.mul y).to32
  | _ => ((fa.value a.code).mul (fb.value b.code)).to32

/-! ### Products -/

def Feed.mode (x : Feed) : Mode := x.v.mode.getD .fp8

/-- The rows and columns of array tile (r, c) that lie in the matrix. -/
def View.tileDims (v : View) (p : Nat × Nat) : Nat × Nat := (min 48 (v.m - 48 * p.1), min 48 (v.n - 48 * p.2))

/-- The pair that an output starts from in part 0 (R55). -/
def Feed.start (x : Feed) (b i j : Nat) : Pair :=
  match x.v.d.cPos with
  | none => .zero
  | some p =>
    let h := x.v.op p
    match x.elem p (x.v.localOfD h b i j) with
    | none => .zero
    | some c =>
      if x.mode = .int8 then Pair.ofInt (startIntOf h.fmt c) else startPairOf h.fmt c
where
  startIntOf (f : Fmt) (c : Code) : Int := (Code.value f c).toIntClamp (-(2 ^ 63)) (2 ^ 63 - 1)
  startPairOf (f : Fmt) (c : Code) : Pair := if f = .fp32x then Pair.ofCode c.code else ⟨(Code.value f c).to32, 0#32⟩

/-- All pairs of array tile `p` after a k-run over positions k0 .. k0 + len - 1, from the pairs `old`. -/
def Feed.kRun (x : Feed) (b : Nat) (p : Nat × Nat) (k0 len : Nat) (old : Nat → Nat → Pair) : List (Nat × Nat × Pair) :=
  let (mr, nc) := x.v.tileDims p
  let fa := (x.v.op 0).fmt
  let fb := (x.v.op 1).fmt
  let cols := (List.range nc).map fun j => x.line 1 b (48 * p.2 + j) k0 len
  (List.range mr).flatMap fun i =>
    let row := x.line 0 b (48 * p.1 + i) k0 len
    (cols.zipIdx).map fun c => (i, c.2, runPair x.mode fa fb (meet row c.1) (old i c.2))

/-! #### Capture -/

def capIndex (x : Feed) (k : Nat) : Nat := ((x.v.op 0).axis x.v.ca).global k

/-- Merges terms into a top-K list, in the order of R173. -/
def capInsert (k : Nat) (l : List (Nat × U32)) (x : Nat × U32) : List (Nat × U32) :=
  ((rankInsert (x.1, val32 x.2) (l.map fun p => (p.1, val32 p.2))).take k).filterMap fun p =>
    if p.1 = x.1 then some x else (l.find? fun q => q.1 == p.1)

def capMerge (k : Nat) (a b : List (Nat × U32)) : List (Nat × U32) := b.foldl (capInsert k) a

/-- Local columns of array tile `p` that are captured. -/
def Feed.capCols (x : Feed) (p : Nat × Nat) : List Nat :=
  let (_, nc) := x.v.tileDims p
  if x.v.d.cap.rows = 0 then []
  else (List.range nc).filter fun j =>
    let g := x.v.globalCol (48 * p.2 + j)
    decide (x.v.d.cap.colLo ≤ g ∧ g < x.v.d.cap.colHi)

def Feed.capRows (x : Feed) (p : Nat × Nat) : List Nat :=
  let (mr, _) := x.v.tileDims p
  (List.range mr).filter fun i => x.cap.any fun q => q.1 == 48 * p.1 + i

/-- The capture lists of an array tile after a k-run (R171). -/
def Feed.capRun (x : Feed) (b : Nat) (p : Nat × Nat) (k0 len : Nat) (old : List Captured) : List Captured :=
  let fa := (x.v.op 0).fmt
  let fb := (x.v.op 1).fmt
  (x.capRows p).flatMap fun i => (x.capCols p).map fun j =>
    let r := 48 * p.1 + i
    let c := 48 * p.2 + j
    let before := (old.find? fun q => q.row == r && q.col == c).getD { row := r, col := c, terms := 0, top := [] }
    let ps := meet (x.line 0 b r k0 len) (x.line 1 b c k0 len)
    { before with
      terms := before.terms + ps.length
      top := ps.foldl (fun l q => capInsert x.v.d.cap.k l (capIndex x q.1, captureValue x.mode fa fb q.2.1 q.2.2)) before.top }

/-- The record of a captured output (R172): its address and bytes. The address has no batch term, so in a product with batch
dimensions the records of all batch entries fall on the same place (DESIGN CHOICE, log 53). -/
def Feed.capRecord (x : Feed) (p : Pair) (c : Captured) : Nat × List Byte :=
  let cp := x.v.d.cap
  let q := ((x.cap.find? fun z => z.1 == c.row).map Prod.snd).getD 0
  let gc := x.v.globalCol c.col
  let size := 32 + 8 * cp.k
  let acc : U32 := if x.mode = .int8 then intTo32 p.int else readout p
  let asc := c.top.foldl (fun l e => insertAsc e l) []
  let sum := readout (asc.foldl (fun a e => addTerm a e.2) Pair.zero)
  (cp.region + (q * (cp.colHi - cp.colLo) + gc - cp.colLo) * size,
   leBytes 4 (x.v.globalRow c.row) ++ leBytes 4 gc ++ leBytes 4 c.terms ++ leBytes 1 (min cp.k c.terms) ++ leBytes 1 cp.k ++
   leBytes 2 0 ++ leBytes 4 acc.toNat ++ leBytes 4 sum.toNat ++ leBytes 4 x.v.dHeld.t.id ++ leBytes 4 0 ++
   (List.range cp.k).flatMap fun e => match c.top[e]? with
     | some y => leBytes 4 y.1 ++ leBytes 4 y.2.toNat
     | none => leBytes 4 0xFFFFFFFF ++ leBytes 4 0)
where
  insertAsc (e : Nat × U32) : List (Nat × U32) → List (Nat × U32)
    | [] => [e]
    | y :: r => if e.1 < y.1 then e :: y :: r else y :: insertAsc e r

/-! ### The epilogue (R58, R189-R191) -/

def actGelErf (x : U32) : U32 :=
  fmul (fmul x 0x3F000000#32) (fadd (ferf (fmul x 0x3F3504F3#32)) one32)

def actGeluTanh (x : U32) : U32 :=
  let a := fmul (fmul x x) x
  let t := fmul (ffma 0x3D372713#32 a x) 0x3F4C422A#32
  fmul (fmul x 0x3F000000#32) (fadd (ftanh t) one32)

def actFn (f : Nat) (x : U32) : U32 :=
  match f with
  | 0 => fmax x 0#32
  | 1 => actGelErf x
  | 2 => actGeluTanh x
  | 3 => fmul x (flogistic x)
  | 4 => ftanh x
  | 5 => flogistic x
  | _ => fexp x

/-- The FP32 value of an operand element of an epilogue; an absent element is +0. -/
def Feed.val32At (x : Feed) (pos : Nat) (ix : List Nat) : U32 :=
  match x.elem pos ix with
  | some c => (Code.value (x.v.op pos).fmt c).to32
  | none => 0#32

/-- The index of a vector operand at a global row or column. -/
def Feed.vec (x : Feed) (pos g : Nat) : U32 := x.val32At pos [(((x.v.op pos).axis 0).local? g).getD 0]

def Feed.eStep (x : Feed) (b i j : Nat) (e : EStep × Option Nat) (y : U32) : U32 :=
  let p := e.2.getD 0
  match e.1.code with
  | 1 => fadd y (x.vec p (x.v.globalCol j))
  | 2 => fadd y (x.vec p (x.v.globalRow i))
  | 3 => fmul y (x.vec p (x.v.globalCol j))
  | 4 => fmul y (x.vec p (x.v.globalRow i))
  | 5 => fadd y (x.val32At p (dLocal x p b i j))
  | 6 => fmul y (x.val32At p (dLocal x p b i j))
  | 7 => fmul y e.1.imm
  | 8 => fadd y e.1.imm
  | 9 => actFn e.1.func y
  | _ => fmin (fmax y (fneg e.1.imm)) e.1.imm
where
  /-- the local index in a tensor operand of D's element -/
  dLocal (x : Feed) (p b i j : Nat) : List Nat :=
    let h := x.v.op p
    x.v.localOfD h b i j

def Feed.steps (x : Feed) (b i j : Nat) (y : U32) : U32 := x.v.d.epilogue.foldl (fun a e => x.eStep b i j e a) y

/-- The scale factor of an operand at D's local row or column: 1.0 when there is none (R58). -/
def Feed.scaleFactor (x : Feed) (pos o : Nat) : U32 :=
  let h := x.v.op pos
  match h.t.scaleKind with
  | 1 => BitVec.ofNat 32 (leNat (rdList x.rd h.t.scaleDa 4))
  | 2 => BitVec.ofNat 32 (leNat (rdList x.rd (h.t.scaleDa + 4 * x.v.outIndex pos o) 4))
  | _ => one32

/-- The operands that scale the result have scale factors: A or B, or X of MAP. -/
def Feed.scaled? (x : Feed) : Bool := (x.v.op 0).t.scaleKind != 0 || (x.v.d.productLike && (x.v.op 1).t.scaleKind != 0)

/-- What the store step receives for one element: an FP32 value, a pair that an FP32X destination takes unchanged, or
an INT8-mode sum that no scale factor and no step has touched (R56, R58). -/
inductive Result where
  | value (x : U32)
  | pair (p : Pair)
  | sum (n : Int)
deriving DecidableEq, Repr

/-- Readout, scale factors and steps on a finished pair (R189). -/
def Feed.finishPair (x : Feed) (b i j : Nat) (p : Pair) : Result :=
  let plain := !x.scaled? && x.v.d.steps.isEmpty
  if plain && x.mode == .int8 then .sum p.int
  else if plain && x.v.dHeld.fmt == .fp32x then .pair p
  else
    let r := if x.mode = .int8 then intTo32 p.int else readout p
    let r := if x.scaled? then fmul r (fmul (x.scaleFactor 0 i) (x.scaleFactor 1 j)) else r
    .value (x.steps b i j r)

/-- MAP: the element of X through its scale factor and the steps (R178, R189). A factor per index of the output axis is
taken at D's row, as for A (DESIGN CHOICE, log 45). -/
def Feed.mapValue (x : Feed) (b i j : Nat) : Result :=
  let h := x.v.op 0
  let r := x.val32At 0 (x.v.localOfD h b i j)
  let r := if x.scaled? then fmul r (fmul (x.scaleFactor 0 i) one32) else r
  .value (x.steps b i j r)

/-- The FP32 value that rules and blocks see. -/
def Result.to32 : Result → U32
  | .value x => x
  | .pair p => readout p
  | .sum n => intTo32 n

/-- The draw of an element of D (R67), when the store step selects stochastic rounding. -/
def Feed.drawOf (x : Feed) (ix : List Nat) : Option Nat :=
  if x.v.d.sr then
    some (draw x.seed (BitVec.ofNat 32 x.v.dHeld.t.id) (BitVec.ofNat 32 x.step) (x.v.dHeld.globalLinear ix))
  else none

/-- The code stored for one element of a destination that is not MX (R61-R66, R192). -/
def Feed.storeCode (x : Feed) (f : Fmt) (ix : List Nat) (r : Result) : Nat :=
  match r with
  | .pair p => if f = .fp32x then p.code else f.convert x.v.d.satOn (x.drawOf ix) (readout p)
  | .sum n =>
    match f with
    | .int8 | .int32 | .fp32x => f.ofSum n
    | _ => f.convert x.v.d.satOn (x.drawOf ix) (intTo32 n)
  | .value v => f.convert x.v.d.satOn (x.drawOf ix) v

/-! ### Destination tiles -/

/-- The tile of a sparse D that array tile `p` of batch entry `b` covers: its local number. -/
def Feed.destTile (x : Feed) (b : Nat) (p : Nat × Nat) : Nat :=
  let ix := x.v.dIndex b (48 * p.1) (48 * p.2)
  let n := x.v.dHeld.t.ndim
  x.v.dHeld.tileOfElem (ix.take (n - 2)) ((ix[n - 2]?).getD 0) ((ix[n - 1]?).getD 0)

/-- The row and column within the array tile of in-tile element `u` of a sparse D: D's lines may be rows or columns. -/
def View.linesAreRows (v : View) : Bool := (v.roles[v.dHeld.t.ndim - 2]?).getD 1 == 1
def View.tileRC (v : View) (u : Nat) : Nat × Nat := if v.linesAreRows then (u / 48, u % 48) else (u % 48, u / 48)

/-- The kept positions of the mask tile of a destination tile, and its generation. -/
def Feed.maskTile (x : Feed) (pos tL : Nat) : (Nat → Bool) × Nat :=
  let hd := recordedHdr x.hs pos tL
  let a := (recorded x.hs pos tL).1
  let bits := bitmapBits x.rd (a + 32)
  (fun u => bits.contains u && inExtents hd u, hd.gen)

/-- A group of a tile as the truncated groups are counted: groups of different M are different groups. -/
def groupKey (m : Nat) (g : Nat × Nat) : Nat × Nat := (g.1, 64 * m + g.2)

/-- The presence set of a destination tile (R131, R154), with the over-full groups of its mask and the mask's
generation. `val` gives the FP32 value at in-tile index `u`. -/
def Feed.presence (x : Feed) (g : TileGeo) (val : Nat → U32) : List Nat × List (Nat × Nat) × Nat :=
  let D := x.v.dHeld
  let j := x.v.d.jig
  let tau := val32 j.tau
  let us := (List.range 2304).filter fun u => decide (u / 48 < g.lines ∧ u % 48 < g.positions)
  let above (u : Nat) : Bool := (val32 (val u)).isNaN || tau.lt (val32 (val u)).absolute
  let masked : List Nat × List (Nat × Nat) × Nat :=
    match x.v.d.maskPos with
    | none => (us, [], j.gen)
    | some p =>
      let (kept, gen) := x.maskTile p g.tL
      let nm := if D.t.attr.kind = 1 then D.t.attr.nm else (x.v.op p).t.attr.nm
      let (ks, ov) := maskKept nm g kept (fun u => val32 (val u))
      (ks, ov.map (groupKey (nm % 16)), gen)
  match j.rule with
  | 0 => masked
  | 1 => (us.filter above, [], j.gen)
  | 2 => (masked.1.filter above, masked.2)
  | _ =>
    let n := D.t.attr.nm / 16
    let m := max 1 (D.t.attr.nm % 16)
    let keep := (List.range 48).flatMap fun i => (List.range (48 / m)).flatMap fun k =>
      topN n ((us.filter fun u => decide (u / 48 = i ∧ u % 48 / m = k)).map fun u => (u, val32 (val u)))
    (us.filter keep.contains, [], j.gen)

/-! ### What an item writes -/

/-- Bytes for one place of memory, and the same bytes' place in the hayloft entry's body, when the store pushes. -/
structure Put where
  da : Nat
  bytes : List Byte
  hayOff : Option Nat
  /-- where the copy's bytes differ: they, and the bits of the first and the last byte that belong to others (R280) -/
  hayCodes : Option (List Byte × Nat × Nat) := none
deriving DecidableEq, Repr

/-- The place in an entry's body of a dense local element's byte (R280). -/
def Held.hayElem (h : Held) (ix : List Nat) : Nat := linear h.shape ix * h.fmt.bits / 8

/-- The puts of a dense array tile that is not MX (R151). -/
def Feed.denseTile (x : Feed) (b : Nat) (p : Nat × Nat) (val : Nat → Nat → Result) : List Put :=
  let D := x.v.dHeld
  let (mr, nc) := x.v.tileDims p
  (List.range mr).flatMap fun i => (List.range nc).map fun j =>
    let ix := x.v.dIndex b (48 * p.1 + i) (48 * p.2 + j)
    { da := D.bitAddr ix / 8, bytes := leBytes (D.fmt.bits / 8) (x.storeCode D.fmt ix (val i j)),
      hayOff := if x.v.d.hay then some (D.hayElem ix) else none }

/-- The put of one sparse destination tile that is not MX, with the over-full mask groups met. -/
def Feed.sparseTile (x : Feed) (b : Nat) (p : Nat × Nat) (val : Nat → Nat → Result) : Put × List (Nat × Nat) :=
  let D := x.v.dHeld
  let tL := x.destTile b p
  let g := D.tileGeo tL
  let rc := x.v.tileRC
  let (ps, ov, gen) := x.presence g fun u => (val (rc u).1 (rc u).2).to32
  let code (u : Nat) : Nat :=
    let q := rc u
    x.storeCode D.fmt (x.v.dIndex b (48 * p.1 + q.1) (48 * p.2 + q.2)) (val q.1 q.2)
  let bytes := encodeTile D.t D.fmt g gen ps.contains code
  ({ da := D.t.base + tL * D.t.attr.slotBytes, bytes := bytes, hayOff := if x.v.d.hay then some (tL * D.t.attr.slotBytes) else none }, ov)

/-- The ZERO tile of a skipped array tile (R163). -/
def Feed.zeroTile (x : Feed) (b : Nat) (p : Nat × Nat) : Put :=
  let D := x.v.dHeld
  let tL := x.destTile b p
  let g := D.tileGeo tL
  let gen := match x.v.d.maskPos with | some q => (recordedHdr x.hs q tL).gen | none => x.v.d.jig.gen
  { da := D.t.base + tL * D.t.attr.slotBytes, bytes := encodeTile D.t D.fmt g gen (fun _ => false) (fun _ => 0),
    hayOff := if x.v.d.hay then some (tL * D.t.attr.slotBytes) else none }

/-- Whether array tile `p` is skipped: its mask tile has no bit set and it holds no captured output (R163). -/
def Feed.skipped (x : Feed) (b : Nat) (p : Nat × Nat) : Bool :=
  x.v.d.skipUnselected &&
  (match x.v.d.maskPos with
   | some q => (recordedHdr x.hs q (x.destTile b p)).nnz == 0
   | none => false) &&
  ((x.capRows p).isEmpty || (x.capCols p).isEmpty)

/-! #### MX destinations (R41, R64, R156, R497) -/

/-- The block of local element `ix` along D's innermost dimension: the indices of its elements. -/
def Held.blockOf (h : Held) (ix : List Nat) : List (List Nat) :=
  let n := h.t.ndim
  let k := (ix[n - 1]?).getD 0 / 32
  (List.range 32).filterMap fun i =>
    if 32 * k + i < h.len (n - 1) then some (ix.take (n - 1) ++ [32 * k + i]) else none

/-- Converts one block of an MX destination; `val` gives the FP32 value held, +0 outside the presence set. -/
def Feed.mxBlockOf (x : Feed) (ixs : List (List Nat)) (val : List Nat → U32) : Nat × List Nat :=
  mxBlock x.v.dHeld.fmt (ixs.map fun ix => (val ix, x.drawOf ix))

/-- The puts of one block of a dense MX destination: the element bytes with zero padding, and the scale byte. The copy in a hayloft
entry is packed row-major without that padding (R114, R280), so that it may begin or end within a byte. -/
def Feed.mxPuts (x : Feed) (ixs : List (List Nat)) (val : List Nat → U32) : List Put :=
  let D := x.v.dHeld
  match ixs.head? with
  | none => []
  | some ix0 =>
    let (sc, cs) := x.mxBlockOf ixs val
    let n := D.fmt.bits * 4
    let bit := linear D.shape ix0 * D.fmt.bits
    let used := ixs.length * D.fmt.bits
    let len := ceilDiv (bit % 8 + used) 8
    let codes := leBytes len (leNat (packBytes D.fmt.bits (ceilDiv used 8) (cs.take ixs.length)) * 2 ^ (bit % 8))
    let plane := r32 (ceilDiv (D.size * D.fmt.bits) 8)
    [ { da := D.bitAddr ix0 / 8, bytes := packBytes D.fmt.bits n cs, hayOff := if x.v.d.hay then some (bit / 8) else none,
        hayCodes := some (codes, bit % 8, 8 * len - bit % 8 - used) },
      { da := D.scaleAddr ix0, bytes := [BitVec.ofNat 8 sc],
        hayOff := if x.v.d.hay then some (plane + (D.scaleAddr ix0 - D.t.scaleDa)) else none } ]

/-! ### The assay (R159-R162) -/

/-- The global position of a local contraction index. -/
def Feed.globalK (x : Feed) (k : Nat) : Nat := ((x.v.op 0).axis x.v.ca).global k

/-- One block of an operand as MXFP4: the codes with their scale byte; absent elements enter as +0 (R160). -/
def Feed.assayBlock (x : Feed) (pos b o : Nat) (ks : List Nat) : Nat × List Nat :=
  let h := x.v.op pos
  let els := ks.map fun k => x.elem pos (x.v.factorIndex pos b o k)
  if h.fmt = .mxE2M1 then
    ((els.find? Option.isSome).map (fun e => (e.getD ⟨0, 127⟩).scale) |>.getD 0, els.map fun e => (e.map Code.code).getD 0)
  else mxBlock .mxE2M1 (els.map fun e => ((match e with | some q => (Code.value h.fmt q).to32 | none => 0#32), none))

/-- The prediction's pair after the sampled blocks among positions k0 .. k0 + len - 1 (R160). -/
def Feed.assayRun (x : Feed) (b i j k0 len : Nat) (p : Pair) : Pair :=
  let s := max 1 (le x.v.d.kindParams 1 1)
  let ph := le x.v.d.kindParams 2 1
  let ks := (List.range len).map (k0 + ·)
  let blocks := ((ks.map fun k => x.globalK k / 32).dedup).filter fun q => q % s == ph
  blocks.foldl (fun acc q =>
    let kk := ks.filter fun k => x.globalK k / 32 == q
    let a := x.assayBlock 0 b i kk
    let w := x.assayBlock 1 b j kk
    let ps := ((kk.zip a.2).zip w.2).map fun z => (z.1.1, (⟨z.1.2, a.1⟩ : Code), (⟨z.2, w.1⟩ : Code))
    addTerm acc (mxTerm .mxE2M1 .mxE2M1 ps)) p

/-- ŷ = S·r; out of the FP32 range it saturates to the largest finite value (R62, R160). -/
def Feed.assayValue (x : Feed) (p : Pair) : U32 :=
  let s := le x.v.d.kindParams 1 1
  let r := val32 (readout p)
  match r with
  | .fin n m e =>
    let y := (FVal.fin n (m * s) e).to32
    if (val32 y).isFinite then y else BitVec.ofNat 32 (fp32.signed n fp32.maxMag)
  | _ => readout p

/-- The selection of one tile (R161): `val` gives ŷ at in-tile index `u`. No ŷ is at least a NaN τ (R60). -/
def Feed.assaySelect (x : Feed) (g : TileGeo) (val : Nat → U32) : List Nat :=
  let kp := x.v.d.kindParams
  let mode := le kp 0 1
  let topk := le kp 3 1
  let tau := val32 (BitVec.ofNat 32 (le kp 4 4))
  let us := (List.range 2304).filter fun u => decide (u / 48 < g.lines ∧ u % 48 < g.positions)
  let pass (u : Nat) : Bool := (val32 (val u)).isNaN || !(tau.isNaN || (val32 (val u)).absolute.lt tau)
  let cand := if mode = 2 then us else us.filter pass
  if mode = 1 then cand
  else
    let keep := (List.range 48).flatMap fun i => topN topk ((cand.filter fun u => decide (u / 48 = i)).map fun u => (u, val32 (val u)))
    us.filter keep.contains

/-- The MASK tile of one array tile of an assay. -/
def Feed.assayTile (x : Feed) (b : Nat) (p : Nat × Nat) (val : Nat → Nat → Pair) : Put :=
  let M := x.v.dHeld
  let tL := x.destTile b p
  let g := M.tileGeo tL
  let rc := x.v.tileRC
  let y (u : Nat) : U32 := x.assayValue (val (rc u).1 (rc u).2)
  let sel := x.assaySelect g y
  let gen := le x.v.d.kindParams 8 4
  let t0 : Tensor := { M.t with attr := { M.t.attr with nm := 0 } }
  { da := M.t.base + tL * M.t.attr.slotBytes, bytes := encodeTile t0 M.fmt g gen sel.contains (fun _ => 1), hayOff := none }

/-- The scores of one array tile of an assay that writes them: local index in the score destination, and ŷ (R162). -/
def Feed.assayScores (x : Feed) (b : Nat) (p : Nat × Nat) (val : Nat → Nat → Pair) : List (List Nat × U32) :=
  if le x.v.d.kindParams 12 1 % 2 = 1 then
    let (mr, nc) := x.v.tileDims p
    (List.range mr).flatMap fun i => (List.range nc).map fun j =>
      (x.v.localOfD (x.v.op 3) b (48 * p.1 + i) (48 * p.2 + j), x.assayValue (val i j))
  else []

/-! ### Prune and regrow (R164-R168) -/

/-- The stored codes of a tile of W by in-tile index. -/
def Feed.wCodes (x : Feed) (tL : Nat) : List (Nat × Nat) := (x.tile 0 tL).map fun e => (e.u, e.code)

/-- The score of position `u` of tile `tL` (R166, R167). A position that the mask keeps and W's tile holds absent scores
as +0 (DESIGN CHOICE, log 54). -/
def Feed.score (x : Feed) (ws : List (Nat × Nat)) (g : TileGeo) (u : Nat) : FVal :=
  let W := x.v.op 0
  let w : U32 := match ws.find? fun p => p.1 == u with
    | some p =>
      match W.elemLocal g u with
      | some q => (Code.value W.fmt ⟨p.2, W.scaleOf x.rd (g.outer ++ [q.1, q.2])⟩).to32
      | none => 0#32
    | none => 0#32
  let src : U32 := match W.elemLocal g u with
    | some q => x.val32At 4 (g.outer ++ [q.1, q.2])
    | none => 0#32
  if x.v.d.kind = 3 then
    (if le x.v.d.kindParams 0 1 = 0 then (val32 w).absolute else (val32 (fmul w src)).absolute)
  else (val32 src).absolute

/-- The value by which a kept position of W's tile is ranked (R135). -/
def Feed.wRank (x : Feed) (ws : List (Nat × Nat)) (u : Nat) : FVal :=
  match ws.find? fun p => p.1 == u with
  | some p => (x.v.op 0).fmt.value p.2
  | none => .fin false 0 0

/-- The patterns that the old mask's groups are held to: the mask's own, and `NM_OUT` where REGROW fills groups (R130,
R167). -/
def Feed.maskNms (x : Feed) : List Nat :=
  let nm := le x.v.d.kindParams 2 1
  ([(x.v.op 1).t.attr.nm] ++ (if x.v.d.kind = 4 ∧ le x.v.d.kindParams 1 1 = 0 then [nm] else [])).filter (· ≠ 0) |>.dedup

/-- Positions of a tile by whether the mask keeps them; over-full groups keep the N positions first by the stored values
of W (R135). The groups met come with it. -/
def Feed.oldKept (x : Feed) (g : TileGeo) (ws : List (Nat × Nat)) : List Nat × List (Nat × Nat) :=
  let (kept, _) := x.maskTile 1 g.tL
  x.maskNms.foldl (fun acc nm =>
    let r := maskKept nm g acc.1.contains (x.wRank ws)
    (r.1, acc.2 ++ r.2.map (groupKey (nm % 16)))) ((maskKept 0 g kept (x.wRank ws)).1, [])

/-- The least score at which REGROW grows a position (R167). A NaN score is not below it, and grows (DESIGN CHOICE, log 144). -/
def Feed.minScore (x : Feed) : FVal := val32 (BitVec.ofNat 32 (le x.v.d.kindParams 8 4))
def Feed.grows (x : Feed) (p : Nat × FVal) : Bool := x.v.d.kind == 3 || !p.2.lt x.minScore

/-- The candidates and their scores in one tile (R166, R167): (u, score). -/
def Feed.candidates (x : Feed) (tL : Nat) : List (Nat × FVal) :=
  let W := x.v.op 0
  let g := W.tileGeo tL
  let ws := x.wCodes tL
  let (old, _) := x.oldKept g ws
  let us := (List.range 2304).filter fun u => decide (u / 48 < g.lines ∧ u % 48 < g.positions)
  if x.v.d.kind = 3 then (us.filter old.contains).map fun u => (u, x.score ws g u)
  else
    let excl : Nat → Bool := if x.v.d.operands.length > 5 then (x.maskTile 5 tL).1 else fun _ => false
    (us.filter fun u => !old.contains u && !excl u).map fun u => (u, x.score ws g u)

/-- The tiles of W on the same tile row as `tL`. -/
def Held.rowTiles (h : Held) (tL : Nat) : List Nat :=
  let nc := max 1 h.tileCols.length
  (List.range nc).map fun c => tL / nc * nc + c

/-- The chosen positions of tile `tL` among its candidates: those that rank first in their scope and score enough to grow
(R165, R167), and how many scopes of the tile ran out of candidates: a scope whose remaining candidates score too low has
not (R168). -/
def Feed.chosen (x : Feed) (tL : Nat) (quota : Nat → Nat) : List Nat × Nat :=
  let W := x.v.op 0
  let kp := x.v.d.kindParams
  let scope := le kp 1 1
  let cand := x.candidates tL
  let pick (keys : List (Nat → Bool)) (q : Nat → Nat) : List Nat × Nat :=
    (keys.zipIdx).foldl (fun acc k =>
      let l := cand.filter fun p => k.1 p.1
      let n := q k.2
      (acc.1 ++ topN n (l.filter x.grows), acc.2 + (if l.length < n then 1 else 0))) ([], 0)
  let g := W.tileGeo tL
  match scope with
  | 0 =>
    let m := max 1 (le kp 2 1 % 16)
    pick ((List.range (g.lines * ceilDiv g.positions m)).map fun z => fun u =>
      decide (u / 48 = z / ceilDiv g.positions m ∧ u % 48 / m = z % ceilDiv g.positions m)) quota
  | 1 => pick ((List.range g.lines).map fun i => fun u => decide (u / 48 = i)) quota
  | 3 => pick [fun _ => true] quota
  | _ =>
    let row := W.rowTiles tL
    let all := row.flatMap fun q =>
      let gq := W.tileGeo q
      (x.candidates q).map fun p => (p.1 / 48, gq.pos0 + p.1 % 48, p.2)
    (List.range g.lines).foldl (fun acc i =>
      let l := (all.filter fun p => p.1 == i).map fun p => (p.2.1, p.2.2)
      let n := quota i
      let ks := topN n (l.filter x.grows)
      (acc.1 ++ ((cand.map Prod.fst).filter fun u => decide (u / 48 = i) && ks.contains (g.pos0 + u % 48)),
       acc.2 + (if row.head? = some tL ∧ l.length < n then 1 else 0))) ([], 0)

/-- The scale bytes of a tile of an MX W out: those of W, so that kept values stay as they are (R115, R164). -/
def Feed.evolveScales (x : Feed) (tL : Nat) : List Put :=
  let W := x.v.op 0
  let Wo := x.v.op 2
  let g := W.tileGeo tL
  if !W.fmt.isMx then []
  else (List.range g.lines).flatMap fun i =>
    (((List.range g.positions).filterMap fun q => W.elemLocal g (48 * i + q)).map fun e =>
      let ix := g.outer ++ [e.1, e.2]
      ({ da := Wo.scaleAddr ix, bytes := [BitVec.ofNat 8 (W.scaleOf x.rd ix)], hayOff := none } : Put)).dedup

/-- What PRUNE or REGROW makes of one tile: the puts of the new mask, of the re-encoded W and of its scale bytes, the
item's two counts, the over-full groups of the old mask, and those of the new mask that an NM W out meets. -/
structure Evolved where
  mask : Put
  weight : Put
  scales : List Put
  countA : Nat
  countB : Nat
  oldOver : List (Nat × Nat)
  newOver : List (Nat × Nat)

/-- The new mask and the re-encoded weight tile of PRUNE and REGROW (R164, R166-R168). The new generation is one above that
of the mask tile itself, tile by tile (DESIGN CHOICE, log 55: R164 speaks of one generation of the mask). The jig encodes
W against the new mask under R131: an NM W out has its groups held to its own pattern under R135. -/
def Feed.evolve (x : Feed) (tL : Nat) : Evolved :=
  let W := x.v.op 0
  let Wo := x.v.op 2
  let Mo := x.v.op 3
  let kp := x.v.d.kindParams
  let g := W.tileGeo tL
  let ws := x.wCodes tL
  let (old, ov) := x.oldKept g ws
  let scope := le kp 1 1
  let nm := le kp 2 1
  let gen := ((recordedHdr x.hs 1 tL).gen + 1) % 2 ^ 32
  let m := max 1 (nm % 16)
  let per := max 1 (ceilDiv g.positions m)
  let quota : Nat → Nat := fun z =>
    if x.v.d.kind = 3 then (if scope = 0 then nm / 16 else le kp 4 4)
    else if scope = 0 then nm / 16 - (old.filter fun u => decide (u / 48 = z / per ∧ u % 48 / m = z % per)).length
    else le kp 4 4
  let (sel, out) := x.chosen tL quota
  let kept := if x.v.d.kind = 3 then old.filter sel.contains else old ++ sel
  let mt : Tensor := { Mo.t with attr := { Mo.t.attr with nm := nm } }
  let mask : Put := { da := Mo.t.base + tL * Mo.t.attr.slotBytes, bytes := encodeTile mt Mo.fmt g gen kept.contains (fun _ => 1), hayOff := none }
  let grown (u : Nat) : Bool := x.v.d.kind == 4 && sel.contains u
  let code (u : Nat) : Nat := if grown u then 0 else match ws.find? fun p => p.1 == u with | some p => p.2 | none => 0
  let wnm := if Wo.t.attr.kind = 1 then Wo.t.attr.nm else 0
  let rank (u : Nat) : FVal := if grown u then .fin false 0 0 else x.wRank ws u
  let (stored, nov) := maskKept wnm g kept.contains rank
  let wput : Put := { da := Wo.t.base + tL * Wo.t.attr.slotBytes, bytes := encodeTile Wo.t Wo.fmt g gen stored.contains code, hayOff := none }
  { mask := mask, weight := wput, scales := x.evolveScales tL,
    countA := if x.v.d.kind = 3 then kept.length else sel.length,
    countB := if x.v.d.kind = 3 then old.length - kept.length else out,
    oldOver := ov, newOver := nov }

/-- The offender of an over-full group of the new mask under ABORT: the place of its lowest bit in the mask that the item
would write (DESIGN CHOICE, log 56: R136 and R137 place offenders in inputs alone). -/
def Feed.newOffenders (x : Feed) (tL : Nat) (gs : List (Nat × Nat)) : List Offender :=
  let Mo := x.v.op 3
  groupOffenders 3 (Mo.tileGeo tL).seq (max 1 ((x.v.op 2).t.attr.nm % 16)) (Mo.t.base + tL * Mo.t.attr.slotBytes + 32)
    (gs.map fun g => (g.1, g.2, []))

/-! ### Body checks of the tiles an item reads (R135, R138) -/

/-- The headers by which a tile's groups are judged. A mask without an N:M of its own that governs an NM destination has
the destination's groups (R131, R135); the mask of a REGROW that fills groups is held to `NM_OUT` too (R167). -/
def Feed.groupHdrs (x : Feed) (pos : Nat) (hd : TileHdr) : List TileHdr :=
  let D := (x.v.op x.v.d.dPos).t
  if x.v.d.maskPos = some pos ∧ hd.nm = 0 ∧ D.attr.kind = 1 then [{ hd with nm := D.attr.nm }]
  else if (x.v.d.kind = 3 ∨ x.v.d.kind = 4) ∧ pos = 1 then x.maskNms.map fun nm => { hd with nm := nm }
  else [hd]

/-- The offenders of one tile: abort class, `SPARSE_INDEX` class, and its over-full groups. -/
def Feed.tileCheck (x : Feed) (pos tL : Nat) : List Offender × List Offender × List (Nat × Nat) :=
  let h := x.v.op pos
  let (a, hb) := recorded x.hs pos tL
  let hd := TileHdr.parse hb
  let g := h.tileGeo tL
  let (ab, ix) := bodyOffenders pos g.seq hd hb x.rd a
  let els := bodyElems h.fmt.bits hd x.rd a
  let per := (x.groupHdrs pos hd).map fun h => (max 1 (h.nm % 16), overFull h els)
  if x.truncate then (ab, ix, per.flatMap fun q => q.2.map fun e => groupKey q.1 (e.1, e.2.1))
  else (ab ++ per.flatMap fun q => groupOffenders pos g.seq q.1 (a + 32) q.2, ix, [])

end Sys2Proof.Machine
end

