-- ==== Sys2Proof/Machine/VectorEngine.lean ====
section
/-! DEFINITION. The operations of the vector engine that move or reduce values (R100-R103). A working register is a list of its
elements row-major; a vector register is a list of 48. The arithmetic of the elementwise class is that of the number formats
(`fadd`, `fmul`, `ffma`, `fmin`, `fmax`, `fdiv`, `fsqrt`, and the elementary functions). -/

namespace Sys2Proof.Machine

/-- The side of a working register. -/
def veSide : Nat := 48

/-- Elementwise operations of one, two and three operands. -/
def veMap (f : U32 → U32) (a : List U32) : List U32 := a.map f
def veMap2 (f : U32 → U32 → U32) (a b : List U32) : List U32 := List.zipWith f a b

/-- Compare: 1 where the relation holds, 0 elsewhere; a comparison with a NaN holds nowhere. -/
def veLess (a b : List U32) : List Bool :=
  List.zipWith (fun x y => !(val32 x).isNaN && !(val32 y).isNaN && (val32 x).lt (val32 y)) a b

/-- Select: the first operand where the mask holds, the second elsewhere. -/
def veSelect (m : List Bool) (a b : List U32) : List U32 := List.zipWith (fun c (p : U32 × U32) => if c then p.1 else p.2) m (a.zip b)

/-- Absolute value. -/
def veAbs (a : List U32) : List U32 := a.map fun x => x &&& 0x7FFFFFFF#32

/-- A vector register against a working register of `n` columns: as a row vector element j meets column j of every row, as a
column vector element i meets row i of every column (R101). -/
def veAcross (n : Nat) (v : List U32) (len : Nat) : List U32 := (List.range len).map fun e => (v[e % max 1 n]?).getD 0#32
def veDown (n : Nat) (v : List U32) (len : Nat) : List U32 := (List.range len).map fun e => (v[e / max 1 n]?).getD 0#32

/-- Permute: any index map over 128 lanes. A map that names a lane outside 0-127 is rejected with `PARAM_RANGE` (R103). -/
def vePermute (ix : List Nat) (v : List U32) : Except Nat (List U32) :=
  if ix.all fun i => decide (i < 128) then .ok (ix.map fun i => (v[i]?).getD 0#32) else .error 0x0105

/-- Transpose of a working register (R100). -/
def veTranspose (a : List U32) : List U32 :=
  (List.range (veSide * veSide)).map fun e => (a[veSide * (e % veSide) + e / veSide]?).getD 0#32

def veRow (a : List U32) (i : Nat) : List U32 := (a.drop (veSide * i)).take veSide
def veCol (a : List U32) (j : Nat) : List U32 := (List.range veSide).map fun i => (a[veSide * i + j]?).getD 0#32

/-- Sum: `add_term` in ascending index from (+0, +0), read out under R56 (R102). -/
def veSum (l : List U32) : U32 := readout (l.foldl addTerm Pair.zero)

/-- Maximum and minimum in ascending index under R60; of an empty list the operation's identity (R102). -/
def veMax : List U32 → U32
  | [] => 0xFF800000#32
  | x :: r => r.foldl fmax x
def veMin : List U32 → U32
  | [] => 0x7F800000#32
  | x :: r => r.foldl fmin x

/-- Index of the maximum: the lowest index among equal maxima, or of a NaN if there is one (R102). -/
def veArgMax (l : List U32) : Nat :=
  match l.findIdx? fun x => (val32 x).isNaN with
  | some i => i
  | none => (l.findIdx? fun x => !((l.any fun y => (val32 x).lt (val32 y)))).getD 0

/-- A reduction of every row, or of every column, of a working register: one result a lane. -/
def veRows (f : List U32 → U32) (a : List U32) : List U32 := (List.range veSide).map fun i => f (veRow a i)
def veCols (f : List U32 → U32) (a : List U32) : List U32 := (List.range veSide).map fun j => f (veCol a j)

/-- Readout of a finished pair (R56). -/
def veReadout (l : List Pair) : List U32 := l.map readout

end Sys2Proof.Machine
end

