-- ==== Sys2Proof/Machine/RowOps.lean ====
section
/-! DEFINITION. Row operations: the descriptor of R291, its checks (R292, R294), the row functions of R293 and what a
row item and the fold item write (R294). -/

namespace Sys2Proof.Machine

structure RowDesc where
  kind : Nat
  dir : Nat
  flags : Nat
  nOps : Nat
  eps : U32
  scale : U32
  offset : Int
  raw : List Byte
  operands : List Tensor
deriving DecidableEq, Repr

def RowDesc.parse (b : List Byte) : RowDesc :=
  { kind := le b 0 1, dir := le b 1 1, flags := le b 2 1, nOps := le b 3 1, eps := BitVec.ofNat 32 (le b 4 4),
    scale := BitVec.ofNat 32 (le b 8 4), offset := (BitVec.ofNat 32 (le b 12 4)).toInt, raw := b.take 32,
    operands := (List.range (min 12 (le b 3 1))).map fun i => Tensor.parse ((b.drop (32 + 160 * i)).take 160) }

def RowDesc.sr (d : RowDesc) : Bool := bit d.flags 0
def RowDesc.accumulate (d : RowDesc) : Bool := bit d.flags 1
def RowDesc.causal (d : RowDesc) : Bool := bit d.flags 2
def RowDesc.hasBeta (d : RowDesc) : Bool := bit d.flags 3
def RowDesc.backward (d : RowDesc) : Bool := d.dir == 1

/-! The places of the operands (R292). -/

def RowDesc.outPos (d : RowDesc) : Nat := if d.backward then 2 else 1
def RowDesc.gammaPos (d : RowDesc) : Option Nat := if d.kind = 3 then none else some (if d.backward then 3 else 2)
def RowDesc.betaPos (d : RowDesc) : Option Nat := if d.kind = 1 ∧ d.hasBeta ∧ !d.backward then some 3 else none
/-- δγ, then δβ. -/
def RowDesc.paramPos (d : RowDesc) : List Nat :=
  if d.kind ≠ 3 ∧ d.backward then (if d.kind = 1 ∧ d.hasBeta then [4, 5] else [4]) else []
def RowDesc.operandCount (d : RowDesc) : Nat :=
  if d.backward then 3 + b2n (d.kind != 3) + d.paramPos.length
  else 2 + b2n (d.kind != 3) + b2n d.betaPos.isSome
def RowDesc.destinations (d : RowDesc) : List Nat := d.outPos :: d.paramPos

/-- A row operation resolved against the job's mapping: R rows of length L. -/
structure RowView where
  d : RowDesc
  ops : List Held
  r : Nat
  l : Nat
deriving DecidableEq, Repr

def RowView.op (v : RowView) (i : Nat) : Held := (v.ops[i]?).getD Held.blank

def mkRowView (m : Mapping) (d : RowDesc) : Option RowView :=
  let hs := d.operands.map fun t => t.held m
  if hs.any Option.isNone then none
  else
    let ops := hs.filterMap id
    let X := (ops[0]?).getD Held.blank
    let n := X.t.ndim
    some { d := d, ops := ops, r := (X.shape.take (n - 1)).foldl (· * ·) 1, l := X.len (n - 1) }

def RowView.empty (v : RowView) : Bool := v.r == 0 || v.l == 0

/-! ### Checks (R292, R294, R196) -/

def rowFmt (f : Fmt) : Bool := f == .fp32 || f == .bf16 || f == .fp16 || f == .e4m3 || f == .e5m2

def RowDesc.formatsOk (d : RowDesc) : Bool :=
  let T (i : Nat) : Tensor := (d.operands[i]?).getD (Tensor.parse [])
  ((List.range (d.outPos + 1)).all fun i => (T i).fmtIs rowFmt) &&
  ((d.gammaPos.toList ++ d.betaPos.toList).all fun i => (T i).fmtIs fun f => f == .fp32 || f == .bf16) &&
  (d.paramPos.all fun i => (T i).fmtIs (· == .fp32x)) &&
  (d.operands.all fun t => t.scaleKind == 0) &&
  !(d.sr && (T d.outPos).fmtIs noSr)

def RowDesc.shapesOk (d : RowDesc) : Bool :=
  let T (i : Nat) : Tensor := (d.operands[i]?).getD (Tensor.parse [])
  let L := (T 0).extent ((T 0).ndim - 1)
  (d.operands.all fun t => decide (1 ≤ t.ndim ∧ t.ndim ≤ 6)) &&
  ((List.range (d.outPos + 1)).all fun i => sameShape (T i) (T 0)) &&
  (((List.range d.nOps).drop (d.outPos + 1)).all fun i => (T i).ndim == 1 && (T i).extent 0 == L) && decide (L ≤ 65536)

/-- The bytes per row element and per column of R294. -/
def RowView.rowBytes (v : RowView) : Nat :=
  (List.range (v.d.outPos + 1)).foldl (fun a i => a + (v.op i).fmt.bits / 8) 0
def RowView.colBytes (v : RowView) : Nat :=
  (v.d.gammaPos.toList ++ v.d.betaPos.toList).foldl (fun a i => a + (v.op i).fmt.bits / 8) 0 + 8 * v.d.paramPos.length

/-- Rb of R294. -/
def RowView.rb (v : RowView) : Option Nat :=
  ((List.range 9).reverse.map (2 ^ ·)).find? fun rb => decide (rb * v.l * v.rowBytes + v.l * v.colBytes ≤ 786432)

def RowView.rowItems (v : RowView) (rb : Nat) : Nat := ceilDiv v.r rb
def RowView.items (v : RowView) (rb : Nat) : Nat := v.rowItems rb + b2n (!v.d.paramPos.isEmpty)

/-- Bound hayloft entries match the operands that name them (R283). -/
def RowView.boundOk (v : RowView) (k : Ctx) : Bool :=
  (v.ops.zipIdx).all fun p =>
    v.d.destinations.contains p.2 || (match boundEntry k p.1.t with | some e => p.1.matchesEntry e | none => true)

/-- The status of the checks of R292 and R294 in the order of R196, 0 when the command is accepted. -/
def rowStatus (s : State) (jn : Nat) (j : Job) (k : Ctx) (d : RowDesc) : Nat :=
  let scale := val32 d.scale
  let eps := val32 d.eps
  let pre := firstBad
    [ (decide (d.flags < 16) && zeroAt d.raw 16 16 && d.operands.all Tensor.reservedOk, St.paramReserved),
      (decide (1 ≤ d.kind ∧ d.kind ≤ 3) && decide (d.dir ≤ 1) && decide (1 ≤ d.nOps ∧ d.nOps ≤ 12) &&
        (if d.kind = 3 then d.eps == 0#32 else eps.isFinite && (!eps.neg || eps.isZero)) &&
        (if d.kind = 3 then scale.isFinite && !scale.isZero else d.scale == 0#32) &&
        (d.causal || decide (d.offset = 0)) && !(d.hasBeta && d.kind != 1) && !(d.causal && d.kind != 3) &&
        (d.operands.all fun t => decide (t.scaleKind ≤ 2)), St.paramRange),
      (d.nOps == d.operandCount, St.paramShape),
      (d.formatsOk, St.paramFormat),
      (d.shapesOk, St.paramShape) ]
  if pre ≠ 0 then pre
  else match mkRowView j.mapping d with
    | none => St.paramShard
    | some v =>
      let X := v.op 0
      let n := X.t.ndim
      let bound (i : Nat) : Option HayEntry := if d.destinations.contains i then none else boundEntry k (v.op i).t
      let parts := d.paramPos.length * (v.rowItems (v.rb.getD 1) * 8 * v.l)
      firstBad
        [ (v.empty || decide (v.items (v.rb.getD 1) ≤ maxItems), St.paramShape),
          ((v.ops.all fun h => (List.range h.t.ndim).all fun q =>
            decide (1 ≤ h.t.part q ∧ h.t.part q ≤ 1024) && decide ((h.t.units[q]?).getD 0 ≤ 3)) &&
            (v.ops.all fun h => h.t.part (h.t.ndim - 1) == 1) &&
            ((List.range (d.outPos + 1)).all fun i => (v.op i).axes == X.axes) && decide (0 < n), St.paramShard),
          (v.ops.all fun h => !h.t.sparse, St.paramSparse),
          ((v.ops.all fun h => h.t.stridesOk) && (d.destinations.all fun i =>
            let h := v.op i
            !zeroStride h.t.strides h.shape && (h.t.allowAlias || nonOverlap h.t.strides h.shape)), St.paramStride),
          (v.ops.all Held.aligned, St.paramAlign),
          ((List.range v.ops.length).all fun i =>
            if (bound i).isSome then (v.op i).emptyTensor || (v.op i).scaleReach s jn j 0 else (v.op i).reachOk s jn j 0, St.secWindow),
          (!j.compat, St.stateCompat),
          (v.boundOk k, St.stateHayloftTag),
          (v.empty || v.rb.isSome, St.resSpadFit),
          (v.empty || decide (parts ≤ j.scratch.len), St.resSplitkScratch) ]

/-! ### The functions of R293 -/

/-- One level of `combine_tree`: neighbours combine, the lower index on the left. -/
def pairUp : List Pair → List Pair
  | a :: b :: r => combine a b :: pairUp r
  | l => l

/-- `combine_tree` over 2^n pairs (R199). -/
def combineTree : Nat → List Pair → Pair
  | 0, l => l.head?.getD Pair.zero
  | n + 1, l => combineTree n (pairUp l)

def rsum (v : List U32) : U32 :=
  let lane (l : Nat) : Pair := ((v.zipIdx).filter fun e => e.2 % 128 == l).foldl (fun p e => addTerm p e.1) Pair.zero
  readout (combineTree 7 ((List.range 128).map lane))

/-- The mean of a row: its sum over L, an exact FP32 value. -/
def rmean (v : List U32) : U32 := fdiv (rsum v) (intTo32 v.length)

/-- `stats`: the normalised row and r. -/
def rowStats (kind : Nat) (eps : U32) (x : List U32) : List U32 × U32 :=
  let d := if kind = 1 then (let mu := rmean x; x.map fun a => fsub a mu) else x
  let v := rmean (d.map fun a => fmul a a)
  let r := frsqrt (fadd v eps)
  (d.map fun a => fmul a r, r)

/-- `softmax_row` with the row's causal limit: positions above it are masked. -/
def softmaxRow (scale : U32) (limit : Option Int) (x : List U32) : List U32 :=
  let masked (j : Nat) : Bool := match limit with | some t => decide (t < (j : Int)) | none => false
  let z := x.zipIdx.map fun e => if masked e.2 then inf32 true else fmul e.1 scale
  let m := veMax z
  if m = inf32 true then z.map fun _ => 0#32
  else
    let e := z.map fun a => fexp (fsub a m)
    let s := rsum e
    e.map fun a => fdiv a s

def zip3 {α β γ : Type} (a : List α) (b : List β) (c : List γ) : List (α × β × γ) := a.zip (b.zip c)

/-- The outputs of one row: `gamma` and `beta` are the parameter rows. -/
def rowForward (d : RowDesc) (limit : Option Int) (x gamma beta : List U32) : List U32 :=
  if d.kind = 3 then softmaxRow d.scale limit x
  else (zip3 (rowStats d.kind d.eps x).1 gamma beta).map fun e => ffma e.1 e.2.1 e.2.2

/-- δX of one row. -/
def rowBackward (d : RowDesc) (limit : Option Int) (x dy gamma : List U32) : List U32 :=
  if d.kind = 3 then
    let y := softmaxRow d.scale limit x
    let c := rsum ((dy.zip y).map fun e => fmul e.1 e.2)
    ((dy.zip y).zipIdx).map fun e =>
      match limit with
      | some t => if t < (e.2 : Int) then 0#32 else fmul (fmul e.1.2 (fsub e.1.1 c)) d.scale
      | none => fmul (fmul e.1.2 (fsub e.1.1 c)) d.scale
  else
    let (xh, r) := rowStats d.kind d.eps x
    let g := (dy.zip gamma).map fun e => fmul e.1 e.2
    let b := rmean ((g.zip xh).map fun e => fmul e.1 e.2)
    let a := if d.kind = 1 then rmean g else 0#32
    (g.zip xh).map fun e => fmul (ffma (fneg e.2) b (if d.kind = 1 then fsub e.1 a else e.1)) r

/-! ### Items (R294) -/

/-- What a row item or the fold item reads from. -/
structure RowFeed where
  v : RowView
  rb : Nat
  rd : Nat → Byte
  seed : U64
  step : Nat
  /-- the operation's place in the split-k scratch -/
  scratch : Nat

/-- Where the pair of a row item for a parameter destination's column lies in the scratch (R294). -/
def RowView.pairOff (v : RowView) (item place c : Nat) : Nat := 8 * ((item * v.d.paramPos.length + place) * v.l + c)

/-- All that the operation uses of the scratch. -/
def RowView.scratchSpan (v : RowView) (rb : Nat) : Nat := 8 * (v.rowItems rb * v.d.paramPos.length * v.l)

def RowView.rowsOf (v : RowView) (rb item : Nat) : List Nat :=
  (List.range rb).filterMap fun i => if item * rb + i < v.r then some (item * rb + i) else none

/-- The local index of column `c` of row `i` in an operand of X's shape. -/
def RowView.ix (v : RowView) (i c : Nat) : List Nat :=
  let X := v.op 0
  unlinear (X.shape.take (X.t.ndim - 1)) i ++ [c]

def RowFeed.row (x : RowFeed) (pos i : Nat) : List U32 :=
  let h := x.v.op pos
  (List.range x.v.l).map fun c => (h.value x.rd (x.v.ix i c)).to32

def RowFeed.param (x : RowFeed) (pos : Option Nat) : List U32 :=
  match pos with
  | none => (List.range x.v.l).map fun _ => 0#32
  | some p => (List.range x.v.l).map fun c => ((x.v.op p).value x.rd [c]).to32

/-- The causal limit of a row: its index in the dimension just outside the innermost one, plus the offset. -/
def RowFeed.limit (x : RowFeed) (i : Nat) : Option Int :=
  if x.v.d.causal then
    let X := x.v.op 0
    let g := X.global (x.v.ix i 0)
    some (((g[X.t.ndim - 2]?).getD 0 : Nat) + x.v.d.offset)
  else none

/-- Row index for the causal mask of a tensor of one dimension: there is one row, number 0. -/
def RowFeed.limit' (x : RowFeed) (i : Nat) : Option Int :=
  if (x.v.op 0).t.ndim = 1 then (if x.v.d.causal then some x.v.d.offset else none) else x.limit i

/-- The bytes that a row item writes to Y or δX. -/
def RowFeed.rowPuts (x : RowFeed) (item : Nat) : List Put :=
  let d := x.v.d
  let h := x.v.op d.outPos
  let gamma := x.param d.gammaPos
  let beta := x.param d.betaPos
  (x.v.rowsOf x.rb item).flatMap fun i =>
    let out := if d.backward then rowBackward d (x.limit' i) (x.row 0 i) (x.row 1 i) gamma
               else rowForward d (x.limit' i) (x.row 0 i) gamma beta
    out.zipIdx.map fun e =>
      let ix := x.v.ix i e.2
      let dr := if d.sr then some (draw x.seed (BitVec.ofNat 32 h.t.id) (BitVec.ofNat 32 x.step) (h.globalLinear ix)) else none
      { da := h.bitAddr ix / 8, bytes := leBytes (h.fmt.bits / 8) (h.fmt.convert true dr e.1), hayOff := none }

/-- The pairs of a row item for δγ, then for δβ, by column. -/
def RowFeed.rowPairs (x : RowFeed) (item : Nat) : List (List Pair) :=
  let d := x.v.d
  let rows := (x.v.rowsOf x.rb item).map fun i => (x.row 1 i, (rowStats d.kind d.eps (x.row 0 i)).1)
  d.paramPos.map fun p => (List.range x.v.l).map fun c =>
    rows.foldl (fun a q =>
      let dy := (q.1[c]?).getD 0#32
      let t := if p = 4 then fmul dy ((q.2[c]?).getD 0#32) else dy
      addTerm a t) Pair.zero

/-- What a row item stores in the scratch: its pairs for each parameter destination (R294). -/
def RowFeed.pairPuts (x : RowFeed) (item : Nat) : List Put :=
  (x.rowPairs item).zipIdx.map fun p =>
    { da := x.scratch + x.v.pairOff item p.2 0, bytes := p.1.flatMap fun q => leBytes 8 q.code, hayOff := none }

/-- What the fold item writes to δγ and δβ, from the row items' pairs in the scratch (R294). -/
def RowFeed.foldPuts (x : RowFeed) : List Put :=
  x.v.d.paramPos.zipIdx.flatMap fun p => (List.range x.v.l).map fun c =>
    let h := x.v.op p.1
    let start := if x.v.d.accumulate then Pair.ofCode (h.code x.rd [c]) else Pair.zero
    let part (i : Nat) : Pair := Pair.ofCode (leNat (rdList x.rd (x.scratch + x.v.pairOff i p.2 c) 8))
    let sum := (List.range (x.v.rowItems x.rb)).foldl (fun a i => combine a (part i)) start
    { da := h.bitAddr [c] / 8, bytes := leBytes 8 sum.code, hayOff := none }

/-- A range of bytes that an item loads: operand position and the line of the operand that it belongs to, address, length (R232). -/
abbrev Read := (Nat × Nat) × Nat × Nat

/-- The byte ranges that an item loads; the scratch, at address `base`, stands one past
the last operand (R225). The fold item is numbered last. -/
def RowView.reads (v : RowView) (rb base item : Nat) : List Read :=
  if item < v.rowItems rb then
    (((List.range (v.d.outPos + 1)).filter (· != v.d.outPos)).flatMap fun p => (v.rowsOf rb item).flatMap fun i =>
      (List.range v.l).map fun c => ((p, i), (v.op p).elemBytes (v.ix i c))) ++
    ((v.d.gammaPos.toList ++ v.d.betaPos.toList).flatMap fun p => (List.range v.l).map fun c => ((p, 0), (v.op p).elemBytes [c]))
  else
    (if v.d.accumulate then
      v.d.paramPos.flatMap fun p => (List.range v.l).map fun c => ((p, 0), (v.op p).elemBytes [c])
     else []) ++
    (List.range (v.rowItems rb)).flatMap fun i => (List.range v.d.paramPos.length).map fun q =>
      ((v.ops.length, v.d.paramPos.length * i + q), base + v.pairOff i q 0, 8 * v.l)

end Sys2Proof.Machine
end

