-- ==== Sys2Proof/Machine/Items.lean ====
section
/-! DEFINITION. What a work item reads in each round (R36, R225, R236) and the run of an operation that the sequencer
keeps: eligible items and the numbers of items (R200-R203). -/

namespace Sys2Proof.Machine

/-- The line of a dense operand that holds an element, in its element plane (`plane` 0) or its scale plane (1). -/
def Held.lineOf (h : Held) (plane : Nat) (ix : List Nat) : Nat :=
  2 * linear (h.shape.take (h.t.ndim - 1)) (ix.take (h.t.ndim - 1)) + plane

/-- The bytes of one operand that hold given local elements: their codes, or the tiles that hold them, and MX scales. -/
def Feed.tensorReads (x : Feed) (pos : Nat) (ixs : List (List Nat)) : List Read :=
  let h := x.v.op pos
  let n := h.t.ndim
  let data : List Read :=
    if h.t.sparse then
      ((ixs.map fun ix => h.tileOfElem (ix.take (n - 2)) ((ix[n - 2]?).getD 0) ((ix[n - 1]?).getD 0)).dedup).map fun tL =>
        ((pos, 2 * tL), (recorded x.hs pos tL).1, 32 + (recordedHdr x.hs pos tL).body)
    else ixs.map fun ix => ((pos, h.lineOf 0 ix), h.elemBytes ix)
  let scales : List Read := if h.fmt.isMx && !h.t.isMask then ixs.map fun ix => ((pos, h.lineOf 1 ix), h.scaleAddr ix, 1) else []
  data ++ scales

/-- The whole tile of a sparse operand. -/
def Feed.tileRead (x : Feed) (pos tL : Nat) : Read := ((pos, 2 * tL), (recorded x.hs pos tL).1, 32 + (recordedHdr x.hs pos tL).body)

/-- The outputs of an array tile, by local row and column. -/
def View.outElems (v : View) (p : Nat × Nat) : List (Nat × Nat) :=
  let (mr, nc) := v.tileDims p
  (List.range mr).flatMap fun i => (List.range nc).map fun j => (48 * p.1 + i, 48 * p.2 + j)

/-- The array tiles of an item that are computed (R163). -/
def Feed.live (x : Feed) (it : Item) : List (Nat × Nat) := it.tiles.filter fun p => !x.skipped it.batch p

/-- The sparse tiles of A and B that array tile `p` reads over positions k0 .. k0 + len - 1. -/
def Feed.factorTiles (x : Feed) (b : Nat) (p : Nat × Nat) (k0 len : Nat) : List (Nat × Nat) :=
  let (mr, nc) := x.v.tileDims p
  let one (pos o0 n : Nat) : List (Nat × Nat) :=
    let h := x.v.op pos
    if h.t.sparse then
      let d := h.t.ndim
      (((List.range n).flatMap fun i => (List.range len).map fun k =>
        let ix := x.v.factorIndex pos b (o0 + i) (k0 + k)
        h.tileOfElem (ix.take (d - 2)) ((ix[d - 2]?).getD 0) ((ix[d - 1]?).getD 0)).dedup).map fun tL => (pos, tL)
    else []
  one 0 (48 * p.1) mr ++ one 1 (48 * p.2) nc

/-- The item takes SCATTER for its lead tiles: all of its contraction are COO or ZERO, its array tiles' follow extents and
its slots are few, and the array mode has it (R148). An ASSAY's array mode is MX (R160). The slots of an edge item are those of the
full Mt × Nt tiling (DESIGN CHOICE, log 145: the spec does not say whether its own extents count). -/
def Feed.itemScatter (x : Feed) (it : Item) : Bool :=
  match x.v.leadPos with
  | none => false
  | some lp =>
    (it.kind == .out || it.kind == .part) && x.v.d.kind != 2 && scatterMode x.v.mode && decide (x.t.slots ≤ 14) &&
    (it.tiles.all fun p => decide ((if lp = 0 then (x.v.tileDims p).2 else (x.v.tileDims p).1) ≤ 16)) &&
    (it.tiles.all fun p => (x.v.rounds x.t it.f).all fun r =>
      (x.factorTiles it.batch p r.1 r.2).all fun q =>
        q.1 != lp || (let k := (recordedHdr x.hs q.1 q.2).kind; k == 4 || k == 5))

/-- What the epilogue and the jig read for the given array tiles: step operands, scale factors, mask tiles (R190, R154). -/
def Feed.epilogueReads (x : Feed) (b : Nat) (ps : List (Nat × Nat)) : List Read :=
  let es := ps.flatMap x.v.outElems
  let rows := (es.map Prod.fst).dedup
  let cols := (es.map Prod.snd).dedup
  let vec (p g : Nat) : List Nat := [(((x.v.op p).axis 0).local? g).getD 0]
  let dIx (p : Nat) (e : Nat × Nat) : List Nat :=
    let h := x.v.op p
    x.v.localOfD h b e.1 e.2
  let steps := x.v.d.epilogue.flatMap fun e => match e.2 with
    | none => []
    | some p => match e.1.code with
      | 1 | 3 => x.tensorReads p (cols.map fun j => vec p (x.v.globalCol j))
      | 2 | 4 => x.tensorReads p (rows.map fun i => vec p (x.v.globalRow i))
      | _ => x.tensorReads p (es.map (dIx p))
  let scale (pos : Nat) (os : List Nat) : List Read :=
    let t := (x.v.op pos).t
    match t.scaleKind with
    | 1 => [((pos, 1), t.scaleDa, 4)]
    | 2 => os.map fun o => ((pos, 1), t.scaleDa + 4 * x.v.outIndex pos o, 4)
    | _ => []
  let scales := if x.v.d.productLike then scale 0 rows ++ scale 1 cols else if x.v.d.kind = 5 then scale 0 rows else []
  let masks := match x.v.d.maskPos with
    | some p => (ps.map fun q => x.tileRead p (x.destTile b q))
    | none => []
  steps ++ scales ++ masks

/-- What PRUNE and REGROW read for one tile of W (R164-R167). -/
def Feed.evolveReads (x : Feed) (tL : Nat) : List Read :=
  let W := x.v.op 0
  let tiles := if le x.v.d.kindParams 1 1 = 2 then W.rowTiles tL else [tL]
  let source := decide (4 < x.v.d.operands.length)
  tiles.flatMap fun q =>
    let g := W.tileGeo q
    let els := (List.range 2304).filterMap fun u =>
      if u / 48 < g.lines ∧ u % 48 < g.positions then (W.elemLocal g u).map fun e => g.outer ++ [e.1, e.2] else none
    [x.tileRead 0 q, x.tileRead 1 q] ++ (if source then x.tensorReads 4 els else []) ++
    (if x.v.d.operands.length > 5 then [x.tileRead 5 q] else []) ++
    (if W.fmt.isMx then els.map fun ix => ((0, W.lineOf 1 ix), W.scaleAddr ix, 1) else [])

/-- The captured outputs of an array tile: place among the captured rows, column in the capture range (R171). -/
def Feed.capPlaces (x : Feed) (p : Nat × Nat) : List (Nat × Nat × Nat × Nat) :=
  (x.capRows p).flatMap fun i => (x.capCols p).map fun j =>
    (x.cap.findIdx fun q => q.1 == 48 * p.1 + i, x.v.globalCol (48 * p.2 + j) - x.v.d.cap.colLo, 48 * p.1 + i, 48 * p.2 + j)

/-- The places in the scratch of an array tile's pairs and capture lists for part `f` (R198). -/
def Feed.pairDa (x : Feed) (b : Nat) (p : Nat × Nat) (f : Nat) : Nat := x.scratch + x.v.pairOff x.t b p f
def Feed.listDa (x : Feed) (b q c f : Nat) : Nat := x.scratch + x.v.listOff x.t x.cap.length b q c f

/-- What a combine item loads of its two children: one past the last operand (R199, R225). -/
def Feed.childReads (x : Feed) (it : Item) (ps : List (Nat × Nat)) : List Read :=
  let n := x.v.ops.length
  [it.f, it.f + it.width].flatMap fun f =>
    (ps.map fun p => let a := x.pairDa it.batch p f; ((n, a), a, pairBytes)) ++
    ps.flatMap fun p => (x.capPlaces p).map fun q => let a := x.listDa it.batch q.1 q.2.1 f; ((n, a), a, x.v.listBytes)

/-- The last round of an item. -/
def Feed.lastRound (x : Feed) (it : Item) : Nat :=
  match it.kind with
  | .out | .part => (x.v.rounds x.t it.f).length - 1
  | _ => 0

/-- What an item loads in round `r`; `epi` says that it applies the epilogue (R189, R198, R289). -/
def Feed.reads (x : Feed) (it : Item) (r : Nat) (epi : Bool) : List Read :=
  let ps := x.live it
  if ps.isEmpty then []
  else
    let ep := if epi ∧ r = x.lastRound it then x.epilogueReads it.batch ps else []
    match it.kind with
    | .out | .part =>
      let (k0, len) := ((x.v.rounds x.t it.f)[r]?).getD (0, 0)
      let es := ps.flatMap x.v.outElems
      let rows := (es.map Prod.fst).dedup
      let cols := (es.map Prod.snd).dedup
      let ks := (List.range len).map (k0 + ·)
      let A := x.tensorReads 0 (rows.flatMap fun i => ks.map fun k => x.v.factorIndex 0 it.batch i k)
      let B := x.tensorReads 1 (cols.flatMap fun j => ks.map fun k => x.v.factorIndex 1 it.batch j k)
      let C := match x.v.d.cPos with
        | some p => if r = 0 ∧ it.f = 0 then x.tensorReads p (es.map fun e => x.v.localOfD (x.v.op p) it.batch e.1 e.2) else []
        | none => []
      A ++ B ++ C ++ ep
    | .map =>
      if x.v.d.kind = 5 then
        let h := x.v.op 0
        x.tensorReads 0 ((ps.flatMap x.v.outElems).map fun e => x.v.localOfD h it.batch e.1 e.2) ++ ep
      else ps.flatMap fun p => x.evolveReads (x.destTile it.batch p)
    | .comb => x.childReads it ps ++ ep
    | _ => ep

/-- The 32-byte pieces that a range touches: the unit in which poison travels to a tile (R223). -/
def pieces (da len : Nat) : List Nat :=
  if len = 0 then [] else (List.range ((da + len - 1) / 32 - da / 32 + 1)).map fun i => da / 32 * 32 + 32 * i

/-- The poisoned units that ranges meet: operand position and unit DA (R225). -/
def poisonedReads (bad : Nat → Bool) (rs : List Read) : List (Nat × Nat) :=
  (rs.flatMap fun r => (pieces r.2.1 r.2.2).filterMap fun q => if bad q then some (r.1.1, unitOf q) else none).dedup

/-! ### The body of an entry that runs items -/

/-- What an `OP_ISSUE` or `ROW` entry is, resolved against its job's mapping. -/
inductive Body where
  | op (v : View)
  | row (v : RowView)

def Work.body (w : Work) (m : Mapping) : Option Body :=
  if w.opcode = 0x0316 then (mkRowView m (RowDesc.parse w.params)).map .row
  else (mkView m (OpDesc.parse w.params)).map .op

def mkFeed (v : View) (o : OpRun) (j : Job) (step : Nat) (rd : Nat → Byte) : Feed :=
  { v := v, t := o.tiling, hs := o.headers, rd := rd, truncate := j.truncate, seed := j.seed, step := step,
    cap := v.capturedRows o.capRows, scratch := o.scratchDa }

def mkRowFeed (v : RowView) (o : OpRun) (j : Job) (step : Nat) (rd : Nat → Byte) : RowFeed :=
  { v := v, rb := o.tiling.mt, rd := rd, seed := j.seed, step := step, scratch := o.scratchDa }

/-- Rows and the fold item as items (R294): the row items come first. -/
def RowView.item (v : RowView) (rb num : Nat) : Item :=
  let n := v.rowItems rb
  { kind := if num < n then .row else .fold, batch := 0, im := num, jn := 0, f := 0, width := 0, half := 0, rank := num,
    root := true, tiles := [(num, 0)], deps := if num < n then [] else List.range n }

/-- The open gradient set of a product (R288). -/
def Job.setOf (j : Job) (o : OpRun) : Option GradSet :=
  match o.wgbSet with
  | none => none
  | some id => j.sets.find? fun g => g.tensorId == id

/-- The micro-batch is the set's last (R289). -/
def GradSet.lastMb (g : GradSet) (mb : Nat) : Bool := mb + 1 == g.mbFirst + g.mbCount

/-- The item applies the epilogue and writes the destination. -/
def epilogueItem (v : View) (g : Option GradSet) (it : Item) : Bool :=
  match g with
  | some g => g.lastMb v.d.microBatch
  | none => it.root && it.kind != .part

/-! ### Item numbers (R200) -/

/-- The item has ended: final, or without being final because it consumed poison. -/
def OpRun.ended (o : OpRun) (i : Nat) : Bool := lookup false o.final i || o.spoiled.contains i
def OpRun.isOut (o : OpRun) (i : Nat) : Bool := o.out.any fun p => p.1 == i

/-- Every item of the operation has been handed out (R203). -/
def OpRun.handedOut (o : OpRun) : Bool :=
  (List.range o.tiling.items).all fun i => o.ended i || o.isOut i

def OpRun.allEnded (o : OpRun) : Bool := (List.range o.tiling.items).all o.ended

/-- Output or partial items, and row items: the new items, handed out in order of number. -/
def OpRun.newCount (o : OpRun) (row : Bool) : Nat :=
  if row then o.tiling.blocks else o.tiling.blocks * o.tiling.f

/-- The item of a number. -/
def Body.item (b : Body) (o : OpRun) (n : Nat) : Item :=
  match b with
  | .op v => v.item o.tiling n
  | .row v => v.item o.tiling.mt n

/-! ### Capture lists in the scratch (R198, R199) -/

def listBytesOf (k : Nat) (c : Captured) : List Byte :=
  leBytes 4 c.row ++ leBytes 4 c.col ++ leBytes 4 c.terms ++ leBytes 4 (min k c.top.length) ++
  (List.range k).flatMap fun i => match c.top[i]? with
    | some e => leBytes 4 e.1 ++ leBytes 4 e.2.toNat
    | none => leBytes 8 0

/-- The list that lies at an address. -/
def listAt (rd : Nat → Byte) (k da : Nat) : Captured :=
  let w (o : Nat) : Nat := leNat (rdList rd (da + o) 4)
  { row := w 0, col := w 4, terms := w 8,
    top := (List.range (min k (w 12))).map fun i => (w (16 + 8 * i), BitVec.ofNat 32 (w (20 + 8 * i))) }

end Sys2Proof.Machine
end

