-- ==== Sys2Proof/Machine/Mesh.lean ====
section
/-! DEFINITION. The mesh's short-transfer path (R28, R30, R33, R260-R262): which transfers take it, the header and the flits
of a message, the routers that it passes and the count of messages delivered (R271). A command moves everything that it
sends in one step, so no flit waits in a router between steps (log 12). -/

namespace Sys2Proof.Machine

/-- A place on the mesh: logical column and row, and which agent there, 0 the tile (R261). -/
structure Agent where
  x : Nat
  y : Nat
  agent : Nat
deriving DecidableEq, Repr

def Agent.tile (n : Nat) : Agent := ⟨tileX n, tileY n, 0⟩

/-- The router that a skip attaches to, the first of those that R32 and R33 name, and its agent number (DESIGN CHOICE, log
60: the spec numbers no edge agents). -/
def Agent.skip (n : Nat) : Agent :=
  if n < 32 then ⟨8 * (n / 4 % 4) + 2 * (n % 4), if n / 4 < 4 then 0 else 24, n + 1⟩
  else if n < 44 then ⟨if n < 38 then 0 else 31, (([1, 6, 9, 15, 18, 23] : List Nat)[(n - 32) % 6]?).getD 0, n + 1⟩
  else ⟨if n < 46 then 0 else 31, if n % 2 = 0 then 3 else 20, n + 1⟩

def Agent.host : Agent := ⟨0, 11, 49⟩
def Agent.management : Agent := ⟨0, 13, 50⟩
def Agent.sequencer : Agent := ⟨0, 13, 51⟩

/-- The agent that answers for an address: a tile, the skip of its granule, or the management complex for a CSR. -/
def State.agentOf (s : State) (da : Nat) : Agent :=
  match s.regionOf da with
  | .tile n _ => .tile n
  | _ => match s.skipOf da with
    | some n => .skip n
    | none => .management

/-- A message of the short-transfer path (R261): kind 1 muster, 2 pull, 3 flag write, 4 memory read request, 5 memory data,
6 CSR access, 7 header or descriptor, 8 digest. -/
structure StpMessage where
  dest : Agent
  src : Agent
  kind : Nat
  poison : Nat
  payload : List Byte
deriving DecidableEq, Repr

/-- Transfers of at most 2032 bytes take the short-transfer path, all others are bulk traffic (R260). -/
def stpFits (len : Nat) : Bool := decide (len ≤ 2032)

def Agent.code (a : Agent) : Nat := a.x + 32 * a.y + 1024 * a.agent

/-- The 16-byte header (R261). -/
def StpMessage.header (m : StpMessage) : List Byte :=
  leBytes 2 m.dest.code ++ leBytes 2 m.src.code ++ leBytes 1 m.kind ++ leBytes 1 0 ++ leBytes 2 m.payload.length ++ leBytes 8 m.poison

/-- The message's flits of 64 bytes, back to back (R261, R262). -/
def StpMessage.flits (m : StpMessage) : List (List Byte) :=
  let b := m.header ++ m.payload
  (List.range (ceilDiv b.length 64)).map fun i => (b.drop (64 * i)).take 64

/-- The router inputs that a message passes, along its row and then along its column: router and direction, 0 from the
agent, 1 to 4 from the west, east, north and south neighbour (R28). -/
def stpPath (a b : Agent) : List Nat :=
  let at_ (x y d : Nat) : Nat := 8 * (32 * y + x) + d
  let row := if a.x ≤ b.x then (List.range (b.x - a.x)).map fun i => at_ (a.x + i + 1) a.y 1
    else (List.range (a.x - b.x)).map fun i => at_ (a.x - i - 1) a.y 2
  let col := if a.y ≤ b.y then (List.range (b.y - a.y)).map fun i => at_ b.x (a.y + i + 1) 3
    else (List.range (a.y - b.y)).map fun i => at_ b.x (a.y - i - 1) 4
  at_ a.x a.y 0 :: row ++ col

/-- A router input holds four flits; a sender sends against a credit (R262). -/
def stpCredits (q : List (List Byte)) : Nat := 4 - q.length

/-- A flit enters a router input if a credit is left, and the oldest flit there goes on. -/
def State.stpHop (s : State) (f : List Byte) (i : Nat) : State :=
  let q := lookup [] s.stpIn i
  if stpCredits q = 0 then s
  else { s with stpIn := store [] s.stpIn i ((q ++ [f]).drop 1) }

/-- A message is delivered: its flits pass every router input of its path in order, and it counts (R262, R271). -/
def State.stpSend (s : State) (m : StpMessage) : State :=
  let s := m.flits.foldl (fun s f => (stpPath m.src m.dest).foldl (fun s i => s.stpHop f i) s) s
  { s with stpMessages := min (2 ^ 64 - 1) (s.stpMessages + 1) }

/-- The POISON field of a payload whose 32-byte pieces carry these marks (R261). -/
def poisonBits (marks : List Bool) : Nat := marks.zipIdx.foldl (fun a m => if m.1 then a + 2 ^ m.2 else a) 0

/-- A transfer of a payload between two agents: by message if it is short enough; bulk traffic moves without one. -/
def State.carryMarked (s : State) (src dest : Agent) (kind : Nat) (payload : List Byte) (marks : List Bool) : State :=
  if stpFits payload.length then s.stpSend ⟨dest, src, kind, poisonBits marks, payload⟩ else s

/-- A transfer without poison. -/
def State.carry (s : State) (src dest : Agent) (kind : Nat) (payload : List Byte) : State := s.carryMarked src dest kind payload []

/-- A flag write travels from the management complex to the skip that serves the flag (R250, R260, R267). -/
def State.stpFlag (s : State) (da v : Nat) : State := s.carry .management (s.agentOf da) 3 (leBytes 8 da ++ leBytes 8 v)

end Sys2Proof.Machine
end

