-- ==== Sys2Proof/Machine/Queue.lean ====
section
/-! DEFINITION. Context queues: phase spans and their records (R299, R300), entries becoming final (R354, R372, R387,
R394), which entry may begin (R203, R265, R272), and what a failed barrier or pop does to the entries behind it (R266,
R282). -/

namespace Sys2Proof.Machine

/-! ### Phase spans (R299, R300) -/

/-- The entry's opcodes by name. -/
def opcSTEP_BEGIN : Nat := 0x0310
def opcBARRIER : Nat := 0x0311
def opcROW : Nat := 0x0316
def opcOP_ISSUE : Nat := 0x0401
def opcCOLLECTIVE : Nat := 0x0501
def opcMAP_SET : Nat := 0x0502
def opcGRAD_NORM : Nat := 0x0503
def opcSTEP_COMMIT : Nat := 0x0701
def opcSTREAM_ARM : Nat := 0x0210

def Work.isOp (w : Work) : Bool := w.opcode == opcOP_ISSUE || w.opcode == opcROW
def Work.isColl (w : Work) : Bool := w.opcode == opcCOLLECTIVE || w.opcode == opcGRAD_NORM

/-- The phase code of a context: IDLE for an empty queue, COLLECTIVE_WAIT when its head entry is a collective that
waits for a peer, the mark's phase otherwise; OTHER where there is no mark (DEDUCED, log 21). -/
def State.phaseOf (s : State) (k : Ctx) : Nat :=
  match k.queue.head? with
  | none => 0
  | some q =>
    match s.work q with
    | some w => if w.isColl ∧ !w.cancelling ∧ (w.coll.map CollRun.peerWait).getD false then 4 else k.markPhase.getD 5
    | none => k.markPhase.getD 5

/-- Writes a record into the job's phase ring, by an STP write (R260, R300). -/
def State.writeRecord (s : State) (k : Ctx) (c : Nat) (fault : Bool) : State :=
  match s.job k.job with
  | none => s
  | some j =>
    if j.ringEntries = 0 then s
    else
      let len := s.sclk - k.spanStart
      let rec_ : List Byte :=
        leBytes 4 j.step ++ leBytes 4 (if k.markPhase.isSome then k.microBatch else 0xFFFFFFFF) ++ leBytes 8 k.spanStart ++
        leBytes 4 (sat32 len) ++ leBytes 4 (sat32 k.spanItems) ++ leBytes 1 c ++ leBytes 1 k.phase ++
        leBytes 1 (if k.markPhase.isSome then k.stage else 0xFF) ++
        leBytes 1 (b2n (decide (2 ^ 32 ≤ len)) + 2 * b2n fault) ++ leBytes 4 (sat32 (k.spanCyc / 1024))
      let da := j.ringDa + 32 * (j.records % j.ringEntries)
      let s := (s.carry .management (s.agentOf da) 5 rec_).write da rec_
      s.modJob k.job fun j => { j with records := (j.records + 1) % 2 ^ 32 }

/-- Ends the context's span and begins the next one in phase `p`. -/
def State.endSpan (s : State) (c p : Nat) (fault : Bool) : State :=
  match s.ctx c with
  | none => s
  | some k =>
    (s.writeRecord k c fault).modCtx c fun k =>
      { k with phase := p, spanStart := s.sclk, spanItems := 0, spanCyc := 0 }

/-- Ends the span when a derived phase has started or ended. -/
def State.settle (s : State) (c : Nat) : State :=
  match s.ctx c with
  | none => s
  | some k => if s.phaseOf k = k.phase then s else s.endSpan c (s.phaseOf k) false

/-! ### Signals (R201) -/

/-- The counter signals that new items are eligible: when an operation starts, an entry leaves the queue, an item becomes final,
is handed out or is returned, a phase of a queue ends, and hand-out resumes (DESIGN CHOICE, log 58: the spec gives no list). -/
def State.signal (s : State) (j : Nat) : State := s.modJob j fun x => { x with signals := x.signals + 1 }

/-- The job of an entry is signalled. -/
def State.signalOf (s : State) (seq : Nat) : State := match s.work seq with | some w => s.signal w.job | none => s

/-! ### Becoming final -/

/-- An entry of a job ends with a status that bars the commit of its attempt (R439). -/
def State.endedBad (s : State) (jn seq : Nat) : State := s.modJob jn fun j => { j with bad := j.bad ++ [seq] }

/-- The entry becomes final with a status and its final reply parameters (R354, R372, R387, R394). A bad end is kept
for the barrier that will judge it (R266) and for the commit of the attempt (R439). -/
def State.finish (s : State) (seq status : Nat) (reply : List Byte) : State :=
  match s.entry seq with
  | none => s
  | some x =>
    if x.state = 3 then s else
    let y := { x with state := 3, status := status, finish := s.sclk, reply := reply,
                      bitmap := decide (status ≠ 0 ∧ x.nbits ≠ 0), bits := if status = 0 then [] else x.bits,
                      back := none }
    let s := s.setSlot (slotIx seq) y
    let s := match x.back with
      | some r => if x.notify then s.holdReply seq { r with status := status, final := true, params := reply } else s
      | none => s
    match s.work seq with
    | none => s
    | some w =>
      let s := { s with works := s.works.filter fun v => v.seq != seq }
      let s := if w.isColl then s.modJob w.job fun j =>
          if status = St.done then { j with collDone := sat32 (j.collDone + 1) } else { j with collFailed := sat32 (j.collFailed + 1) }
        else s
      let bad := !St.good status
      let s := if bad then s.endedBad w.job seq else s
      match w.ctx with
      | none => s
      | some c =>
        let s := s.modCtx c fun k =>
          { k with queue := k.queue.filter (· != seq), bad := if bad then k.bad ++ [(seq, none)] else k.bad }
        (s.signal w.job).settle c

/-- The entry becomes final with its watermark set. -/
def State.finishAt (s : State) (seq status wm : Nat) (reply : List Byte) : State :=
  (s.setWatermark seq wm).finish seq status reply

/-! ### The result block (R373) -/

def OpRun.finalCount (o : OpRun) : Nat := countWhere id o.final

def resultBlock (o : OpRun) (row : Bool) (operand bitNo da trunc a b wm : Nat) : List Byte :=
  leBytes 4 o.tiling.items ++ leBytes 4 o.finalCount ++
  leBytes 1 (if row then 0 else o.tiling.mt / 48) ++ leBytes 1 (if row then 0 else o.tiling.nt / 48) ++
  leBytes 1 (if row then 0 else o.tiling.f) ++ leBytes 1 (if row then 0 else o.tiling.slots) ++
  leBytes 2 (if row then o.tiling.mt else o.tiling.kr) ++
  leBytes 1 operand ++ leBytes 1 bitNo ++ leBytes 8 da ++ leBytes 8 trunc ++ leBytes 8 a ++ leBytes 8 b ++ leBytes 8 wm ++
  leBytes 8 0

/-- The watermark of an operation: items final, or elements applied by its apply pass (R392). -/
def OpRun.mark (o : OpRun) : Nat := if o.ordered then o.applied else o.finalCount

/-- The result block of an operation that ends with no offender to report; the truncated groups that it has met are reported (R139). -/
def OpRun.plainBlock (o : OpRun) (row : Bool) : List Byte := resultBlock o row 0 0 0 o.trunc.length 0 0 o.mark

/-! ### Writes in flight -/

/-- The entry has writes that are not acknowledged: sent to a skip, or issued. -/
def State.writesOut (s : State) (seq : Nat) : Bool :=
  s.skips.any fun k => (k.2.arrived.any fun r => r.handle == seq) || (k.2.issued.any fun r => r.handle == seq)

def State.issuedOut (s : State) (seq : Nat) : Bool := s.skips.any fun k => k.2.issued.any fun r => r.handle == seq
def State.readsOut (s : State) (seq : Nat) : Bool := s.skips.any fun k => k.2.reads.any fun r => r.handle == seq && r.marked

/-- No write of any entry of the job, or of the context, is waiting for its acknowledgement (R265): entries are commands that
entered a context queue, so writes of streams armed outside any context and of host transfers do not count. The entries are
final, so their writes are those whose handle's journal entry names the job and the context. -/
def State.quiet (s : State) (j : Nat) (c : Option Nat) : Bool :=
  let mine (r : WriteReq) : Bool :=
    match s.entry r.handle with
    | some x => x.job == j && (match c with | some c => x.ctx == c | none => decide (x.ctx < 16))
    | none => false
  !(s.skips.any fun k => k.2.arrived.any mine || k.2.issued.any mine)

/-! ### Which entry may begin (R203, R265, R272) -/

/-- The entry orders against every context of its job. -/
def Work.jobScope (w : Work) : Bool :=
  w.opcode == opcSTEP_BEGIN || w.opcode == opcMAP_SET || w.opcode == opcSTEP_COMMIT ||
  (w.opcode == opcBARRIER && le w.params 0 1 == 1)

/-- The entries behind it in its queue may begin (R203, R259, R296). -/
def Work.passed (w : Work) : Bool :=
  if w.isOp then (match w.op with | some o => o.started && o.handedOut | none => false)
  else if w.opcode = opcSTREAM_ARM then true
  else w.isColl && w.running

/-- The entries accepted before `seq` that are not final, oldest first. -/
def State.before (s : State) (seq : Nat) : List Work := s.works.takeWhile fun w => w.seq != seq

def State.after (s : State) (seq : Nat) : List Work := (s.works.dropWhile fun w => w.seq != seq).drop 1

/-- The entry is at the head of its context queue, with every barrier ahead of it complete (R367). -/
def State.atHead (s : State) (seq : Nat) : Bool :=
  match s.work seq with
  | none => false
  | some w =>
    match w.ctx with
    | none => true
    | some c =>
      (s.before seq).all fun v =>
        if v.ctx = some c then v.passed && !v.jobScope
        else !(v.ctx.isSome && v.job == w.job && v.jobScope)

/-- Every entry of the job accepted before `seq` is final, with its writes acknowledged (R272). -/
def State.jobClear (s : State) (seq : Nat) : Bool :=
  match s.work seq with
  | none => false
  | some w => ((s.before seq).all fun v => !(v.ctx.isSome && v.job == w.job)) && s.quiet w.job none

/-- The same for the entries of its own context (R265). -/
def State.ctxClear (s : State) (seq : Nat) : Bool :=
  match s.work seq with
  | none => false
  | some w => ((s.before seq).all fun v => v.ctx != w.ctx) && s.atHead seq && s.quiet w.job w.ctx

/-- Sequence number `a` was accepted before `b` (R353). -/
def seqBefore (a b : Nat) : Bool := decide ((b + 2 ^ 32 - a) % 2 ^ 32 < 2 ^ 31) && a != b

/-! ### Hayloft entries of a push (R279, R280, R282) -/

def hayHeader (e : HayEntry) : List Byte :=
  leBytes 4 e.tensorId ++ leBytes 4 e.microBatch ++ leBytes 4 e.step ++ leBytes 4 e.seq ++ leBytes 8 e.bodyBytes ++
  leBytes 1 e.format ++ leBytes 1 e.ndim ++ leBytes 1 (b2n e.sparse) ++ leBytes 1 e.state ++ leBytes 4 e.slotBytes ++
  ((List.range 6).flatMap fun d => leBytes 4 ((e.extents[d]?).getD 0)) ++ leBytes 8 0

/-- Writes the header's STATE byte. -/
def State.hayState (s : State) (e : HayEntry) : State := if e.placed then s.write (e.da + 27) (leBytes 1 e.state) else s

/-- Changes one entry of a context's hayloft, by its place in the stack. -/
def Ctx.modHay (k : Ctx) (seq : Nat) (f : HayEntry → HayEntry) : Ctx :=
  { k with hay := k.hay.map fun e => if e.seq == seq then f e else e }

/-- The operation that pushed an entry has a final status. -/
def State.pushEnded (s : State) (w : Work) (o : OpRun) (status : Nat) : State :=
  match o.pushSeq, w.ctx with
  | some q, some c =>
    let s := s.modCtx c fun k => k.modHay q fun e =>
      { e with state := if e.state = 0 then 1 else e.state, pushFinal := true, pushOk := St.good status }
    match s.ctx c with
    | some k => match k.hay.find? fun e => e.seq == q with
      | some e => s.hayState e
      | none => s
    | none => s
  | _, _ => s

/-! ### Ends without running -/

/-- A stream arm's descriptor, job and number. -/
def Work.sd (w : Work) : Nat := le w.params 0 1

def Job.stream (j : Job) (d : Nat) : Stream := lookup Stream.reset j.streams d
def Job.setStream (j : Job) (d : Nat) (x : Stream) : Job := { j with streams := store Stream.reset j.streams d x }
def State.stream (s : State) (j d : Nat) : Stream := match s.job j with | some x => x.stream d | none => Stream.reset
def State.modStream (s : State) (j d : Nat) (f : Stream → Stream) : State := s.modJob j fun x => x.setStream d (f (x.stream d))

/-- The final reply of a stream arm (R374). -/
def armReply (wm transfers : Nat) : List Byte := leBytes 8 wm ++ leBytes 4 transfers ++ leBytes 4 0

/-- The descriptor's contents end with an error: FAULTED, and the shadow is discarded (R252, R253). -/
def State.faultStream (s : State) (j d status : Nat) (transfers wm : Nat) : State :=
  let x := s.stream j d
  let s := s.modStream j d fun x => { x with state := .faulted, shadow := none }
  let s := match x.body with
    | some b => s.finishAt b.seq status wm (armReply wm transfers)
    | none => s
  match x.shadow with
  | some b => s.finishAt b.seq St.statePredFailed 0 (armReply 0 0)
  | none => s

/-- The final reply parameters of an entry, other than a stream or an operation, that ends without having done anything
(R374). -/
def Work.emptyReply (w : Work) : List Byte :=
  if w.opcode = opcCOLLECTIVE then leBytes 8 0 ++ leBytes 4 0 ++ leBytes 4 0xFFFF_FFFF ++ leBytes 8 0 ++ leBytes 8 0
  else if w.opcode = opcGRAD_NORM then List.replicate 16 0#8
  else if w.opcode = opcSTEP_BEGIN ∨ w.opcode = 0x0704 then List.replicate 8 0#8
  else if w.opcode = 0x0211 ∨ w.opcode = 0x0320 then List.replicate 32 0#8
  else []

/-- An entry that has not run ends with a status and touches no memory; one that a cancellation is draining ends with it (R254). -/
def State.endUnrun (s : State) (w : Work) (status : Nat) : State :=
  if w.cancelling then s
  else if w.opcode = opcSTREAM_ARM then
    let x := s.stream w.job w.sd
    match x.shadow with
    | some b =>
      if b.seq = w.seq then (s.modStream w.job w.sd fun x => { x with shadow := none }).finishAt w.seq status 0 (armReply 0 0)
      else s.faultStream w.job w.sd status 0 0
    | none => s.faultStream w.job w.sd status 0 0
  else match w.op with
    | some o => (s.pushEnded w o status).finishAt w.seq status 0 (o.plainBlock (w.opcode == opcROW))
    | none => s.finishAt w.seq status 0 w.emptyReply

/-- Every entry already accepted behind `seq`, in its context or in its whole job, ends with `STATE_PRED_FAILED`
(R266, R282). -/
def State.failBehind (s : State) (seq : Nat) (wholeJob : Bool) : State :=
  match s.work seq with
  | none => s
  | some w =>
    ((s.after seq).filter fun v => v.job == w.job && v.ctx.isSome && (wholeJob || v.ctx == w.ctx)).foldl
      (fun s v => s.endUnrun v St.statePredFailed) s

end Sys2Proof.Machine
end

