-- ==== Sys2Proof/Machine/Records.lean ====
section
/-! DEFINITION. Register values that records and reports quote (R26, R234, R461, R483), the records of the lifetime ring
(R478), the permanent tables (R27, R229, R433, R480) and the OTP counts (R481). -/

namespace Sys2Proof.Machine

def sclkSecond : Nat := 700000000

/-! ### The boot header (R467) -/

/-- A copy of the boot header (DESIGN CHOICE of the layout, log 37): generation, `ACTIVE`, `PENDING`, `RAISE_SVN`, and a CRC-32C over
them. -/
def BootHeader.bytes (h : BootHeader) : List Byte :=
  let b := leBytes 4 h.generation ++ leBytes 1 (b2n h.active) ++ leBytes 1 (match h.pending with | some p => b2n p | none => 0xFF) ++
    leBytes 1 (b2n h.raiseSvn)
  b ++ leBytes 4 (crc32c b).toNat

/-- The header that a copy holds, when its CRC is right. -/
def BootHeader.parse (l : List Byte) : Option BootHeader :=
  let b := l.take 7
  if l.length = 11 ∧ l.drop 7 = leBytes 4 (crc32c b).toNat then
    some { generation := le b 0 4, active := le b 4 1 == 1, pending := if le b 5 1 = 0xFF then none else some (le b 5 1 == 1),
           raiseSvn := le b 6 1 == 1 }
  else none

/-- The second copy is the valid one with the higher generation. -/
def Security.second (x : Security) : Bool :=
  match BootHeader.parse x.copy0, BootHeader.parse x.copy1 with
  | some a, some b => decide (a.generation < b.generation)
  | none, some _ => true
  | _, none => false

/-- The boot header in force; with no valid copy, bank A (DESIGN CHOICE, log 6). -/
def Security.header (x : Security) : BootHeader :=
  (BootHeader.parse (if x.second then x.copy1 else x.copy0)).getD { generation := 0, active := false, pending := none, raiseSvn := false }

/-- The rails are off (R489). -/
def Security.off (x : Security) : Bool := !x.railsOff.isEmpty

/-! ### Register values -/

/-- `RES_ROWMAPq` (R26). -/
def RowMap.reg (m : RowMap) : Nat :=
  m.unmapped + 2 ^ 5 * m.testUnmapped + 2 ^ 10 * b2n m.spareAvail + 2 ^ 11 * b2n m.amended + 2 ^ 12 * b2n m.pending.isSome +
  2 ^ 13 * m.pending.getD 0x1F

def State.rowMapReg (s : State) (q : Nat) : Nat := match s.otp.rows[q]? with | some m => m.reg | none => 0

/-- `RES_MEM_CFG` (R234). -/
def MemInfo.cfgReg (m : MemInfo) : Nat :=
  m.hbmOk.toNat + 2 ^ 12 * m.ddrCh.toNat + 2 ^ 25 * b2n m.valid + 2 ^ 26 * m.ddrType + 2 ^ 28 * m.dimmSize

/-- `RES_HEALTH` (R461). -/
def State.healthReg (s : State) : Nat :=
  let quar := countWhere Tile.quarantined s.tiles
  let lane := (List.range 8).any fun p => (s.port p).dropped != 0#4
  let mem := !s.retired.isEmpty
  let pend := s.otp.rows.any fun m => m.pending.isSome
  let rows := !s.life.tileRows.isEmpty
  let hi := 2 * b2n rows + 2 ^ 2 * b2n pend + 2 ^ 3 * b2n mem + 2 ^ 4 * b2n lane + 2 ^ 12 * quar
  hi + b2n (hi != 0)

/-- `SEC_BOOT` (R483). -/
def Security.bootReg (x : Security) : Nat :=
  x.stage + 2 ^ 8 * b2n x.header.pending.isSome + 2 ^ 9 * b2n x.bank + 2 ^ 10 * x.fallback + 2 ^ 12 * b2n x.memFault + 2 ^ 16 * x.failCode

/-! ### Ring records (R478) -/

def State.poweredS (s : State) : Nat := s.sclk / sclkSecond

/-- The record date of now: 0 while no date is set (R477). -/
def State.recordDate (s : State) : Nat := match s.life.date with | some d => d + s.poweredS | none => 0

def ringSize : Nat := 458752

/-- The next write of a record or an entry to flash fails. -/
def State.flashFails (s : State) : Bool := Config.flashFails s.life.flashWrites

/-- Writes a record; the ring overwrites its oldest. A write that fails sets FLASH_ERR, and the device goes on without the record
(R480). -/
def State.record (s : State) (type : Nat) (body : List Byte) : State :=
  let r : LifeRecord := { type := type, boot := s.otp.coldBoots, poweredS := s.poweredS, dateS := s.recordDate, body := body }
  let l := s.life.ring ++ [r]
  let fails := s.flashFails
  { s with life := { s.life with
    ring := if fails then s.life.ring else l.drop (l.length - ringSize)
    ringTotal := if fails then s.life.ringTotal else sat32 (s.life.ringTotal + 1)
    flashErr := s.life.flashErr || fails, flashWrites := s.life.flashWrites + 1, flashAt := some (s.sclk, false) } }

/-- An EVENT record: a code and its data. -/
def State.event (s : State) (code : Nat) (data : List Byte) : State := s.record 3 (leBytes 2 code ++ data)

/-- The records that read as written: one whose CRC fails is ignored (R478). -/
def Life.readable (l : Life) : List LifeRecord := l.ring.filter fun r => !r.torn

/-- The 256 bytes of a record. -/
def LifeRecord.bytes (r : LifeRecord) : List Byte :=
  let b := leBytes 1 r.type ++ leBytes 3 0 ++ leBytes 4 r.boot ++ leBytes 8 r.poweredS ++ leBytes 8 r.dateS ++
    (r.body ++ List.replicate 228 0#8).take 228
  b ++ leBytes 4 (crc32c b).toNat

/-- The BOOT record (DESIGN CHOICE of widths, log 37): FW major and minor, SVN, bank, M0, `RES_MEM_CFG`, `SEC_BOOT`. -/
def State.bootRecord (s : State) : State :=
  let x := s.sec
  let s := s.record 1 (leBytes 2 x.fwMajor ++ leBytes 2 x.fwMinor ++ leBytes 4 x.imageSvn ++ leBytes 4 (b2n x.bank) ++
    (x.m0 ++ List.replicate 48 0#8).take 48 ++ leBytes 4 s.memInfo.cfgReg ++ leBytes 4 x.bootReg)
  { s with life := { s.life with bootRec := true } }

/-! ### Permanent tables (R480) -/

/-- 16-byte places of the 15 MiB of permanent tables; one holds the count of hard repairs (DESIGN CHOICE, log 37). -/
def permPlaces : Nat := 983039

def Life.permCount (l : Life) : Nat := l.rows.length + l.tileRows.length

def DramRow.entry (r : DramRow) : List Byte :=
  leBytes 1 r.tier ++ leBytes 1 r.unit ++ leBytes 1 r.pc ++ leBytes 1 0 ++ leBytes 8 r.bankRow ++ leBytes 4 r.das.length

def tileRowEntry (e : Nat × Nat) : List Byte := leBytes 1 0x80 ++ leBytes 1 e.1 ++ leBytes 1 e.2 ++ leBytes 13 0

def Life.permEntries (l : Life) : List (List Byte) := l.rows.map DramRow.entry ++ l.tileRows.map tileRowEntry

/-- Writes an entry of the permanent tables; a write that fails sets FLASH_ERR, and the device goes on without the entry (R480). -/
def State.permWrite (s : State) (rows : List DramRow) (tileRows : List (Nat × Nat)) : State :=
  let fails := s.flashFails
  { s with life := { s.life with
    rows := if fails then s.life.rows else s.life.rows ++ rows
    tileRows := if fails then s.life.tileRows else s.life.tileRows ++ tileRows
    flashErr := s.life.flashErr || fails, flashWrites := s.life.flashWrites + 1, flashAt := some (s.sclk, false) } }

/-! ### OTP counts (R481) -/

/-- Raises a count; a count that has reached its maximum stays there and sets OTP_SAT. -/
def State.raiseOtp (s : State) (max : Nat) (get : Otp → Nat) (set : Otp → Nat → Otp) : State :=
  let v := min max (get s.otp + 1)
  { s with otp := { set s.otp v with saturated := s.otp.saturated || v == max } }

end Sys2Proof.Machine
end

