-- ==== Sys2Proof/Machine/Sequencer.lean ====
section
/-! DEFINITION. The sequencer: the start of an operation (R196), the muster counter (R201-R203, R289), returned items,
quarantine (R71, R432-R434), the end of an operation (R139, R204, R225), the data-abort path (R136) and what a
cancellation drops (R254). -/

namespace Sys2Proof.Machine

/-! ### State regions (R441) -/

/-- The range meets a state region of the job's state set. -/
def Job.meetsState (j : Job) (da len : Nat) : Bool :=
  match j.stateSet with
  | some st => st.regions.any fun r => r.meets da len
  | none => false

/-- A write of an entry of the attempt into a state region sets TOUCHED. -/
def State.touch (s : State) (j da len : Nat) : State :=
  s.modJob j fun x => if x.meetsState da len then { x with touched := true } else x

/-- A poisoned unit in a state region of any job sets its POISON_STATE. -/
def State.poisonSeen (s : State) (da : Nat) : State :=
  (List.range 4).foldl (fun s j => s.modJob j fun x => if x.meetsState da 1 then { x with poisonState := true } else x) s

/-- Poison written over a range, where it meets state regions (R441). -/
def State.poisonsState (s : State) (us : List Nat) : State := us.foldl State.poisonSeen s

/-- Copies a range, and the poison within it. -/
def State.copyRange (s : State) (src dst len : Nat) : State :=
  let bad := (List.range len).filter fun i => s.poisonedAt (src + i)
  let s := s.write dst (s.bytes src len)
  let us := (bad.map fun i => unitOf (dst + i)).dedup
  (us.foldl State.mark s).poisonsState us

/-! ### Copies of the state regions (R445, R451) -/

/-- Part of what a copy has still to read lies in a range. -/
def Copy.meets (c : Copy) (da len : Nat) : Bool := c.left.any fun p => (⟨p.1, p.2.2⟩ : Region).meets da len

/-- The first poisoned unit of the parts. -/
def State.partsPoison (s : State) (ps : List (Nat × Nat × Nat)) : Option Nat := ps.findSome? fun p => s.firstPoison p.1 p.2.2

/-- A copy that has read the parts that the test picks. -/
def Copy.reads (s : State) (c : Copy) (pick : Nat × Nat × Nat → Bool) : Copy :=
  { c with left := c.left.filter fun p => !pick p, poison := c.poison.or (s.partsPoison (c.left.filter pick)) }

/-- The poison that a copy has met is seen. -/
def State.copySees (s : State) (ps : List (Nat × Nat × Nat)) : State :=
  match s.partsPoison ps with
  | some u => s.poisonSeen u
  | none => s

/-- A running checkpoint reads parts and writes them into its slot. -/
def State.ckptReads (s : State) (jn : Nat) (pick : Nat × Nat × Nat → Bool) : State :=
  match (s.job jn).bind Job.checkpoint with
  | none => s
  | some c =>
    let ps := c.left.filter pick
    let s := (s.modJob jn fun j => { j with checkpoint := some (c.reads s pick) }).copySees ps
    ps.foldl (fun s p => s.copyRange p.1 p.2.1 p.2.2) s

/-- 4096 bytes of a mirror copy with the 32-byte pieces that are poisoned, which travel as zeros. -/
def State.mirrorPiece (s : State) (a off : Nat) : Nat × List Byte × Nat :=
  (off, (List.range 4096).map (fun b => if s.poisonedAt (a + b) then 0#8 else s.byte (a + b)),
   (List.range 128).foldl (fun m q => if (s.firstPoison (a + 32 * q) 32).isSome then m + 2 ^ q else m) 0)

def State.mirrorPieces (s : State) (p : Nat × Nat × Nat) : List (Nat × List Byte × Nat) :=
  (List.range (p.2.2 / 4096)).map fun i => s.mirrorPiece (p.1 + 4096 * i) (p.2.1 + 4096 * i)

/-- A mirror copy reads parts, which wait to be sent. -/
def State.mirrorReads (s : State) (jn : Nat) (pick : Nat × Nat × Nat → Bool) : State :=
  match (s.job jn).bind Job.pair with
  | none => s
  | some q =>
    match q.sending with
    | none => s
    | some c =>
      let ps := c.left.filter pick
      (s.modJob jn fun j => { j with pair := some { q with sending := some (c.reads s pick),
                                                             outbox := q.outbox ++ ps.flatMap s.mirrorPieces } }).copySees ps

/-- A running copy of the job has not read the bytes of a range. -/
def State.copyLacks (s : State) (jn da len : Nat) : Bool :=
  match s.job jn with
  | some j => (match j.checkpoint with | some c => c.meets da len | none => false) ||
              (match j.pair.bind Pairing.sending with | some c => c.meets da len | none => false)
  | none => false

/-- The running copies read the bytes that a write is about to cover: copy before write. -/
def State.copyBefore (s : State) (jn da len : Nat) : State :=
  let pick (p : Nat × Nat × Nat) : Bool := (⟨p.1, p.2.2⟩ : Region).meets da len
  if s.copyLacks jn da len then (s.ckptReads jn pick).mirrorReads jn pick else s

/-- A write that the device makes for an entry. -/
def State.devWrite (s : State) (j da : Nat) (bs : List Byte) : State := ((s.copyBefore j da bs.length).touch j da bs.length).write da bs

/-- A disruptive event of every job that the predicate names (R446). -/
def State.countEvent (s : State) (p : Job → Bool) : State :=
  (List.range 4).foldl (fun s j => s.modJob j fun x => if p x then { x with events := x.events ++ [s.sclk] } else x) s

/-! ### Hayloft entries of a push (R279, R281) -/

/-- The hayloft entry that an operation pushes. -/
def State.pushOf (s : State) (w : Work) : Option HayEntry :=
  match w.op.bind OpRun.pushSeq, w.ctx.bind s.ctx with
  | some n, some k => k.hay.find? fun e => e.seq == n
  | _, _ => none

/-- The entry has no place yet, so that its push must wait (R281). -/
def State.pushWaits (s : State) (w : Work) : Bool := match s.pushOf w with | some e => !e.placed | none => false

/-! ### Dropping the work of an operation (R107, R254, R256) -/

/-- The tile holds nothing of an item; its counters stay. -/
def Tile.clear (t : Tile) : Tile :=
  { t with phase := .idle, item := none, round := 0, slotsUsed := 0, slots := [], retired := 0, runs := 0, issued := 0,
           partials := 0, banks := [], bankTurn := 0, ftq := [], waiting := none, pulls := [], waitFor := [], pullSent := false,
           loaded := [], loadedPoison := [], places := [], jigAt := 0, captured := [], held := [], output := [],
           storesLeft := 0, sent := [], consumed := [], kcyc := 0, countA := 0, countB := 0 }

/-- The tile goes on to the item it took early, which uses `slots` slots, or becomes idle (R81, R109, R110). -/
def Tile.advance (t : Tile) (slots : Nat) : Tile :=
  match t.next with
  | some i => { t.clear with phase := .load, item := some i, next := none, slotsUsed := slots, pulls := t.pulls,
                             waitFor := t.waitFor, pullSent := t.pullSent, loaded := t.loaded, loadedPoison := t.loadedPoison }
  | none => t.clear

def ItemRef.ofOp (i : Option ItemRef) (seq : Nat) : Bool := match i with | some r => r.op == seq | none => false

/-- A tile discards the items of an operation; `slots` are those of the item it took early. -/
def Tile.discard (t : Tile) (seq slots : Nat) : Tile :=
  let t := if ItemRef.ofOp t.next seq then
      { t with next := none, pulls := [], waitFor := [], pullSent := false } else t
  if ItemRef.ofOp t.item seq then
    (match t.next with
     | some i => { t.clear with phase := .load, item := some i, next := none, slotsUsed := slots }
     | none => t.clear)
  else t

/-- The S of R81 for an item: an item without k-runs uses no slot. -/
def itemSlots (t : Tiling) (it : Item) : Nat := match it.kind with | .out | .part => t.slots | _ => 0

/-- The slots that an item uses. -/
def State.slotsOf (s : State) (r : ItemRef) : Nat :=
  match s.work r.op with
  | none => 0
  | some w =>
    match w.op, (s.job w.job).bind fun j => w.body j.mapping with
    | some o, some b => itemSlots o.tiling (b.item o r.item)
    | _, _ => 0

/-- The slots that the item a tile took early uses. -/
def State.nextSlots (s : State) (n : Nat) : Nat := match (s.tile n).next with | some r => s.slotsOf r | none => 0

/-- A skip drops what it holds for a handle and marks the reads that are outstanding; writes not issued are dropped. -/
def Skip.dropHandle (k : Skip) (h : Nat) : Skip :=
  let gone := k.staged.filter fun g => g.handle == h
  { k with
    staged := k.staged.filter fun g => g.handle != h
    reads := k.reads.map fun r => if r.handle == h then { r with marked := true } else r
    wants := k.wants.filter fun r => r.handle != h
    pulls := k.pulls.filter fun p => p.handle != h
    arrived := k.arrived.filter fun r => r.handle != h
    walk := store 0 k.walk h 0
    drops := sat32 (k.drops + gone.length) }

/-- Steps 1 to 3 of R254 for a handle, with the counts of R255: items discarded in tiles, reads marked, granules dropped,
writes issued and not acknowledged. -/
def State.dropWork (s : State) (h : Nat) : State × List Nat :=
  let held := s.tiles.foldl (fun a e => a + b2n (ItemRef.ofOp e.2.item h) + b2n (ItemRef.ofOp e.2.next h)) 0
  let reads := s.skips.foldl (fun a e => a + (e.2.reads.filter fun r => r.handle == h && !r.marked).length) 0
  let grans := s.skips.foldl (fun a e => a + (e.2.staged.filter fun r => r.handle == h).length) 0
  let writes := s.skips.foldl (fun a e => a + (e.2.issued.filter fun r => r.handle == h).length) 0
  let s := (s.tiles.map Prod.fst).foldl (fun s n => s.modTile n fun t => t.discard h (s.nextSlots n)) s
  let s := (s.skips.map Prod.fst).foldl (fun s n => s.modSkip n fun k => k.dropHandle h) s
  (s, [held, reads, grans, writes])

/-! ### The end of an operation (R139, R204, R225, R373) -/

/-- Position, address and bit of an offender as the sparse status registers and the reply give them. -/
def State.sparseRecord (s : State) (j : Nat) (f : Offender) (abort : Bool) : State :=
  s.modJob j fun x =>
    { x with lastSparse := some f,
             indexOps := if abort then x.indexOps else sat16 (x.indexOps + 1) }

/-- Poison ranked by item number, operand position, DA (R225). -/
def poisonBefore (a b : Nat × Nat × Nat) : Bool :=
  if a.1 ≠ b.1 then decide (a.1 < b.1) else if a.2.1 ≠ b.2.1 then decide (a.2.1 < b.2.1) else decide (a.2.2 < b.2.2)

def firstPoisonOf (l : List (Nat × Nat × Nat)) : Option (Nat × Nat × Nat) :=
  l.foldl (fun a p => match a with | none => some p | some q => if poisonBefore p q then some p else some q) none

/-- The gradient set of a product that ended with `DONE` at its last micro-batch closes: its frames are empty (R289). -/
def State.closeSet (s : State) (j id : Nat) : State :=
  match (s.job j).bind fun x => x.sets.find? fun g => g.tensorId == id with
  | none => s
  | some g =>
    let frames := g.pins.flatMap fun p => p.2.map fun f => (p.1, f)
    let s := frames.foldl (fun s p => s.write (windowDA p.1 (0x11_F800 + 64 * p.2 + 16)) (leBytes 1 0)) s
    s.modJob j fun x => { x with sets := x.sets.filter fun g => g.tensorId != id }

/-- The operation becomes final with a status; `rep` is its result block. -/
def State.endOp (s : State) (w : Work) (o : OpRun) (status : Nat) (rep : List Byte) : State :=
  let s := s.pushEnded w o status
  (s.setWatermark w.seq o.mark).finish w.seq status rep

/-- The operation ends with a status that says nothing of its data: the truncated groups that it has met are reported and added
to the job's total (R139, R140). -/
def State.endPlain (s : State) (w : Work) (o : OpRun) (status : Nat) : State :=
  (s.modJob w.job fun x => { x with truncGroups := min (2 ^ 64 - 1) (x.truncGroups + o.trunc.length) }).endOp w o status
    (o.plainBlock (w.opcode == opcROW))

/-- Every item has ended and any apply pass is over: the final status of R139 and R225. The truncated groups of an operation
that ends with `INT_POISON`, as of one that ends on the data-abort path, are not added to the job's total (DESIGN CHOICE,
log 59). -/
def State.completeOp (s : State) (w : Work) (o : OpRun) : State :=
  let row := w.opcode == opcROW
  match firstPoisonOf o.poison with
  | some p => s.endOp w o St.intPoison (resultBlock o row p.2.1 0 p.2.2 0 o.countA o.countB o.mark)
  | none =>
    let s := s.modJob w.job fun x => { x with truncGroups := min (2 ^ 64 - 1) (x.truncGroups + o.trunc.length) }
    match o.index with
    | some f =>
      (s.sparseRecord w.job f false).endOp w o St.sparseIndex
        (resultBlock o row f.operand f.bit f.da o.trunc.length o.countA o.countB o.mark)
    | none =>
      let s := match (s.job w.job).bind fun x => x.setOf o with
        | some g => if g.lastMb (OpDesc.parse w.params).microBatch then s.closeSet w.job g.tensorId else s
        | none => s
      s.endOp w o St.done (resultBlock o row 0 0 0 o.trunc.length o.countA o.countB o.mark)

/-! ### Items that write nothing of their own -/

/-- Items that cover no array tile become final at the moment they become eligible (R163, R199). -/
def OpRun.nextEmpty (o : OpRun) (b : Body) (emptyItem : Item → Bool) : Option Nat :=
  (List.range o.tiling.items).find? fun i =>
    let it := b.item o i
    !o.ended i && !o.isOut i && emptyItem it && it.deps.all o.ended

def State.itemFinal (s : State) (seq i : Nat) : State :=
  let s := s.modOp seq fun o => { o with final := store false o.final i true }
  let s := (s.setBit seq i).signalOf seq
  match s.opRun seq with
  | some o => s.setWatermark seq o.mark
  | none => s

/-- The block of an item of a `WGB` product, numbered row-major (R287). -/
def GradSet.blockOf (g : GradSet) (it : Item) : Nat := it.im * ceilDiv g.cols (48 * g.b) + it.jn

/-- A pinned item is taken at its micro-batch: by its tile, or by no tile when all of its array tiles are skipped (R163,
R289). -/
def State.blockTaken (s : State) (seq i : Nat) : State :=
  match s.work seq with
  | none => s
  | some w => s.modJob w.job fun j =>
    match w.op, w.body j.mapping with
    | some o, some b =>
      (match j.setOf o with
       | some g =>
         let e := (g.blockOf (b.item o i), (OpDesc.parse w.params).microBatch)
         { j with sets := j.sets.map fun h => if h.tensorId == g.tensorId then { h with taken := e :: h.taken } else h }
       | none => j)
    | _, _ => j

/-- Items made final, and ACLK cycles of their array steps, count in the span of the operation's context (R300). -/
def State.countSpan (s : State) (seq items cyc : Nat) : State :=
  match (s.work seq).bind Work.ctx with
  | some c => s.modCtx c fun k => { k with spanItems := k.spanItems + items, spanCyc := k.spanCyc + cyc }
  | none => s

def State.cascade (s : State) (seq : Nat) (b : Body) (emptyItem : Item → Bool) : Nat → State
  | 0 => s
  | n + 1 =>
    match (s.opRun seq).bind fun o => o.nextEmpty b emptyItem with
    | some i => (((s.itemFinal seq i).countSpan seq 1 0).blockTaken seq i).cascade seq b emptyItem n
    | none => s

/-- The items of an operation that cover no array tile to compute. -/
def State.emptyItems (s : State) (w : Work) (o : OpRun) (b : Body) : Item → Bool :=
  match b, s.job w.job with
  | .op v, some j => fun it => ((mkFeed v o j w.step s.byte).live it).isEmpty
  | _, _ => fun _ => false

/-- When every item has ended, an ordered store begins its apply pass (R257); any other operation is complete. -/
def State.tryComplete (s : State) (seq : Nat) : State :=
  match s.work seq with
  | none => s
  | some w =>
    match w.op with
    | none => s
    | some o =>
      if !o.started || !o.allEnded || !o.out.isEmpty || w.cancelling then s
      else if o.ordered then s.modOp seq fun o => { o with applying := true }
      else s.completeOp w o

/-- Marks what has become final without work, then completes the operation if nothing is left. -/
def State.afterItems (s : State) (seq : Nat) : State :=
  match s.work seq with
  | none => s
  | some w =>
    match w.op, (s.job w.job).bind fun j => w.body j.mapping with
    | some o, some b =>
      (s.cascade seq b (s.emptyItems w o b) o.tiling.items).tryComplete seq
    | _, _ => s

/-! ### The start of an operation (R196, R134, R163, R203) -/

/-- Bound hayloft operands take the place of the operand's base and strides (R283). -/
def rowMajor : List Nat → List Int
  | [] => []
  | _ :: ns => ((ns.foldl (· * ·) 1 : Nat) : Int) :: rowMajor ns

def patchTensor (b : List Byte) (h : Held) (e : HayEntry) : List Byte :=
  let base := e.da + 256
  let scale := if h.fmt.isMx ∧ !h.t.sparse then base + r32 (ceilDiv (h.size * h.fmt.bits) 8) else h.t.scaleDa
  let ss := rowMajor h.shape
  let strides := (List.range 6).flatMap fun d =>
    if h.t.sparse then leBytes 8 0 else leBytes 8 (BitVec.ofInt 64 ((ss[d]?).getD 0)).toNat
  b.take 8 ++ leBytes 8 base ++ leBytes 8 scale ++ (b.drop 24).take 24 ++ strides ++ b.drop 96

/-- The parameters with the descriptors of bound operands patched; `off` is where the descriptors begin. -/
def patchParams (k : Ctx) (params : List Byte) (off : Nat) (hs : List Held) (dests : List Nat) : List Byte :=
  params.take off ++ hs.zipIdx.flatMap fun p =>
    let b := (params.drop (off + 160 * p.2)).take 160
    if dests.contains p.2 then b
    else match boundEntry k p.1.t with
      | some e => patchTensor b p.1 e
      | none => b

/-- The status of checks 15 to 18 with the tiling (R194, R196-R198). -/
def tilingOf (j : Job) (v : View) (rows kinds : List Nat) : Except Nat Tiling :=
  let cr := v.capturedGlobal rows
  match v.chooseTiling cr (v.scatterAll kinds) (v.wgbShape j) with
  | .error e => .error e
  | .ok t => if v.scratchNeed t cr ≤ j.scratch.len then .ok t else .error St.resSplitkScratch

/-- The kinds of all lead tiles that the device holds, from the recorded headers: the choice of SCATTER, and with it Smax, looks at
the held tiles alone (R148, R194; DESIGN CHOICE, log 135: the spec does not say whether it looks at the whole tensor). -/
def View.leadKinds (v : View) (hs : List (Nat × List Byte)) : List Nat :=
  match v.leadPos with
  | none => []
  | some p => (List.range (v.op p).tileCount).map fun tL => (recordedHdr hs p tL).kind

def OpRun.fresh (t : Tiling) (ordered : Bool) (wgb : Option Nat) (push : Option Nat) (rows : List Nat) : OpRun :=
  { started := false, tiling := t, nextNew := 0, returned := [], again := [], out := [], final := [], spoiled := [], poison := [],
    index := none, abort := none, aborting := false, trunc := [], countA := 0, countB := 0, scratchDa := 0,
    scratchLen := 0, ordered := ordered, applying := false, applied := 0, added := [], orig := [], undo := [], capRows := rows, headers := [],
    wgbSet := wgb, pushSeq := push, compatTiles := [] }

def Tiling.none : Tiling :=
  { mt := 0, nt := 0, kr := 0, granule := 0, f := 0, slots := 0, blocks := 0, batches := 0, items := 0 }

/-! #### Room in the split-k scratch (R198)

Each operation has a place of its own there while it runs, the lowest of a multiple of 256 bytes that is free; an operation
for which the running ones leave no room waits at its start (DESIGN CHOICE, log 57). -/

/-- The places of the job's running operations. -/
def State.scratchUsed (s : State) (j : Nat) : List Region :=
  s.works.filterMap fun w => match w.op with
    | some o => if w.job = j ∧ 0 < o.scratchLen then some ⟨o.scratchDa, o.scratchLen⟩ else none
    | none => none

/-- The lowest place for `need` bytes among `r` and the ends of the places in use. -/
def scratchFit (r : Region) (used : List Region) (need : Nat) : Option Nat :=
  let up (a : Nat) : Nat := (a + 255) / 256 * 256
  let starts := r.base :: used.map fun u => up (u.base + u.len)
  leastOf (starts.filter fun a => decide (a + need ≤ r.base + r.len) && !(used.any fun u => u.meets a need))
where
  leastOf (l : List Nat) : Option Nat := l.foldl (fun a i => match a with | none => some i | some k => some (min i k)) none

/-- Where an operation's scratch goes; none while there is no room. -/
def State.scratchPlace (s : State) (jn : Nat) (j : Job) (need : Nat) : Option Nat :=
  if need = 0 then some 0 else scratchFit j.scratch (s.scratchUsed jn) need

/-- The operation is the last one that the job has accepted (R207). -/
def State.noteAccepted (s : State) (seq j : Nat) (product : Bool) : State :=
  s.modJob j fun x =>
    { x with lastOp := seq, lastProduct := if product then seq else x.lastProduct, lastTiling := { x.lastTiling with items := 0 } }

/-- Records the tiling of an operation, as far as it is the job's last accepted product and its last accepted operation. The tiling
of a product with a sparse input is known at its start only; until then the registers show the tiling before it, with 0 items
(R207; DESIGN CHOICE, log 146). -/
def State.lastTiling (s : State) (seq j : Nat) (t : Tiling) : State :=
  s.modJob j fun x =>
    let y := if x.lastProduct = seq then { t with items := x.lastTiling.items } else x.lastTiling
    { x with lastTiling := if x.lastOp = seq then { y with items := t.items } else y }

/-- The ZERO tiles that stand in place of skipped array tiles of items that are never handed out (R163); a product of a
gradient set writes them at the set's last micro-batch alone (R289). -/
def State.writeSkipped (s : State) (w : Work) (x : Feed) : State :=
  let last := match (s.job w.job).bind fun j => w.op.bind j.setOf with
    | some g => g.lastMb x.v.d.microBatch
    | none => true
  let its := (List.range x.t.items).map fun i => x.v.item x.t i
  let skipped := (its.filter fun it => it.root && it.kind != .part && (x.live it).isEmpty).flatMap fun it =>
    it.tiles.map fun p => (it.batch, p)
  let s := if !last then s else skipped.foldl (fun s q =>
    let z := x.zeroTile q.1 q.2
    let s := s.devWrite w.job z.da z.bytes
    match z.hayOff, s.pushOf w with
    | some o, some e => s.write (e.da + 256 + o) z.bytes
    | _, _ => s) s
  s.modJob w.job fun j =>
    { j with assaySkipped := sat32 (j.assaySkipped + ((its.filter fun it => it.root && it.kind != .part).flatMap fun it =>
               it.tiles.filter fun p => x.skipped it.batch p).length)
             jigZero := sat32 (j.jigZero + (if last then skipped.length else 0))
             jigWritten := sat32 (j.jigWritten + (if last then skipped.length else 0)) }

/-- The operation starts with tiling `t`, headers `hs` and scratch at `da`: its entry runs, and its items are handed out as
they can be (R196, R200). -/
def State.startItems (s : State) (w : Work) (o : OpRun) (j : Job) (v : View) (params : List Byte) (t : Tiling)
    (hs : List (Nat × List Byte)) (sparse : Bool) (da : Nat) : State :=
  let s := if sparse then s.lastTiling w.seq w.job t else s
  let s := s.startEntry w.seq
  let s := s.modWork w.seq fun w => { w with params := params }
  let s := (s.modEntry w.seq fun x => { x with nbits := t.items }).poolMark
  let need := if v.empty then 0 else v.scratchSpan t (v.capturedRows o.capRows).length
  let o := { o with started := true, tiling := t, headers := hs, ordered := v.ordered && !v.empty, scratchDa := da, scratchLen := need }
  let s := (s.modOp w.seq fun _ => o).signal w.job
  let x := mkFeed v o j w.step s.byte
  let s := if v.d.skipUnselected then s.writeSkipped w x else s
  s.afterItems w.seq

/-- The headers of the sparse tiles travel to the sequencer by message (R134, R260). -/
def State.carryHeaders (s : State) (hs : List (Nat × List Byte)) : State :=
  hs.foldl (fun s e => s.carry (s.agentOf (leNat (e.2.take 8))) .sequencer 7 (e.2.drop 8)) s

/-- Starts a product, ASSAY, PRUNE, REGROW or MAP whose turn has come. The items of one with a sparse input are known now, and its
bitmap needs room now (R394; DESIGN CHOICE, log 118). -/
def State.startBody (s : State) (w : Work) (o : OpRun) (j : Job) (v : View) (params : List Byte) : State :=
  let sparse := !v.sparseInputs.isEmpty && !v.empty
  let (bad, hs) := if sparse then v.headerPass s.byte s.poisonedAt else (none, [])
  match bad with
  | some f =>
    let s := if f.status = St.intPoison ∨ f.status = St.paramReserved then s else s.sparseRecord w.job f true
    s.endOp w o f.status (resultBlock { o with tiling := .none } false f.operand f.bit f.da 0 0 0 0)
  | none =>
    match (if sparse then tilingOf j v o.capRows (v.leadKinds hs) else .ok o.tiling) with
    | .error e => s.endOp w o e (resultBlock { o with tiling := .none } false 0 0 0 0 0 0 0)
    | .ok t =>
      if sparse && decide (poolBytes < s.poolUsed + bitmapBytes t.items) then
        s.endOp w o St.resBitmapPool (resultBlock { o with tiling := .none } false 0 0 0 0 0 0 0)
      else match s.scratchPlace w.job j (if v.empty then 0 else v.scratchSpan t (v.capturedRows o.capRows).length) with
      | none => s
      | some da => (s.carryHeaders hs).startItems w o j v params t hs sparse da

def State.startOp (s : State) (seq : Nat) : State :=
  match s.work seq with
  | none => s
  | some w =>
    match w.op, s.job w.job, w.ctx.bind s.ctx with
    | some o, some j, some k =>
      if !w.isOp || o.started || !s.atHead seq || s.pushWaits w && (OpDesc.parse w.params).skipUnselected then s
      else if w.opcode = opcROW then
        match mkRowView j.mapping (RowDesc.parse w.params) with
        | none => s
        | some v =>
          if !v.boundOk k then s.endOp w o St.stateHayloftTag (resultBlock { o with tiling := .none } true 0 0 0 0 0 0 0) else
          let p := patchParams k w.params 32 v.ops v.d.destinations
          let need := if v.empty then 0 else v.scratchSpan o.tiling.mt
          match s.scratchPlace w.job j need with
          | none => s
          | some da =>
            (((s.startEntry seq).modWork seq fun w =>
              { w with params := p, op := some { o with started := true, scratchDa := da, scratchLen := need } }).signal w.job).afterItems seq
      else if (OpDesc.parse w.params).kind = 6 then
        (s.startEntry seq).modOp seq fun o => { o with started := true }
      else
        match mkView j.mapping (OpDesc.parse w.params) with
        | none => s
        | some v =>
          let p := patchParams k w.params 208 v.ops v.d.destinations
          if v.boundStatus k ≠ 0 then s.endOp w o St.stateHayloftTag (resultBlock { o with tiling := .none } false 0 0 0 0 0 0 0)
          else match mkView j.mapping (OpDesc.parse p) with
            | none => s
            | some v => s.startBody w o j v p
    | _, _, _ => s

/-! ### The muster counter (R201-R203, R289) -/

/-- The tile may take items of the operation. -/
def Work.serves (w : Work) (p : Nat) : Bool :=
  w.opcode == opcROW || (let m := (OpDesc.parse w.params).paddocks; m == 0 || bit m p)

/-- The open operations that a tile may serve, in the order of R202. -/
def State.visit (s : State) (jn : Nat) (j : Job) (p : Nat) : List Work :=
  ((List.range 16).map fun i => (j.lastCtx + 1 + i) % 16).flatMap fun c =>
    s.works.filter fun w => w.job == jn && w.ctx == some c && w.isOp && !w.cancelling && w.serves p &&
      (match w.op with | some o => o.started && !o.aborting && !o.applying | none => false)

/-- The pinned item that a tile takes next: micro-batch, block, operation, item (R289). -/
def State.pinned (_s : State) (j : Job) (ws : List Work) (tile : Nat) : Option (Nat × Nat × Nat × Nat) :=
  let cands := ws.flatMap fun w =>
    match w.op, w.body j.mapping with
    | some o, some b =>
      (match j.setOf o with
       | some g =>
         let mb := (OpDesc.parse w.params).microBatch
         (List.range o.tiling.items).filterMap fun i =>
           let blk := g.blockOf (b.item o i)
           if !o.ended i && !o.isOut i && ((g.pins[blk]?).map Prod.fst == some tile) &&
              ((List.range (mb - g.mbFirst)).all fun q => g.taken.contains (blk, g.mbFirst + q)) then
             some (mb, blk, w.seq, i) else none
       | none => [])
    | _, _ => []
  cands.foldl (fun a c => match a with
    | none => some c
    | some d => if c.1 < d.1 ∨ (c.1 = d.1 ∧ c.2.1 < d.2.1) then some c else some d) none

def leastOf (l : List Nat) : Option Nat := l.foldl (fun a i => match a with | none => some i | some k => some (min i k)) none

/-- The item with which the counter answers a TAKE: operation and item. -/
def State.offer (s : State) (tile : Nat) : Option ItemRef :=
  match s.holder (paddockOf tile) with
  | none => none
  | some jn =>
    match s.job jn with
    | none => none
    | some j =>
      if (s.tile tile).quarantined || j.leaving.getLsbD (paddockOf tile) || s.power.handOutStopped || s.sec.off || j.releasing.isSome then none
      else
        let ws := s.visit jn j (paddockOf tile)
        let free := ws.filter fun w => match w.op with | some o => o.wgbSet.isNone | none => false
        match s.pinned j ws tile with
        | some (_, _, q, i) => some ⟨q, i⟩
        | none =>
          let first (f : Work → OpRun → Option Nat) : Option ItemRef :=
            free.findSome? fun w => (w.op.bind fun o => f w o).map fun i => ⟨w.seq, i⟩
          let combine (w : Work) (o : OpRun) : Option Nat :=
            (w.body j.mapping).bind fun b =>
              ((List.range o.tiling.items).drop (o.newCount (w.opcode == opcROW))).find? fun i =>
                !o.ended i && !o.isOut i && !o.returned.contains i && (b.item o i).deps.all o.ended
          let fresh (w : Work) (o : OpRun) : Option Nat :=
            if s.atHead w.seq then
              ((List.range (o.newCount (w.opcode == opcROW))).drop o.nextNew).find? fun i => !o.ended i && !o.isOut i
            else none
          (first fun _ o => leastOf o.returned).orElse fun _ => (first combine).orElse fun _ => first fresh

/-- The item is handed out to the tile. -/
def State.handOut (s : State) (tile : Nat) (r : ItemRef) : State :=
  match s.work r.op with
  | none => s
  | some w =>
    let s := s.modOp r.op fun o =>
      { o with out := o.out ++ [(r.item, tile)], returned := o.returned.filter (· != r.item),
               nextNew := if o.nextNew ≤ r.item ∧ r.item < o.newCount (w.opcode == opcROW) then r.item + 1 else o.nextNew }
    let s := s.modJob w.job fun j =>
      { j with itemsTaken := sat32 (j.itemsTaken + 1), lastCtx := w.ctx.getD j.lastCtx, signals := j.signals + 1 }
    s.blockTaken r.op r.item

/-- The last round of a tile's item. -/
def State.tileLast (s : State) (r : ItemRef) : Nat :=
  match s.work r.op with
  | none => 0
  | some w =>
    match w.op, (s.job w.job).bind fun j => w.body j.mapping with
    | some o, some (.op v) =>
      (match (v.item o.tiling r.item).kind with
       | .out | .part => (v.rounds o.tiling (v.item o.tiling r.item).f).length - 1
       | _ => 0)
    | _, _ => 0

/-- The tile was answered NONE and its job's counter has not signalled since: it does not ask (R201). The counter signals
when an operation starts or leaves the queue, an item becomes final, is handed out or is returned, a barrier lets entries
begin, and hand-out resumes (DESIGN CHOICE, log 58: the spec says only that it signals new items). -/
def State.waitsForSignal (s : State) (tile : Nat) : Bool :=
  match (s.tile tile).asked, s.holder (paddockOf tile) with
  | some (j, n), some k => j == k && (match s.job k with | some x => x.signals == n | none => false)
  | _, _ => false

/-- The number that the job of a tile's paddock has signalled. -/
def State.askedNow (s : State) (tile : Nat) : Option (Nat × Nat) :=
  (s.holder (paddockOf tile)).bind fun k => (s.job k).map fun x => (k, x.signals)

/-- The tile is in the final round of its item's COMPUTE and holds no item to come (R109). -/
def State.asksEarly (s : State) (tile : Nat) : Bool :=
  let t := s.tile tile
  match t.item with
  | some r => t.phase == .compute && t.next.isNone && t.round == s.tileLast r
  | none => false

/-- The tile's TAKE message goes out (R201, R260). -/
def State.sendTake (s : State) (tile : Nat) : State :=
  s.carry (.tile tile) .sequencer 1 (leBytes 4 ((s.holder (paddockOf tile)).getD 0) ++ leBytes 4 tile)

/-- The counter answers NONE, which counts for the job; the tile then waits for a signal (R201, R204). -/
def State.answerNone (s : State) (tile : Nat) : State :=
  let s := match s.holder (paddockOf tile) with
    | some j => s.modJob j fun x => { x with takeEmpty := sat32 (x.takeEmpty + 1) }
    | none => s
  ((s.modTile tile fun t => { t with asked := s.askedNow tile }).carry .sequencer (.tile tile) 1 []).send (.item tile none)

/-- The counter answers with an item: an idle tile begins to load it, one that asks early holds it as its next (R36, R109). -/
def State.answerItem (s : State) (tile : Nat) (r : ItemRef) (early : Bool) : State :=
  let s := s.handOut tile r
  let slots := s.slotsOf r
  let s := s.modTile tile fun t =>
    if early then { t with next := some r, asked := none }
    else { t.clear with phase := .load, item := some r, slotsUsed := slots, asked := none }
  (s.carry .sequencer (.tile tile) 1 (leBytes 4 r.op ++ leBytes 4 r.item)).send (.item tile (some r))

/-- A tile that is idle takes an item; a tile in the final round of its item's COMPUTE takes its next one (R109). -/
def State.takeItem (s : State) (tile : Nat) : State :=
  let early := s.asksEarly tile
  if (s.tile tile).quarantined || !((s.tile tile).phase == .idle || early) || s.waitsForSignal tile then s
  else
    let s := s.sendTake tile
    match s.offer tile with
    | none => s.answerNone tile
    | some r => s.answerItem tile r early

/-! ### Returned items and quarantine (R71, R201, R432-R434) -/

/-- The skips hold a write of the tile that they have not issued. -/
def State.unissued (s : State) (tile da : Nat) : Bool :=
  s.skips.any fun k => k.2.arrived.any fun r => r.owner == .tile tile && r.da == da

/-- A skip drops what it holds for one item of an operation: its pulls, its share of staged data and of the reads that are
outstanding, which are marked when no other item is to pull them, and its writes that have not been issued (R201, R237). -/
def Skip.dropItem (k : Skip) (op item tile : Nat) : Skip :=
  let left (us : List (Nat × Nat)) : List (Nat × Nat) := us.filter fun u => u.1 != item
  let staged := (k.staged.map fun g => if g.handle = op ∧ g.gen = 0 then { g with users := left g.users } else g).filter fun g =>
    !(g.handle == op && g.gen == 0 && g.users.isEmpty)
  { k with
    staged := staged
    drops := sat32 (k.drops + (k.staged.length - staged.length))
    reads := k.reads.map fun r =>
      if r.handle = op ∧ r.gen = 0 then { r with users := left r.users, marked := r.marked || (left r.users).isEmpty } else r
    pulls := k.pulls.filter fun p => !(p.handle == op && p.item == item)
    arrived := k.arrived.filter fun w => !(w.handle == op && w.owner == .tile tile) }

/-- An item of a tile goes to the returned list: its writes that have not been issued are dropped, additions that have been
are noted, so that the item computed again does not add them twice (R5, R201), and its data leaves the skips (R237). -/
def State.returnItem (s : State) (tile : Nat) (sent : List Nat) (r : ItemRef) : State :=
  match s.work r.op with
  | none => s
  | some w =>
    let done := sent.filter fun da => !s.unissued tile da
    let s := s.carry .sequencer .sequencer 1 (leBytes 4 r.op ++ leBytes 4 r.item)
    let s := s.modOp r.op fun o =>
      { o with out := o.out.filter fun p => p.1 != r.item, returned := o.returned ++ [r.item], again := o.again ++ [r.item],
               added := o.added ++ done.map fun da => (r.item, da) }
    let s := s.modJob w.job fun j => { j with itemsReturned := sat32 (j.itemsReturned + 1), signals := j.signals + 1 }
    (s.skips.map Prod.fst).foldl (fun s n => s.modSkip n fun k => k.dropItem r.op r.item tile) s

/-- A gradient set is lost: every product of it that is not `DONE` ends with `INT_WGB_LOST` and writes nothing (R290). -/
def State.loseSet (s : State) (j id : Nat) : State :=
  let s := s.modJob j fun x =>
    { x with setsLost := sat32 (x.setsLost + 1),
             sets := x.sets.map fun g => if g.tensorId == id then { g with lost := true } else g }
  (s.works.filter fun w => w.job == j && (match w.op with | some o => o.wgbSet == some id | none => false)).foldl
    (fun s w =>
      let s := (s.dropWork w.seq).1
      match s.opRun w.seq with
      | some o => s.endPlain w o St.intWgbLost
      | none => s) s

/-- The open sets with frames on a tile. -/
def State.loseSetsOn (s : State) (tile : Nat) : State :=
  (List.range 4).foldl (fun s j =>
    match s.job j with
    | none => s
    | some x => (x.sets.filter fun g => !g.lost && g.pins.any fun p => p.1 == tile).foldl
        (fun s g => s.loseSet j g.tensorId) s) s

/-- A launch on a tile that is quarantined ends with `PARTIAL` (R434). -/
def State.stopLaunch (s : State) (tile : Nat) : State :=
  match s.holder (paddockOf tile) with
  | none => s
  | some jn =>
    match s.job jn with
    | none => s
    | some j =>
      if !j.compat then s
      else (s.works.filter fun w => w.job == jn && w.opcode == opcOP_ISSUE && w.running).foldl (fun s w =>
        match w.op with
        | some o => s.endPlain w o St.partEnd
        | none => s) s

/-- Quarantines one tile with a cause and returns its items. -/
def State.quarantineOne (s : State) (tile cause : Nat) : State :=
  let t := s.tile tile
  if t.quarantined then s
  else
    let s := s.setTile tile { t.clear with next := none, work := [], quarantined := true, cause := cause }
    let s := s.loseSetsOn tile
    let s := t.item.toList.foldl (fun s r => s.returnItem tile t.sent r) s
    let s := t.next.toList.foldl (fun s r => s.returnItem tile [] r) s
    let s := s.stopLaunch tile
    s.countEvent fun j => j.paddocks.getLsbD (paddockOf tile)

/-- The tiles of a logical row in a quarter. -/
def rowTilesOf (q y : Nat) : List Nat := (List.range 8).map fun i => 32 * y + 8 * q + i

/-- Records a row for retirement, in OTP or in the permanent tables (R27, R433, R480). -/
def State.recordRow (s : State) (q y : Nat) : State × Nat :=
  let m := (s.otp.rows[q]?).getD RowMap.factory
  let phys := physRow s q y
  if m.spareAvail && m.pending.isNone then
    (({ s with otp := { s.otp with rows := s.otp.rows.set q { m with pending := some phys } } }).event 5 (leBytes 1 q ++ leBytes 1 phys), 5)
  else if s.life.permCount < permPlaces then
    ((s.permWrite [] [(q, phys)]).event 14 (leBytes 1 q ++ leBytes 1 phys), 6)
  else ({ s with life := { s.life with permFull := true } }, 6)

/-- Quarantine with the decision to retire the row (R432, R433). -/
def State.quarantine (s : State) (tile cause : Nat) : State :=
  if (s.tile tile).quarantined then s
  else
    let q := quarterOf tile
    let y := tileY tile
    let others := (rowTilesOf q y).filter (· != tile)
    let second := others.any fun n => (s.tile n).quarantined
    let s := s.quarantineOne tile cause
    if cause = 1 ∨ cause = 2 ∨ second then
      let recorded := (others ++ [tile]).any fun n => (s.tile n).cause == 5 || (s.tile n).cause == 6
      if recorded then s
      else
        let r := s.recordRow q y
        others.foldl (fun s n => s.quarantineOne n r.2) r.1
    else s

/-! ### The data-abort path (R136) -/

/-- Offenders and poisoned units of every sparse body, in the order of R137: the first abort offender, or the first
poisoned unit where a body holds one. -/
def Feed.abortOutcome (x : Feed) (poison : Nat → Bool) : Option Offender :=
  let tiles := x.v.sparseInputs.flatMap fun p => (List.range (x.v.op p).tileCount).map fun tL => (p, tL)
  let units (q : Nat × Nat) : List Nat :=
    let a := (recorded x.hs q.1 q.2).1 + 32
    ((touchedUnits a (recordedHdr x.hs q.1 q.2).body).filter poison)
  let noted := tiles.flatMap fun q => (units q).map fun u =>
    { status := St.intPoison, operand := q.1, tileSeq := ((x.v.op q.1).tileGeo q.2).seq, rank := 4, elem := 0, da := u, bit := 0 : Offender }
  match firstOffender noted with
  | some f => some f
  | none =>
    firstOffender ((tiles.filter fun q => (units q).isEmpty).flatMap fun q => (x.tileCheck q.1 q.2).1)

/-- Ends the operation on the data-abort path: the sparse bodies are judged as they lie in memory; `also` are offenders that
only the item itself met. -/
def State.abortOp (s : State) (w : Work) (x : Feed) (also : List Offender) : State :=
  let f := match ({ x with rd := s.byte } : Feed).abortOutcome s.poisonedAt with
    | some f => some f
    | none => firstOffender also
  let s := (s.dropWork w.seq).1
  let s := s.modOp w.seq fun o => { o with aborting := true, final := [], out := [] }
  let s := s.modEntry w.seq fun e => { e with bits := [], watermark := 0 }
  let s := s.modJob w.job fun j => { j with abortOps := sat16 (j.abortOps + 1) }
  match s.opRun w.seq, f with
  | some o, some f =>
    let s := if f.status = St.intPoison then s else s.sparseRecord w.job f true
    s.endOp w { o with applied := 0 } f.status (resultBlock o false f.operand f.bit f.da 0 0 0 0)
  | _, _ => s

end Sys2Proof.Machine
end

