-- ==== Sys2Proof/Machine/Hayloft.lean ====
section
/-! DEFINITION. The hayloft (R276-R285): reserving an entry, finding room for it, spilling and refilling, popping and
freeing. Where an entry lies changes no result; the model places entries at the lowest address that fits (DESIGN CHOICE,
log 27). -/

namespace Sys2Proof.Machine

/-! ### Places -/

/-- The lowest address at which `n` bytes fit in an area beside what occupies it. -/
def gapIn (area : Region) (occ : List Region) (n : Nat) : Option Nat :=
  let free (a : Nat) : Bool := decide (area.base ≤ a ∧ a + n ≤ area.base + area.len) && !(occ.any fun r => r.meets a n)
  let cands := (area.base :: occ.map fun r => r.base + r.len).filter free
  cands.foldl (fun a x => match a with | none => some x | some y => some (min x y)) none

def Ctx.hlArea (k : Ctx) : Region := ⟨k.hlDa, k.hlBytes⟩
def Ctx.spArea (k : Ctx) : Region := ⟨k.spDa, k.spBytes⟩

/-- What occupies the HBM4 area, and the spill area; the target of a copy counts from its start. -/
def Ctx.hlUsed (k : Ctx) : List Region :=
  k.hay.flatMap fun e => (if e.placed && !e.spilled then [⟨e.da, e.bytes⟩] else []) ++
    (if e.moving = some false then [⟨e.moveTo, e.bytes⟩] else [])
def Ctx.spUsed (k : Ctx) : List Region :=
  k.hay.flatMap fun e => (if e.placed && e.spilled then [⟨e.da, e.bytes⟩] else []) ++
    (if e.moving = some true then [⟨e.moveTo, e.bytes⟩] else [])

/-- Gives an entry its place and writes its first granule: the header and zeros (R280). -/
def State.placeEntry (s : State) (c : Nat) (e : HayEntry) (da : Nat) (spilled : Bool) : State :=
  let e := { e with da := da, spilled := spilled, placed := true }
  let s := s.write da (hayHeader e ++ List.replicate 192 0#8)
  s.modCtx c fun k => k.modHay e.seq fun _ => e

/-- The oldest entry that may be spilled: unbound and resident, filled or still filling (R281). -/
def Ctx.spillable (k : Ctx) : Option HayEntry :=
  k.hay.find? fun e => e.state != 2 && e.placed && !e.spilled && e.moving.isNone

/-- A spill of an entry begins, where the spill area has a place for it. -/
def State.beginSpill (s : State) (c : Nat) (k : Ctx) (x : HayEntry) : State :=
  match gapIn k.spArea k.spUsed x.bytes with
  | some da => s.modCtx c fun k => k.modHay x.seq fun x => { x with moving := some true, moveTo := da }
  | none => s

/-- Pushes that wait for a place take one where they fit; otherwise the oldest entries are spilled one after another
until they do (R281). -/
def State.makeRoom (s : State) (c : Nat) : Nat → State
  | 0 => s
  | fuel + 1 =>
    match s.ctx c with
    | none => s
    | some k =>
      match k.hay.find? fun e => !e.placed with
      | none => s
      | some e =>
        match gapIn k.hlArea k.hlUsed e.bytes with
        | some da => (s.placeEntry c e da false).makeRoom c fuel
        | none =>
          if k.hay.any fun x => x.moving == some true then s
          else match k.spillable with
            | some x => s.beginSpill c k x
            | none =>
              (match gapIn k.spArea k.spUsed e.bytes with
               | some da => (s.placeEntry c e da true).makeRoom c fuel
               | none => s)

/-- Waits end when nothing waits any more; their cycles are counted. -/
def State.endWaits (s : State) (c : Nat) : State :=
  s.modCtx c fun k =>
    if k.hay.any fun e => !e.placed then k
    else match k.pushSince with
      | some t => { k with pushWait := sat32 (k.pushWait + (s.sclk - t)), pushSince := none }
      | none => k

def State.room (s : State) (c : Nat) : State := (s.makeRoom c 4096).endWaits c

/-- The writes of a push must wait: a spill begins if none is under way. -/
def State.pushMustWait (s : State) (c : Nat) : State :=
  (s.modCtx c fun k => { k with pushSince := if k.pushSince.isNone then some s.sclk else k.pushSince }).room c

/-- Spilled entries come back, the youngest first, while they fit (R281). -/
def State.refill (s : State) (c : Nat) : Nat → State
  | 0 => s
  | fuel + 1 =>
    match s.ctx c with
    | none => s
    | some k =>
      if k.popSince.isNone && k.hay.any fun e => !e.placed then s
      else match k.hay.reverse.find? fun e => e.spilled && e.moving.isNone && e.state != 2 with
        | none => s
        | some e =>
          match gapIn k.hlArea k.hlUsed e.bytes with
          | none => s
          | some da =>
            (s.modCtx c fun k => k.modHay e.seq fun x => { x with moving := some false, moveTo := da }).refill c fuel

/-- A pop or a free has left room. -/
def State.roomLeft (s : State) (c : Nat) : State := (s.room c).refill c 4096

/-- A pop waits for a spilled entry. Where nothing brings it back and no spill is under way, the oldest unbound resident entries are
spilled until it fits (DESIGN CHOICE, log 149: R281 says only that the pop waits). -/
def State.popRoom (s : State) (c : Nat) (e : HayEntry) : State :=
  let s := s.roomLeft c
  match s.ctx c with
  | none => s
  | some k =>
    let stuck := k.hay.any fun x => x.seq == e.seq && x.spilled && x.moving.isNone
    if !stuck || k.hay.any fun x => x.moving.isSome then s
    else match k.spillable with
      | some x => s.beginSpill c k x
      | none => s

/-- A spill has left room: for pushes, and for the pop that waits. -/
def State.spillLeft (s : State) (c : Nat) : State :=
  let s := s.room c
  match s.ctx c with
  | none => s
  | some k =>
    if k.popSince.isNone then s
    else match k.hay.reverse.find? fun e => e.state != 2 with
      | some e => s.popRoom c e
      | none => s

/-! ### Reserving (R279) -/

/-- Reserves the entry of an accepted push; it takes its place at once where one is free. -/
def State.reserve (s : State) (c : Nat) (w : Work) (D : Held) (mb : Nat) : State :=
  match s.ctx c with
  | none => s
  | some k =>
    let e : HayEntry :=
      { tensorId := D.t.id, microBatch := mb, step := w.step, seq := k.pushes, bodyBytes := D.hayBody, format := D.t.format,
        ndim := D.t.ndim, sparse := D.t.sparse, slotBytes := if D.t.sparse then D.t.attr.slotBytes else 0, extents := D.shape,
        state := 0, pushedBy := w.seq, pushOk := false, pushFinal := false, boundBy := 0, da := 0, spilled := false, placed := false,
        moving := none, moveTo := 0 }
    let s := s.modCtx c fun k => { k with hay := k.hay ++ [e], pushes := k.pushes + 1, hlHigh := max k.hlHigh (k.hayHeld + e.bytes) }
    match gapIn k.hlArea k.hlUsed e.bytes with
    | some da => if k.hay.any fun x => !x.placed then s else s.placeEntry c e da false
    | none => s

/-! ### Copies between the areas -/

/-- Writes of a push that are on their way into the entry's place: a copy of it ends after them. -/
def State.entryBusy (s : State) (e : HayEntry) : Bool :=
  let mine (r : WriteReq) : Bool := r.hay && (⟨e.da, e.bytes⟩ : Region).has r.da 1
  s.skips.any fun k => k.2.arrived.any mine || k.2.issued.any mine

/-- The copy to DDR5 of the oldest moving entry is acknowledged. -/
def State.spillDone (s : State) (c : Nat) : State :=
  match s.ctx c with
  | none => s
  | some k =>
    match (k.hay.find? fun e => e.moving == some true).filter fun e => !s.entryBusy e with
    | none => s
    | some e =>
      let s := s.copyRange e.da e.moveTo e.bytes
      let s := s.modCtx c fun k =>
        { k.modHay e.seq fun x => { x with da := x.moveTo, spilled := true, moving := none } with spillOut := k.spillOut + e.bytes }
      s.spillLeft c

/-- The copy back of the youngest moving entry is acknowledged. -/
def State.refillDone (s : State) (c : Nat) : State :=
  match s.ctx c with
  | none => s
  | some k =>
    match (k.hay.reverse.find? fun e => e.moving == some false).filter fun e => !s.entryBusy e with
    | none => s
    | some e =>
      let s := s.copyRange e.da e.moveTo e.bytes
      let s := s.modCtx c fun k =>
        { k.modHay e.seq fun x => { x with da := x.moveTo, spilled := false, moving := none } with refill := k.refill + e.bytes }
      s.room c

/-! ### Popping and freeing (R282-R284) -/

/-- Frees an entry and lets others use its place. -/
def State.freeEntry (s : State) (c seq : Nat) : State :=
  (s.modCtx c fun k => { k with hay := k.hay.filter fun e => e.seq != seq }).roomLeft c

/-- The entries behind a pop that fails end with it (R282). -/
def State.popFails (s : State) (w : Work) (status : Nat) : State := (s.failBehind w.seq false).finish w.seq status []

/-- The time that pops of the context have waited, with the wait that ends at `now` (R281). -/
def Ctx.popWaited (k : Ctx) (now : Nat) : Nat :=
  match k.popSince with
  | some t => sat32 (k.popWait + (now - t))
  | none => k.popWait

def State.popTake (s : State) (seq : Nat) : State :=
  match s.work seq with
  | none => s
  | some w =>
    match w.ctx with
    | none => s
    | some c =>
      match s.ctx c with
      | none => s
      | some k =>
        if w.opcode ≠ 0x0312 ∨ !s.atHead seq then s
        else
          let id := le w.params 0 4
          match k.hay.reverse.find? fun e => e.state != 2 with
          | none => s.popFails w St.stateHayloftEmpty
          | some e =>
            if !e.pushFinal then s
            else if e.tensorId ≠ id ∨ (!bit (le w.params 8 1) 0 ∧ e.microBatch ≠ le w.params 4 4) ∨
                (k.hay.any fun x => x.state == 2 && x.tensorId == id) then s.popFails w St.stateHayloftTag
            else if 16 ≤ (k.hay.filter fun x => x.state == 2).length then s.popFails w St.resHayloftFull
            else if !e.pushOk then (s.freeEntry c e.seq).popFails w St.statePredFailed
            else if !e.placed || e.spilled || e.moving.isSome then
              let s := s.modCtx c fun k => { k with popSince := if k.popSince.isNone then some s.sclk else k.popSince }
              s.popRoom c e
            else
              let e := { e with state := 2, boundBy := seq }
              let s := s.modCtx c fun k =>
                { k.modHay e.seq fun _ => e with
                  popWait := k.popWaited s.sclk
                  popSince := none }
              ((s.hayState e).finish seq St.done []).roomLeft c

/-- The tensors that an entry reads: operands of an operation or row operation, the source of a collective (R283). -/
def Work.readTensors (w : Work) : List Tensor :=
  if w.opcode = opcOP_ISSUE then
    let d := OpDesc.parse w.params
    (d.operands.zipIdx.filter fun p => !d.destinations.contains p.2).map Prod.fst
  else if w.opcode = opcROW then
    let d := RowDesc.parse w.params
    (d.operands.zipIdx.filter fun p => !d.destinations.contains p.2).map Prod.fst
  else if w.opcode = opcCOLLECTIVE ∧ 1 ≤ le w.params 0 1 ∧ le w.params 0 1 ≤ 4 then [Tensor.parse ((w.params.drop 32).take 160)]
  else []

def State.freeTake (s : State) (seq : Nat) : State :=
  match s.work seq with
  | none => s
  | some w =>
    match w.ctx with
    | none => s
    | some c =>
      match s.ctx c with
      | none => s
      | some k =>
        if w.opcode ≠ 0x0313 ∨ !s.atHead seq then s
        else
          let id := le w.params 0 4
          match k.hay.find? fun e => e.state == 2 && e.tensorId == id with
          | none => s.finish seq St.stateHayloftTag []
          | some e =>
            if (s.before seq).any fun v => v.ctx == some c && seqBefore e.boundBy v.seq && v.readTensors.any fun t => t.id == id then s
            else (s.freeEntry c e.seq).finish seq St.done []

end Sys2Proof.Machine
end

