-- ==== Sys2Proof/Machine/Skips.lean ====
section
/-! DEFINITION. The skips and what a tile loads through them: requests, pulls, staging, run-ahead and eviction (R232,
R235-R240), where loaded bytes lie in the scratchpad (R36, R109), error correction on a read (R219-R224), and the writes of
STORE as the skips issue them (R218, R239). -/

namespace Sys2Proof.Machine

/-! ### The work of a tile -/

/-- Everything that the tile's current item works on. -/
structure ItemWork where
  w : Work
  o : OpRun
  j : Job
  b : Body
  it : Item
  r : ItemRef

/-- The work that a reference names. -/
def State.workOf (s : State) (r : ItemRef) : Option ItemWork :=
  match s.work r.op with
  | none => none
  | some w =>
    match w.op, s.job w.job with
    | some o, some j =>
      (match w.body j.mapping with
       | some b => some { w := w, o := o, j := j, b := b, it := b.item o r.item, r := r }
       | none => none)
    | _, _ => none

def State.tileWork (s : State) (tile : Nat) : Option ItemWork := if s.sec.off then none else (s.tile tile).item.bind s.workOf

/-- What an item is, apart from the bytes that it loads: its shape and its recorded headers. -/
def ItemWork.shape (q : ItemWork) (v : View) : Feed := mkFeed v q.o q.j q.w.step fun _ => 0#8

def ItemWork.set (q : ItemWork) : Option GradSet := q.j.setOf q.o
def ItemWork.mb (q : ItemWork) : Nat := (OpDesc.parse q.w.params).microBatch

def ItemWork.epi (q : ItemWork) : Bool := match q.b with | .op v => epilogueItem v q.set q.it | .row _ => true

/-- What the item loads in a round. -/
def ItemWork.reads (q : ItemWork) (round : Nat) : List Read :=
  match q.b with
  | .op v => (q.shape v).reads q.it round q.epi
  | .row v => v.reads q.o.tiling.mt q.o.scratchDa q.r.item

/-- The array tiles that the item computes; a row item and the fold item count as one. -/
def ItemWork.live (q : ItemWork) : List (Nat × Nat) :=
  match q.b with
  | .op v => (q.shape v).live q.it
  | .row _ => q.it.tiles

def ItemWork.runsK (q : ItemWork) : Bool := q.it.kind == .out || q.it.kind == .part

def ItemWork.rounds (q : ItemWork) : List (Nat × Nat) :=
  match q.b with
  | .op v => if q.runsK then v.rounds q.o.tiling q.it.f else [(0, 0)]
  | .row _ => [(0, 0)]

/-- The item takes SCATTER (R148). -/
def ItemWork.scatter (q : ItemWork) : Bool := match q.b with | .op v => (q.shape v).itemScatter q.it | .row _ => false

/-! ### Read requests (R232) -/

/-- The lines of an operand are read by 32-byte sectors: its innermost stride is not 1. -/
def Body.sector (b : Body) (pos : Nat) : Bool :=
  let strided (t : Tensor) : Bool := !t.sparse && (t.strides[t.ndim - 1]?).getD 1 != 1
  match b with
  | .op v => decide (pos < v.ops.length) && strided (v.op pos).t
  | .row v => decide (pos < v.ops.length) && strided (v.op pos).t

/-- The bases of the `z`-byte requests that ranges meet, in order of first touch. -/
def basesOf (z : Nat) (rs : List Read) : List Nat :=
  (rs.flatMap fun r =>
    if r.2.2 = 0 then [] else
      (List.range ((r.2.1 + r.2.2 - 1) / z - r.2.1 / z + 1)).map fun i => r.2.1 / z * z + z * i).dedup

/-- The requests that ranges cost, line after line, each with its line: base, size, and how many earlier lines have asked for
the same bytes (R232). -/
def requestsOf (sector : Nat → Bool) (rs : List Read) : List ((Nat × Nat) × Nat × Nat × Nat) :=
  let l := ((rs.map Prod.fst).dedup).flatMap fun k =>
    let z := if sector k.1 then 32 else 256
    (basesOf z (rs.filter fun r => r.1 == k)).map fun a => (k, a, z)
  l.zipIdx.map fun e => (e.1.1, e.1.2.1, e.1.2.2, (l.take e.2).countP fun y => y.2 == e.1.2)

/-- The requests of a round of an item. -/
def ItemWork.requests (q : ItemWork) (round : Nat) : List (Nat × Nat × Nat) :=
  (requestsOf q.b.sector (q.reads round)).map Prod.snd

/-- What an access of an operation may reach (R24): its
job's regions, its own part of the split-k scratch, and the hayloft entries of its context. -/
def State.mayAccess (s : State) (w : Work) (o : OpRun) (da len : Nat) : Bool :=
  len == 0 || (match s.job w.job with | some j => j.inRegions da len | none => false) ||
  (⟨o.scratchDa, o.scratchLen⟩ : Region).has da len ||
  (match w.ctx.bind s.ctx with
   | some k => k.hay.any fun e => e.placed && (⟨e.da, e.bytes⟩ : Region).has da len
   | none => false)

/-- An operation whose accesses are refused: `PARAM_TARGET` where one of them is outside every mapped range (R209), and else
`SEC_WINDOW` (R24); the precedence is DEDUCED (log 128). -/
def State.refuseAccess (s : State) (w : Work) (rs : List (Nat × Nat)) : State :=
  let st := if rs.any fun r => r.2 != 0 && !s.mapped r.1 r.2 then St.paramTarget else St.secWindow
  let s := (s.dropWork w.seq).1
  match s.opRun w.seq with
  | some o => s.endPlain w o st
  | none => s

/-! ### Loaded bytes in the scratchpad (R36, R81, R109)

Operand bytes lie packed from scratchpad offset 0 in ascending DA, each byte once; what R195 does not count in the reservation
(scale factors, mask tiles) may find no room below the extended slots and then stays with the router (DESIGN CHOICE, log 61: the
spec gives no layout). -/

/-- Adds a range to disjoint ranges in ascending address, joining those that meet. -/
def insertSpan (a n : Nat) : List (Nat × Nat) → List (Nat × Nat)
  | [] => [(a, n)]
  | p :: r =>
    if a + n < p.1 then (a, n) :: p :: r
    else if p.1 + p.2 < a then p :: insertSpan a n r
    else insertSpan (min a p.1) (max (a + n) (p.1 + p.2) - min a p.1) r

/-- The bytes of ranges as disjoint ranges in ascending address. -/
def spansOf (rs : List Read) : List (Nat × Nat) :=
  rs.foldl (fun m r => if r.2.2 = 0 then m else insertSpan r.2.1 r.2.2 m) []

/-- Gives ranges their scratchpad offsets from `next` on, as far as there is room. -/
def growPlaces (limit : Nat) : Nat → List (Nat × Nat) → List Place × Nat
  | next, [] => ([], next)
  | next, (a, len) :: r =>
    let n := min len (limit - next)
    let g := growPlaces limit (next + n) r
    ((if n = 0 then [] else [{ da := a, len := n, off := some next }]) ++
      (if n = len then [] else [{ da := a + n, len := len - n, off := none }]) ++ g.1, g.2)

/-- Where the scratchpad ends for operands and jig output: at the extended slots of the item (R81). -/
def spadLimit (slots : Nat) : Nat := 0xC_0000 - (slots - 14) * 0x4800

/-- The part of bytes arriving for address `g` that belongs to a place. -/
def Place.cut (p : Place) (g : Nat) (bs : List Byte) : Option (Nat × List Byte) :=
  let lo := max p.da g
  let hi := min (p.da + p.len) (g + bs.length)
  if lo < hi then some (lo, (bs.drop (lo - g)).take (hi - lo)) else none

/-- Writes bytes of a place: into the scratchpad, or they stay with the router. -/
def State.placeBytes (s : State) (tile : Nat) (p : Place) (da : Nat) (bs : List Byte) : State :=
  match p.off with
  | some off => s.write (windowDA tile (off + (da - p.da))) bs
  | none => s.modTile tile fun t => { t with loaded := storeRun 0#8 t.loaded da bs }

/-- Poison of 32-byte pieces marks the scratchpad words that they fill (R223). -/
def State.placePoison (s : State) (tile : Nat) (p : Place) (da len : Nat) : State :=
  let t := s.tile tile
  match p.off with
  | some off => (pieces da len).foldl (fun s u =>
      if lookup false t.loadedPoison u then
        let lo := max u da
        (touchedUnits (windowDA tile (off + (lo - p.da))) (min (u + 32) (da + len) - lo)).foldl State.mark s
      else s) s
  | none => s

/-- LOAD has begun and its pull is out: the bytes that waited in the router go where they belong (R109). -/
def State.settleLoad (s : State) (tile : Nat) : State :=
  let t := s.tile tile
  match (if t.phase = .load ∧ t.pullSent ∧ t.places.isEmpty then t.item else none).bind s.workOf with
  | none => s
  | some q =>
    let (ps, next) := growPlaces (spadLimit t.slotsUsed) 0 (spansOf (q.reads t.round))
    let stays (a : Nat) : Bool := ps.any fun p => p.off.isNone && decide (p.da ≤ a ∧ a < p.da + p.len)
    let s := s.modTile tile fun t => { t with places := ps, jigAt := next, loaded := t.loaded.filter fun e => stays e.1 }
    ps.foldl (fun s p => match p.off with
      | some _ => (s.placeBytes tile p p.da (loadRun 0#8 t.loaded p.da p.len)).placePoison tile p p.da p.len
      | none => s) s

/-- An operand byte of the round, by its DA. -/
def State.tileRd (s : State) (tile da : Nat) : Byte :=
  match (s.tile tile).places.find? fun p => decide (p.da ≤ da ∧ da < p.da + p.len) with
  | some { da := a, len := _, off := some off } => s.byte (windowDA tile (off + (da - a)))
  | _ => lookup 0#8 (s.tile tile).loaded da

/-- What an item that has been returned in STORE read where it has written since: the byte, and whether it was poisoned (R5). -/
def OpRun.pastByte (o : OpRun) (item da : Nat) : Option (Byte × Bool) :=
  (o.undo.find? fun e => e.1 == item && e.2.1 == da).map fun e => e.2.2

/-- What an item reads where it, or an item of a PRUNE or REGROW of scope LINE, has written the place since (R5, R164). -/
def OpRun.before (o : OpRun) (item : Nat) (rd : Nat → Byte) (da : Nat) : Byte :=
  match o.pastByte item da with
  | some e => e.1
  | none => (lookup none o.orig da).getD (rd da)

/-- The 32-byte piece at `u` came poisoned to the tile's item, or did so before the item was returned in STORE (R5, R223). -/
def ItemWork.met (q : ItemWork) (t : Tile) (u : Nat) : Bool :=
  match q.o.undo.find? fun e => e.1 == q.r.item && decide (u ≤ e.2.1 ∧ e.2.1 < u + 32) with
  | some e => e.2.2.2
  | none => lookup false t.loadedPoison u

/-- What the tile's item computes from: the bytes that it has loaded. -/
def State.feed (s : State) (tile : Nat) (q : ItemWork) (v : View) : Feed :=
  mkFeed v q.o q.j q.w.step (q.o.before q.r.item (s.tileRd tile))
def State.rowFeed (s : State) (tile : Nat) (q : ItemWork) (v : RowView) : RowFeed :=
  mkRowFeed v q.o q.j q.w.step (q.o.before q.r.item (s.tileRd tile))

/-! ### Pulls (R236-R240) -/

/-- The item and round whose pull the tile issues now: its own round, the next round during COMPUTE, the next item's
first round during STORE (R109). -/
def State.pullTarget (s : State) (tile : Nat) : Option (ItemRef × Nat) :=
  let t := s.tile tile
  if t.pullSent then none
  else match t.phase with
    | .idle => none
    | .load => t.item.map fun r => (r, t.round)
    | .compute => t.item.bind fun r => if t.round < s.tileLast r then some (r, t.round + 1) else none
    | .store => t.next.map fun r => (r, 0)

/-- The tile controller sends one pull request to each skip that stages part of the round (R238); the tile waits for their
data, and what it holds of another item is gone. -/
def State.sendPulls (s : State) (tile : Nat) (r : ItemRef) (round : Nat) (q : ItemWork) : State :=
  let t := s.tile tile
  let t := if r = t.item.getD r ∧ t.phase ≠ .store then t else { t with loaded := [], loadedPoison := [] }
  let pulls := (q.requests round).filterMap fun g => (s.skipOf g.1).map fun k => (k, g)
  let s := s.setTile tile { t with pulls := pulls, waitFor := pulls.map Prod.snd, pullSent := true }
  let s := ((pulls.map Prod.fst).dedup).foldl (fun s k =>
    s.carry (.tile tile) (.skip k) 2 (leBytes 4 r.op ++ leBytes 4 r.item ++ leBytes 4 round)) s
  s.settleLoad tile

/-- The pulls for the tile's next round go out, unless the item may not read what it would load, which ends its operation
(R24). -/
def State.issuePull (s : State) (tile : Nat) : State :=
  match s.pullTarget tile with
  | none => s
  | some (r, round) =>
    match s.workOf r with
    | none => s
    | some q =>
      if (q.reads round).any fun a => !s.mayAccess q.w q.o a.2.1 a.2.2 then s.refuseAccess q.w ((q.reads round).map Prod.snd)
      else s.sendPulls tile r round q

def Skip.readLimit (s : State) (n : Nat) : Nat := if s.restricted then 4 else if n < 32 then 1024 else 512
def Skip.writeLimit (s : State) (n : Nat) : Nat := if s.restricted then 4 else if n < 32 then 512 else if n < 44 then 256 else 512

/-- The skip that shares the staging buffer of an HBM skip (R32). -/
def pairOf (n : Nat) : Nat := if n % 2 = 0 then n + 1 else n - 1

/-- Bytes that a skip's staging buffer holds: 2 MiB for an HBM pair, 1 MiB for the others (R235). -/
def stageRoom (n : Nat) : Nat := if n < 32 then 2 ^ 21 else 2 ^ 20

def Skip.stagedBytes (k : Skip) : Nat := k.staged.foldl (fun a g => a + g.size) 0
def Skip.comingBytes (k : Skip) : Nat := k.reads.foldl (fun a r => a + r.size) 0

/-- Bytes in a staging buffer, and with the reads that will fill it; an HBM pair shares one. -/
def State.stageHeld (s : State) (n : Nat) : Nat :=
  (s.skip n).stagedBytes + (if n < 32 then (s.skip (pairOf n)).stagedBytes else 0)
def State.stageUsed (s : State) (n : Nat) : Nat :=
  s.stageHeld n + (s.skip n).comingBytes + (if n < 32 then (s.skip (pairOf n)).comingBytes else 0)

/-- The data of a request reaches a tile: in LOAD it goes into the scratchpad, before it waits in the router (R109). -/
def State.arrive (s : State) (tile g size copy : Nat) (bs : List Byte) (poison : List Bool) : State :=
  let s := s.modTile tile fun t =>
    { t with
      loadedPoison := poison.zipIdx.foldl (fun m p => store false m (g + 32 * p.2) p.1) t.loadedPoison
      waitFor := t.waitFor.filter (· != (g, size, copy)) }
  let t := s.tile tile
  if t.phase = .load then
    t.places.foldl (fun s p => match p.cut g bs with
      | some c => (s.placeBytes tile p c.1 c.2).placePoison tile p c.1 c.2.length
      | none => s) s
  else s.modTile tile fun t => { t with loaded := storeRun 0#8 t.loaded g bs }

/-- Pulls whose data is staged receive it; it leaves staging when every pull that needs it has read it (R237, R238). The data
of a pull that is small enough in all travels by message (R260). -/
def State.serve (s : State) (n : Nat) (st : Staged) : State :=
  let k := s.skip n
  let hit (p : Pull) : Bool := p.granule == st.granule && p.size == st.size && p.copy == st.copy && p.handle == st.handle
  let mine := k.pulls.filter hit
  let s := mine.foldl (fun s p =>
    let all := ((k.pulls.filter fun x => x.tile == p.tile && x.handle == p.handle && x.round == p.round).map Pull.size).foldl (· + ·) 0
    let s := if stpFits all then s.carryMarked (.skip n) (.tile p.tile) 5 st.bytes st.poison else s
    s.arrive p.tile st.granule st.size st.copy st.bytes st.poison) s
  let left := st.users.filter fun u => !(mine.any fun p => p.item == u.1 && p.round == u.2)
  s.modSkip n fun k =>
    { k with
      pulls := k.pulls.filter fun p => !hit p
      staged := (k.staged.filter fun g => !(g.granule == st.granule && g.size == st.size && g.copy == st.copy && g.handle == st.handle)) ++
        (if left.isEmpty then [] else [{ st with users := left }]) }

/-- The staged data of operations, whose pulls name their handle. -/
def State.serveAll (s : State) (n : Nat) : State :=
  ((s.skip n).staged.filter fun st => st.gen == 0).foldl (fun s st => s.serve n st) s

/-- A pull waits for data that is neither staged nor being read: those of items taken for the first time come before those
of items that were returned (classes 1 and 2 of R236), each in order of arrival. -/
def Skip.wanted (k : Skip) : Option Pull :=
  let missing (p : Pull) : Bool :=
    !(k.reads.any fun r => r.granule == p.granule && r.size == p.size && r.copy == p.copy && r.handle == p.handle && !r.marked) &&
    !(k.staged.any fun g => g.granule == p.granule && g.size == p.size && g.copy == p.copy && g.handle == p.handle)
  (k.pulls.find? fun p => !p.again && missing p).orElse fun _ => k.pulls.find? missing

/-- A tile has taken an item that needs the data. -/
def State.taken (s : State) (g : Staged) : Bool :=
  match s.opRun g.handle with
  | some o => g.users.any fun u => o.isOut u.1
  | none => true

/-- The skips that share a staging buffer. -/
def stageSkips (n : Nat) : List Nat := if n < 32 then [n, pairOf n] else [n]

/-- The staged data of the highest-numbered item that no tile has taken, in the buffer that a skip uses, with its skip. -/
def State.spare (s : State) (n : Nat) : Option (Nat × Staged) :=
  let top (g : Nat × Staged) : Nat := g.2.users.foldl (fun a u => max a u.1) 0
  ((stageSkips n).flatMap fun m => ((s.skip m).staged.filter fun g => g.gen == 0 && !s.taken g).map fun g => (m, g)).foldl
    (fun a g => match a with
      | none => some g
      | some h => if top h < top g then some g else some h) none

/-- A read that finds staging full evicts data of the highest-numbered items that no tile has taken, until it fits
(R237). -/
def State.evict (s : State) (n size : Nat) : Nat → State
  | 0 => s
  | fuel + 1 =>
    if s.stageUsed n + size ≤ stageRoom n then s
    else
      match s.spare n with
      | none => s
      | some (m, g) =>
        (s.modSkip m fun k => { k with staged := k.staged.filter (· != g), drops := sat32 (k.drops + 1) }).evict n size fuel

/-- Room is made for a read, as far as eviction can. -/
def State.makeStage (s : State) (n size : Nat) : State :=
  s.evict n size ((stageSkips n).foldl (fun a m => a + (s.skip m).staged.length) 0)

/-- A read of a pull or a stream must wait: the staging buffer is full, and reads that are coming into it will leave something to
evict or to hand on. With none coming the read goes out all the same, since what it brings passes through to the tile or the
stream that waits for it (R237: staging holds back no taken item). -/
def State.stageBusy (s : State) (n size : Nat) : Bool :=
  decide (stageRoom n < s.stageUsed n + size) && (stageSkips n).any fun m => !(s.skip m).reads.isEmpty

/-- The skip is at a limit while a request waits: the cycle counts (R240; the model counts one for each command that finds it
so, DESIGN CHOICE, log 12). -/
def State.atLimit (s : State) (n : Nat) : State := s.modSkip n fun k => { k with limits := sat32 (k.limits + 1) }

/-- A read request is issued. -/
def State.issueRead (s : State) (n : Nat) (r : ReadReq) : State :=
  s.modSkip n fun k => { k with reads := k.reads ++ [r], readsCount := sat32 (k.readsCount + 1) }

/-- Reads for waiting pulls, up to the limit and as staging has room. -/
def State.pumpPulls (s : State) (n : Nat) : Nat → State
  | 0 => s
  | fuel + 1 =>
    match (s.skip n).wanted with
    | none => s
    | some p =>
      if Skip.readLimit s n ≤ (s.skip n).reads.length then s.atLimit n
      else
        let s := s.makeStage n p.size
        if s.stageBusy n p.size then s
        else
          (s.issueRead n { handle := p.handle, gen := 0, granule := p.granule, size := p.size, copy := p.copy,
                           users := [(p.item, p.round)], marked := false }).pumpPulls n fuel

/-- Reads of streams and of the fabric that have waited for the limit or for staging, in order of arrival (R240); they evict as
pulls do (DESIGN CHOICE, log 66). -/
def State.pumpWants (s : State) (n : Nat) : Nat → State
  | 0 => s
  | fuel + 1 =>
    match (s.skip n).wants with
    | [] => s
    | r :: rest =>
      if Skip.readLimit s n ≤ (s.skip n).reads.length then s.atLimit n
      else
        let s := s.makeStage n r.size
        if s.stageBusy n r.size then s
        else ((s.modSkip n fun k => { k with wants := rest }).issueRead n r).pumpWants n fuel

/-- The next item of an operation's walk whose data no tile has asked for: those that are out, ended or returned are passed
over; a combine or fold item waits until the items before it have written what it reads (R236). -/
def State.walkItem (s : State) (n : Nat) (w : Work) : Option ItemWork :=
  match w.op with
  | none => none
  | some o =>
    let i0 := lookup 0 (s.skip n).walk w.seq
    match ((List.range o.tiling.items).drop i0).find? fun i => !o.ended i && !o.isOut i && !o.returned.contains i with
    | none => none
    | some i => (s.workOf ⟨w.seq, i⟩).bind fun q => if q.it.deps.all o.ended then some q else none

/-- The requests of one item that a skip serves, with the rounds that need them. -/
def State.walkRequests (s : State) (n : Nat) (q : ItemWork) : List ((Nat × Nat × Nat) × Nat) :=
  q.rounds.zipIdx.flatMap fun r => ((q.requests r.2).filter fun g => s.skipOf g.1 == some n).map fun g => (g, r.2)

/-- As many requests as the read limit and the room in staging allow. -/
def fitting (reads room : Nat) : List (Nat × Nat × Nat) → List (Nat × Nat × Nat)
  | [] => []
  | g :: r => if reads = 0 ∨ room < g.2.1 then [] else g :: fitting (reads - 1) (room - g.2.1) r

/-- Run-ahead: the skip fetches the data of the next item of an operation's walk, request by request, while its staging and its
read limit have room; data in the staged window is fetched once, and the walk goes on when the item's data is all there or on its
way (class 3 of R236). -/
def State.runAhead (s : State) (n : Nat) (w : Work) : State :=
  match s.walkItem n w with
  | none => s
  | some q =>
    let k := s.skip n
    let gs := s.walkRequests n q
    let held (g : Nat × Nat × Nat) : Bool :=
      (k.reads.any fun r => (r.granule, r.size, r.copy) == g && r.handle == w.seq && !r.marked) ||
      (k.staged.any fun x => (x.granule, x.size, x.copy) == g && x.handle == w.seq)
    let fresh := ((gs.map Prod.fst).dedup).filter fun g => !held g
    let go := fitting (Skip.readLimit s n - k.reads.length) (stageRoom n - s.stageUsed n) fresh
    let users (g : Nat × Nat × Nat) : List (Nat × Nat) := (gs.filter fun x => x.1 == g).map fun x => (q.r.item, x.2)
    let join (l : List (Nat × Nat)) (g : Nat × Nat × Nat) : List (Nat × Nat) := l ++ (users g).filter fun u => !l.contains u
    s.modSkip n fun k =>
      { k with
        reads := (k.reads.map fun r => if r.handle == w.seq && !r.marked then { r with users := join r.users (r.granule, r.size, r.copy) } else r) ++
          go.map fun g => { handle := w.seq, gen := 0, granule := g.1, size := g.2.1, copy := g.2.2, users := users g, marked := false }
        staged := k.staged.map fun x => if x.handle == w.seq then { x with users := join x.users (x.granule, x.size, x.copy) } else x
        readsCount := sat32 (k.readsCount + go.length)
        walk := if go.length = fresh.length then store 0 k.walk w.seq (q.r.item + 1) else k.walk }

/-- The open operations of every job, in the order of R202. -/
def State.openOps (s : State) : List Work :=
  (List.range 4).flatMap fun jn => match s.job jn with
    | some j => ((List.range 16).map fun i => (j.lastCtx + 1 + i) % 16).flatMap fun c =>
        s.works.filter fun w => w.job == jn && w.ctx == some c && w.isOp && !w.cancelling &&
          (match w.op with | some o => o.started && !o.aborting && !o.applying | none => false)
    | none => []

/-- Passes of run-ahead over the open operations, an item of each in a pass, until a pass fetches nothing. -/
def State.runAheads (s : State) (n : Nat) : Nat → State
  | 0 => s
  | fuel + 1 =>
    let t := s.openOps.foldl (fun s w => s.runAhead n w) s
    if (t.skip n).walk = (s.skip n).walk ∧ (t.skip n).reads.length = (s.skip n).reads.length then t else t.runAheads n fuel

/-- What a skip does when it has room: serves staged data, reads for pulls and for streams, and runs ahead unless the device
is restricted (R236, R241). -/
def State.pumpOne (s : State) (n : Nat) : State :=
  let s := s.serveAll n
  let s := s.pumpPulls n ((s.skip n).pulls.length + 1)
  let s := s.pumpWants n ((s.skip n).wants.length + 1)
  if s.restricted then s else s.runAheads n (Skip.readLimit s n)

/-- A skip goes on, and the skip that shares its staging buffer. -/
def State.pump (s : State) (n : Nat) : State := (stageSkips n).foldl State.pumpOne s

/-- Every skip begins to run ahead for an operation that has started (R236). -/
def State.pumpAll (s : State) : State := (List.range 44).foldl State.pumpOne s

/-- A tile's pulls for a skip join those that wait there (R238). -/
def State.queuePulls (s : State) (n tile : Nat) (r : ItemRef) (round : Nat) : State :=
  let t := s.tile tile
  let again := match s.opRun r.op with | some o => o.again.contains r.item | none => false
  let s := s.setTile tile { t with pulls := t.pulls.filter fun p => p.1 != n }
  s.modSkip n fun k =>
    { k with
      pulls := k.pulls ++ (t.pulls.filter fun p => p.1 == n).map fun p =>
        { tile := tile, handle := r.op, item := r.item, round := round, granule := p.2.1, size := p.2.2.1, copy := p.2.2.2, again := again } }

/-- The pull request of a tile reaches a skip. -/
def State.pullAt (s : State) (n tile : Nat) : State :=
  let t := s.tile tile
  let r := match t.phase with
    | .store => t.next
    | _ => t.item
  match r with
  | none => s
  | some r =>
    let round := match t.phase with | .store => 0 | .compute => t.round + 1 | _ => t.round
    if t.pulls.any fun p => p.1 == n then (s.queuePulls n tile r round).pump n else s

/-! ### Error correction on a read (R219-R224) -/

def EccCount.zero : EccCount := ⟨0, 0⟩

/-- The tier's counter of a unit: a correction or an uncorrectable unit. -/
def State.countEcc (s : State) (da : Nat) (f : EccCount → EccCount) : State :=
  let m := s.memInfo
  if da < hbmBytes then
    { s with memInfo := { m with hbmEcc := store EccCount.zero m.hbmEcc (hbmStack da) (f (lookup EccCount.zero m.hbmEcc (hbmStack da))) } }
  else
    { s with memInfo := { m with ddrEcc := store EccCount.zero m.ddrEcc (s.ddrChannel da) (f (lookup EccCount.zero m.ddrEcc (s.ddrChannel da))) } }

/-- The `RES_MEM_LAST` registers hold the event of a memory tier (R234): 0 corrected, 1 uncorrectable, 2 consumed, 3 retired. -/
def State.memLast (s : State) (da kind : Nat) : State :=
  if tileBase ≤ da then s else
  let u := unitOf da
  { s with memInfo := { s.memInfo with
      lastTier := if da < hbmBytes then 1 else 2
      lastUnit := if da < hbmBytes then hbmStack da else s.ddrChannel da
      lastPc := if da < hbmBytes then hbmPc da else 0
      lastKind := kind
      lastDa := u } }

/-- A read or a scrub corrects a unit: one correction until its write-back is done (R221); a unit marked poisoned counts
nothing (R224). -/
def State.corrected (s : State) (da : Nat) : State :=
  let u := unitOf da
  if s.memInfo.writeBack.contains u || s.poisonedAt u then s
  else
    let s := s.countEcc da fun e => { e with corr := sat16 (e.corr + 1) }
    let s := { s with memInfo := { s.memInfo with writeBack := s.memInfo.writeBack ++ [u] } }
    let s := { s with corrections := store 0 s.corrections u (lookup 0 s.corrections u + 1) }
    s.memLast da 0

/-- A read or a scrub finds a unit uncorrectable: it becomes poisoned, and the event counts once (R224). -/
def State.uncorrectable (s : State) (da : Nat) : State :=
  if s.poisonedAt da then s
  else
    let s := s.countEcc da fun e => { e with uncorr := sat16 (e.uncorr + 1) }
    let s := { s with memInfo := { s.memInfo with failed := s.memInfo.failed ++ [unitOf da] } }
    ((s.mark (unitOf da)).memLast da 1).poisonSeen da

def State.applyEcc (s : State) (da : Nat) (e : Ecc) : State :=
  match e with
  | .clean => s
  | .corrected => s.corrected da
  | .uncorrectable => s.uncorrectable da

/-- The poison of the 32-byte pieces of a request's data. -/
def State.granulePoison (s : State) (g size : Nat) : List Bool := (List.range (size / 32)).map fun i => s.poisonedAt (g + 32 * i)

/-- What error correction found in the 32-byte pieces of a granule, in ascending address. -/
def State.applyEccs (s : State) (g : Nat) (es : List Ecc) : State :=
  es.zipIdx.foldl (fun s e => s.applyEcc (g + 32 * e.2) e.1) s

/-- The tile memory of a window offset: 1 scratchpad, 2 accumulator memory, 3 weight-gradient buffer (R75, R110). -/
def memoryAt (off : Nat) : Nat := if off < 0xC_0000 then 1 else if off < 0x10_0000 then 2 else 3

/-- Counts one ECC event of a tile memory, 1 scratchpad to 4 operand buffer (R110). -/
def Tile.eccEvent (t : Tile) (e : TileEcc) : Tile :=
  let i := e.memory - 1
  let c := (t.ecc[i]?).getD EccCount.zero
  { t with
    ecc := t.ecc.set i (if e.uncorrectable then ⟨c.corr, sat16 (c.uncorr + 1)⟩ else ⟨sat16 (c.corr + 1), c.uncorr⟩)
    eccLastUnit := e.memory
    eccLastUncorr := e.uncorrectable
    eccLastOffset := if e.memory = 4 then 0 else e.offset }

/-- What error correction found in one word or codeword of a tile memory: a corrected one counts, an uncorrectable one is
marked; one already marked counts nothing (R86, R97, R99, R224). -/
def State.windowEcc (s : State) (tile off : Nat) (e : Ecc) : State :=
  if s.poisonedAt (windowDA tile off) then s
  else match e with
    | .clean => s
    | .corrected => s.modTile tile fun t => t.eccEvent ⟨memoryAt off, off, false⟩
    | .uncorrectable =>
      (s.modTile tile fun t => t.eccEvent ⟨memoryAt off, off, true⟩).mark (unitOf (windowDA tile off))

/-- What error correction found in one unit, wherever it lies. -/
def State.readEcc (s : State) (da : Nat) (e : Ecc) : State :=
  match s.regionOf da with
  | .tile n off => s.windowEcc n off e
  | .hbm | .ddr => s.applyEcc da e
  | _ => s

/-- A host access reads the units of a range (R227). -/
def State.hostEcc (s : State) (da n : Nat) (es : List Ecc) : State :=
  ((touchedUnits da n).zip es).foldl (fun s u => s.readEcc u.1 u.2) s

/-- The oldest outstanding read of a skip returns. Data of a marked read is discarded (R254, R256). -/
def State.readReturn (s : State) (n : Nat) (es : List Ecc) : State :=
  match (s.skip n).reads with
  | [] => s
  | r :: rest =>
    if s.tierWaits r.granule r.size then s
    else
    let s := (s.applyEccs r.granule (es.take (r.size / 32))).countMoved r.handle r.granule r.size
    let s := match s.firstPoison r.granule r.size with
      | some u => s.poisonSeen u
      | none => s
    let s := s.modSkip n fun k => { k with reads := rest }
    if r.marked then s.pump n
    else
      let st : Staged := { handle := r.handle, gen := r.gen, granule := r.granule, size := r.size, copy := r.copy, users := r.users,
                           bytes := s.bytes r.granule r.size, poison := s.granulePoison r.granule r.size }
      (s.modSkip n fun k => { k with staged := k.staged ++ [st] }).pump n

/-! ### Requests of STORE (R36, R239) -/

/-- A write split at granule boundaries; each turn of the fuel takes one granule. The bits to leave alone stay with the first byte
and the last. -/
def splitFrom (r : WriteReq) : Nat → Nat → List Byte → List WriteReq
  | 0, _, _ => []
  | _, _, [] => []
  | n + 1, da, b :: bs =>
    let room := 256 - da % 256
    { r with da := da, bytes := (b :: bs).take room,
             keep := (if da = r.da then r.keep.1 else 0, if bs.length < room then r.keep.2 else 0) } ::
      splitFrom r n (da + room) ((b :: bs).drop room)

def splitGranules (r : WriteReq) : List WriteReq := splitFrom r (r.bytes.length + 1) r.da r.bytes

/-- Requests in ascending address; those at one address keep their order. -/
def insertReq (x : WriteReq) : List WriteReq → List WriteReq
  | [] => [x]
  | y :: r => if x.da < y.da then x :: y :: r else y :: insertReq x r

/-- Requests that continue one another become one. -/
def coalesce (l : List WriteReq) : List WriteReq :=
  (l.foldl (fun a x => insertReq x a) []).foldr (fun a acc =>
    match acc with
    | b :: r => if a.da + a.bytes.length = b.da ∧ a.add = b.add ∧ a.hay = b.hay ∧ a.poison = b.poison ∧ a.keep.2 = 0 ∧ b.keep.1 = 0
                then { a with bytes := a.bytes ++ b.bytes, keep := (a.keep.1, b.keep.2) } :: r else a :: acc
    | [] => [a]) []

/-- The marks of a request's 32-byte pieces. -/
def WriteReq.marks (r : WriteReq) : List Bool := List.replicate (ceilDiv r.bytes.length 32) r.poison

/-- Sends requests to the skips that serve them; what a tile sends to one skip travels by message when it is small enough in
all (R260). -/
def State.toSkips (s : State) (rs : List WriteReq) : State :=
  rs.foldl (fun s r => match s.skipOf r.da with
    | some n =>
      let all := ((rs.filter fun x => s.skipOf x.da == some n).map fun x => x.bytes.length).foldl (· + ·) 0
      let s := match r.owner with
        | .tile t => if stpFits all then s.carryMarked (.tile t) (.skip n) 5 r.bytes r.marks else s
        | _ => s
      s.modSkip n fun k => { k with arrived := k.arrived ++ [r] }
    | none => s) s

/-! ### Remote masters at a scratchpad port (R92-R94) -/

/-- The masters other than the tile itself. -/
inductive PortMaster where
  | atom | host | mgmt
deriving DecidableEq, Repr

/-- A remote master holds a scratchpad port for `n` cycles: during a phase they are conflicts, and since it has one cycle in two
at most, each cycle but the first has waited for one (R93, R94). -/
def State.portGrants (s : State) (tile : Nat) (m : PortMaster) (n : Nat) : State :=
  let s := s.countActivity tile none evPort n
  if (s.tile tile).phase = .idle then s
  else s.modTile tile fun t =>
    { t with pconfOwn := sat32 (t.pconfOwn + n),
             pconfAtom := if m = .atom then sat32 (t.pconfAtom + n) else t.pconfAtom,
             pconfHost := if m = .host then sat32 (t.pconfHost + n) else t.pconfHost,
             pconfMgmt := if m = .mgmt then sat32 (t.pconfMgmt + n) else t.pconfMgmt,
             pconfWait := sat32 (t.pconfWait + (n - 1)) }

/-- The aligned pieces of `z` bytes that a range meets. -/
def pieceCount (z off len : Nat) : Nat := if len = 0 then 0 else (off + len - 1) / z - off / z + 1

/-- Port cycles of an access: one for each 512-byte line that it meets (R91); of additions, one for each atomic access, which
reaches 64 bytes (R96). -/
def portCycles (m : PortMaster) (off len : Nat) : Nat := pieceCount (if m = .atom then 64 else 512) off len

/-- An access of a remote master to a range; outside a scratchpad no port is held. -/
def State.remotePort (s : State) (m : PortMaster) (da len : Nat) : State :=
  match s.regionOf da with
  | .tile n off => if off < 0xC_0000 then s.portGrants n m (portCycles m off len) else s
  | _ => s

/-! ### Writes (R218, R239, R240, R249) -/

/-- A copy of the job's state regions has not read the bytes that a write covers: the copy reads them, and the write waits
(R445). -/
def State.heldByCopy (s : State) (r : WriteReq) : Option Nat :=
  match s.entry r.handle with
  | some x => if s.copyLacks x.job r.da r.bytes.length then some x.job else none
  | none => none

/-- A write goes on; the cycles that a copy held it count for its job (R445). -/
def State.countHold (s : State) (n : Nat) (r : WriteReq) : State :=
  match (s.skip n).heldAt, s.entry r.handle with
  | some t, some x =>
    (s.modSkip n fun k => { k with heldAt := none }).modJob x.job fun j => { j with holdCycles := sat32 (j.holdCycles + (s.sclk - t)) }
  | _, _ => s

/-- The oldest write that has arrived is issued, unless its tier's PLL relocks, a copy has still to read what it covers, or the skip
is at its limit, whose cycle counts (R240, R435, R445). -/
def State.issueWrite (s : State) (n : Nat) : State :=
  match (s.skip n).arrived with
  | [] => s
  | r :: rest =>
    if s.tierWaits r.da r.bytes.length then s
    else if Skip.writeLimit s n ≤ (s.skip n).issued.length then s.atLimit n
    else match s.heldByCopy r with
    | some j => (s.copyBefore j r.da r.bytes.length).modSkip n fun k => { k with heldAt := some (k.heldAt.getD s.sclk) }
    | none =>
      let s := s.countHold n r
      let k := s.skip n
      let s := (s.setSkip n { k with arrived := rest, issued := k.issued ++ [r] }).countMoved r.handle r.da r.bytes.length
      match s.entry r.handle with
      | some x => s.touch x.job r.da r.bytes.length
      | none => s

/-- The addition of R192 on the destination's format. -/
def addCode (f : Fmt) (old val : Nat) : Nat :=
  match f with
  | .fp32 => (fadd (BitVec.ofNat 32 old) (BitVec.ofNat 32 val)).toNat
  | .int32 => (old + val) % 2 ^ 32
  | .fp32x => (combine (Pair.ofCode old) (Pair.ofCode val)).code
  | _ => val

/-- Adds packed elements into memory, one after another. -/
def State.addElems (s : State) (f : Fmt) (da : Nat) (bs : List Byte) : State :=
  let n := f.bits / 8
  (List.range (bs.length / n)).foldl (fun s i =>
    let a := da + n * i
    s.write a (leBytes n (addCode f (s.rdNat a n) (leNat ((bs.drop (n * i)).take n))))) s

/-- The offset lies in the extended slots of the tile's work item: slots 14 and up lie below 0x0C_0000 (R81). -/
def State.inExtended (s : State) (tile off : Nat) : Bool :=
  let n := (s.tile tile).slotsUsed
  (s.tile tile).item.isSome && decide (14 < n) && decide (0xC_0000 - (n - 14) * 0x4800 ≤ off)

/-- An atomic at the address is aimed at the extended slots of a running work item, and is refused (R97). -/
def State.atomicBarred (s : State) (da : Nat) : Bool :=
  match s.regionOf da with
  | .tile n off => s.inExtended n off
  | _ => false

/-- An addition into a scratchpad of which an atomic is refused (R97, R239). -/
def State.addRefused (s : State) (r : WriteReq) : Bool :=
  r.add != 0 && decide (tileBase ≤ r.da) && (List.range r.bytes.length).any fun i => s.atomicBarred (r.da + i)

/-- The additions of R96 into a scratchpad: an atomic for each element; one whose word is poisoned writes nothing, and one that
is refused changes nothing (R97, R239). -/
def State.addAtomics (s : State) (f : Fmt) (da : Nat) (bs : List Byte) : State :=
  let n := f.bits / 8
  (List.range (bs.length / n)).foldl (fun s i =>
    let a := da + n * i
    if s.poisonedAt a || s.atomicBarred a then s
    else s.write a (leBytes n (addCode f (s.rdNat a n) (leNat ((bs.drop (n * i)).take n))))) s

/-- Bytes of which a write leaves the lowest bits of the first and the highest of the last as they are. -/
def mergeBits (keep : Nat × Nat) (old bs : List Byte) : List Byte :=
  let w := 8 * bs.length
  let lo := 2 ^ keep.1
  let hi := 2 ^ (w - keep.2)
  let v := leNat old % lo + leNat bs % hi / lo * lo + leNat old / hi * hi
  leBytes bs.length v

/-- The memory controller, or the scratchpad of a tile, performs a write. -/
def State.performWrite (s : State) (r : WriteReq) : State :=
  match Fmt.ofCode r.add with
  | some f =>
    if r.da < tileBase then s.addElems f r.da r.bytes
    else (s.remotePort .atom r.da r.bytes.length).addAtomics f r.da r.bytes
  | none =>
    let s := s.remotePort .mgmt r.da r.bytes.length
    if r.poison then
      let lo := r.da + b2n (r.keep.1 != 0)
      let n := r.bytes.length - b2n (r.keep.1 != 0) - b2n (r.keep.2 != 0)
      ((if r.keep = (0, 0) then s else s.write r.da (mergeBits r.keep (s.bytes r.da r.bytes.length) r.bytes)).writePoison lo n).poisonsState
        (wholeUnits lo n)
    else if r.keep = (0, 0) then s.write r.da r.bytes
    else s.write r.da (mergeBits r.keep (s.bytes r.da r.bytes.length) r.bytes)

end Sys2Proof.Machine
end

