-- ==== Sys2Proof/Machine/TilePipe.lean ====
section
/-! DEFINITION. The tile pipeline: k-runs and scattered partials (R76-R78, R82-R85, R104, R149, R289), the finished-tile queue
(R105, R106, R189, R199), residue and ECC of tile memories (R68-R74, R86, R99), STORE (R36, R225, R239, R257, R279) and the end
of an item (R201). -/

namespace Sys2Proof.Machine

/-! ### Accumulator slots (R79-R82) -/

def slotOffset (i : Nat) : Nat := if i < 14 then 0xC_0000 + i * 0x4800 else 0xC_0000 - (i - 13) * 0x4800
def frameOffset (f : Nat) : Nat := 0x10_0000 + f * 0x4800
def frameHeader (f : Nat) : Nat := 0x11_F800 + 64 * f

/-- The pair of element (i, j) of a frame. -/
def State.pairAt (s : State) (tile off i j : Nat) : Pair := Pair.ofCode (s.rdNat (windowDA tile off + 8 * (48 * i + j)) 8)

/-- Bytes at ascending addresses as runs of neighbours. -/
def byteRuns (l : List (Nat × List Byte)) : List (Nat × List Byte) :=
  l.foldr (fun a acc => match acc with
    | b :: r => if a.1 + a.2.length = b.1 then (a.1, a.2 ++ b.2) :: r else a :: acc
    | [] => [a]) []

/-- Writes pairs into a frame: neighbours in one write, so that a codeword written whole loses its mark (R224). -/
def State.writePairs (s : State) (tile off : Nat) (ps : List (Nat × Nat × Pair)) : State :=
  (byteRuns (ps.map fun p => (windowDA tile off + 8 * (48 * p.1 + p.2.1), leBytes 8 p.2.2.code))).foldl
    (fun s r => s.write r.1 r.2) s

/-- The first poisoned unit that is listed within a range. -/
def State.poisonIn (s : State) (da len : Nat) : Option Nat :=
  (s.poison.find? fun e => decide (da ≤ e.1 ∧ e.1 < da + len)).map Prod.fst

/-! ### COMPUTE_START (R36, R76, R89, R149, R225) -/

/-- The item consumes poison among what it loaded; the first unit of each event is shown in `RES_MEM_LAST`. -/
def State.consume (s : State) (tile : Nat) (bad : List (Nat × Nat)) : State :=
  match bad with
  | [] => s
  | (_, u) :: _ =>
    let first := (s.tile tile).consumed.isEmpty
    let s := s.modTile tile fun t => { t with consumed := t.consumed ++ bad.filter fun b => !t.consumed.contains b }
    let s := if first then { s with memInfo := { s.memInfo with poisonUsed := sat32 (s.memInfo.poisonUsed + 1) } } else s
    s.memLast u 2

/-- The frame of an array tile of a block: frames follow the block's array tiles row-major (R287). -/
def GradSet.frameOf (g : GradSet) (it : Item) (p : Nat × Nat) : Nat :=
  let fs := ((g.pins[g.blockOf it]?).map Prod.snd).getD []
  (fs[(p.1 - it.im * g.a) * g.b + (p.2 - it.jn * g.b)]?).getD 0

/-- CLEAR of R89 on the frames of an item. -/
def State.clearFrames (s : State) (tile : Nat) (g : GradSet) (it : Item) : State :=
  it.tiles.foldl (fun s p =>
    let f := g.frameOf it p
    let s := s.zero (windowDA tile (frameOffset f)) 0x4800
    s.write (windowDA tile (frameHeader f))
      (leBytes 4 g.tensorId ++ leBytes 2 p.1 ++ leBytes 2 p.2 ++ leBytes 4 0 ++ leBytes 4 0xFFFFFFFF ++ leBytes 1 1)) s

/-- The pair that an array tile's output starts from in the item's first round (R55, R76). -/
def ItemWork.firstPair (q : ItemWork) (x : Feed) (i j : Nat) : Pair := if q.it.f = 0 then x.start q.it.batch i j else Pair.zero

/-- The compute phase begins: poisoned operands are consumed, all of the bytes that the round loaded, also follow bytes of a
window that the GME skips (DESIGN CHOICE, log 62); slots and frames are set as the item needs (R36, R75, R149). -/
def State.computes (s : State) (tile : Nat) (q : ItemWork) (t : Tile) : State :=
  let bad := poisonedReads (q.met t) (q.reads t.round)
  let s := s.modTile tile fun t => { t with phase := .compute, pullSent := false, runs := 0, issued := 0, partials := 0, banks := [],
                                            bankTurn := 0 }
  let s := s.consume tile bad
  match q.b with
  | .row _ => s
  | .op v =>
    let x := s.feed tile q v
    let s := match q.set with
      | some g => if t.round = 0 ∧ q.mb = g.mbFirst ∧ q.runsK then s.clearFrames tile g q.it else s
      | none => s
    if q.scatter ∧ t.round = 0 then
      q.live.zipIdx.foldl (fun s p =>
        let (mr, nc) := v.tileDims p.1
        s.writePairs tile (slotOffset p.2) ((List.range mr).flatMap fun i => (List.range nc).map fun j =>
          (i, j, q.firstPair x (48 * p.1.1 + i) (48 * p.1.2 + j)))) s
    else s

/-- Every operand of the round is in the scratchpad (R36). -/
def State.beginCompute (s : State) (tile : Nat) : State :=
  let t := s.tile tile
  match s.tileWork tile with
  | none => s
  | some q =>
    if t.phase ≠ .load ∨ !t.pullSent ∨ !t.waitFor.isEmpty ∨ !t.pulls.isEmpty then s
    else
      (s.countActivity tile q.w.ctx evPort ((t.places.map fun p => pieceCount 512 (p.off.getD 0) p.len).foldl (· + ·) 0)).computes tile q t

/-! ### Residue and tile ECC (R68-R74, R85, R86, R99, R224) -/

def resUnitCode : ResUnit → Nat
  | .arrayMod3 => 1 | .arrayMod7 => 2 | .vector => 3 | .conversion => 4
  | .parityArray | .parityVector | .parityConversion => 5

/-- Counts the mismatches of one unit of work, with its retries: an attempt counts once in each counter that one of its checks
belongs to, however many pairs mismatched (DESIGN CHOICE, log 63: R74 says only 'mismatches found'). Array mod-7 mismatches alone
count in `MOD7_COUNT`; array mod-3 and parity mismatches found on the compensated-sum path count in `MOD3_COUNT` (DESIGN CHOICE,
log 137). `whole` is false when an
attempt was not checked because of an uncorrectable error: nothing has recovered then (R72). -/
def Tile.mismatch (t : Tile) (f : TileFaults) (whole : Bool) : Tile :=
  if f.attempts.isEmpty then t
  else
    let n := min f.attempts.length 4
    let in7 := (f.attempts.filter fun a => a.contains .arrayMod7).length
    let in3 := (f.attempts.filter fun a => a.any (· != .arrayMod7)).length
    { t with
      mod7 := sat16 (t.mod7 + in7)
      mod3 := sat16 (t.mod3 + in3)
      retries := sat16 (t.retries + min n 3)
      recovered := if n < 4 ∧ whole then sat16 (t.recovered + 1) else t.recovered
      lastUnit := match (f.attempts.getLast?).bind List.getLast? with | some u => resUnitCode u | none => t.lastUnit }

/-- The operand that a scratchpad word holds for the tile's item; 0 for a word that holds none (DESIGN CHOICE, log 23). -/
def State.spadPos (s : State) (tile : Nat) (q : Option ItemWork) (off : Nat) : Nat :=
  let t := s.tile tile
  match q, t.places.find? fun p => match p.off with | some o => decide (o < off + 8 ∧ off < o + p.len) | none => false with
  | some q, some p =>
    let da := p.da + (off - p.off.getD 0)
    (((q.reads t.round).find? fun r => decide (r.2.1 < da + 8 ∧ da < r.2.1 + r.2.2)).map fun r => r.1.1).getD 0
  | _, _ => 0

/-- One ECC event met by a unit of work: a word or codeword that is marked poisoned already counts nothing; an uncorrectable
one is marked and the item consumes it (R86, R99, R224, R225). It is reported by its window address. -/
def State.tileEccOne (s : State) (tile : Nat) (q : Option ItemWork) (e : TileEcc) : State :=
  let da := windowDA tile e.offset
  if e.memory = 4 then s.modTile tile fun t => t.eccEvent e
  else if s.poisonedAt da then s
  else
    let s := s.modTile tile fun t => t.eccEvent e
    if e.uncorrectable then (s.mark (unitOf da)).consume tile [(if e.memory = 1 then s.spadPos tile q e.offset else 0, unitOf da)]
    else s

/-- The chunk in an operand buffer, named by its offset, was uncorrectable twice: the GME's one read again has failed too (R99). -/
def rereadFails (f : TileFaults) : Bool :=
  let l := f.ecc.filter fun e => e.memory == 4 && e.uncorrectable
  l.any fun e => decide (2 ≤ l.countP fun d => d.offset == e.offset)

/-- The events of one unit of work. An uncorrectable error of an operand buffer makes the GME read the chunk again once; one that
is uncorrectable again is consumed (R99). -/
def State.tileEcc (s : State) (tile : Nat) (q : Option ItemWork) (f : TileFaults) : State :=
  let s := f.ecc.foldl (fun s e => s.tileEccOne tile q e) s
  if rereadFails f then s.consume tile [(0, windowDA tile 0)] else s

/-- An attempt found an operand uncorrectable (R72). -/
def faultsLost (f : TileFaults) : Bool :=
  (f.ecc.any fun e => e.memory != 4 && e.uncorrectable) || rereadFails f

/-- Counters for one unit of work; gives whether the tile must be quarantined (R70, R72). -/
def State.unitFaults (s : State) (tile : Nat) (f : TileFaults) : State × Bool :=
  let s := s.tileEcc tile (s.tileWork tile) f
  (s.modTile tile fun t => t.mismatch f (!faultsLost f), decide (4 ≤ f.attempts.length))

/-- A unit of work reads a frame: the item consumes the poison of its codewords (R72, R86, R225). -/
def State.readFrame (s : State) (tile off : Nat) : State :=
  match s.poisonIn (windowDA tile off) pairBytes with
  | some u => s.consume tile [(0, u)]
  | none => s

/-! ### K_RUN_END (R76, R82, R104, R136, R138, R144) -/

/-- Index offenders and truncated groups that the tiles read for an array tile add; the first abort offender. -/
def Feed.bodyChecks (x : Feed) (tiles : List (Nat × Nat)) (bad : Nat → Bool) :
    Option Offender × Option Offender × List (Nat × Nat × Nat × Nat) :=
  let ok := tiles.filter fun q =>
    !((pieces ((recorded x.hs q.1 q.2).1) (32 + (recordedHdr x.hs q.1 q.2).body)).any bad)
  let rs := ok.map fun q => (q, x.tileCheck q.1 q.2)
  (firstOffender (rs.flatMap fun r => r.2.1), firstOffender (rs.flatMap fun r => r.2.2.1),
   rs.flatMap fun r => r.2.2.2.map fun g => (r.1.1, r.1.2, g.1, g.2))

/-- Records what body checks found in an operation; false when the data-abort path begins. -/
def State.recordChecks (s : State) (q : ItemWork) (x : Feed) (tiles : List (Nat × Nat)) (t : Tile) : State × Bool :=
  let (ab, ix, gs) := x.bodyChecks tiles (q.met t)
  if ab.isSome then (s.abortOp q.w x [], false)
  else
    (s.modOp q.w.seq fun o => { o with index := earlier o.index ix, trunc := (o.trunc ++ gs).dedup }, true)

/-- The tiles of a sparse tensor of D's shape that array tile `p` meets. -/
def Feed.dTiles (x : Feed) (pos b : Nat) (p : Nat × Nat) : List (Nat × Nat) :=
  let h := x.v.op pos
  if h.t.sparse then
    (((x.v.outElems p).map fun e =>
      let g := x.v.localOfD h b e.1 e.2
      h.tileOfElem (g.take (h.t.ndim - 2)) ((g[h.t.ndim - 2]?).getD 0) ((g[h.t.ndim - 1]?).getD 0)).dedup).map fun tL => (pos, tL)
  else []

/-- The sparse tiles of a tensor of D's shape among the epilogue's operands, and the mask of the destination (R135, R138). -/
def Feed.epilogueTiles (x : Feed) (b : Nat) (p : Nat × Nat) : List (Nat × Nat) :=
  (x.v.d.epilogue.flatMap fun e => match e.2 with
    | some o => if e.1.code = 5 ∨ e.1.code = 6 then x.dTiles o b p else []
    | none => []) ++
  (match x.v.d.maskPos with | some m => [(m, x.destTile b p)] | none => [])

/-- Steps and cycles of an array mode: terms of a cell in one step, ACLK cycles of a step (R145). -/
def modeEP : Mode → Nat × Nat
  | .mx => (2, 1)
  | .bf16 | .fp16 => (1, 2)
  | .fp32 => (1, 6)
  | _ => (1, 1)

/-- The contraction position is fed to the array: an assay samples its blocks (R160). -/
def Feed.fed (x : Feed) (k : Nat) : Bool :=
  x.v.d.kind != 2 || x.globalK k / 32 % max 1 (le x.v.d.kindParams 1 1) == le x.v.d.kindParams 2 1

/-- The activity event of a k-step by mode (R423). -/
def Mode.event : Mode → Nat
  | .fp8 => 0 | .int8 => 1 | .bf16 => 2 | .fp16 => 3 | .fp32 => 4 | .mx => 5

/-- The array mode of the k-runs: an assay's is MX (R160). -/
def Feed.runMode (x : Feed) : Mode := if x.v.d.kind = 2 then .mx else x.mode

/-- ACLK cycles of one array step of array tile `p`; the capture unit takes 128 terms in a cycle (R174). -/
def Feed.stepCycles (x : Feed) (p : Nat × Nat) : Nat :=
  let (e, per) := modeEP x.runMode
  max per (ceilDiv (e * (x.capRows p).length * (x.capCols p).length) 128)

/-- What one array tile's k-run takes: MERGE steps, the steps of a dense feed for the same lead tiles, and ACLK cycles. A ZERO
lead tile takes none (R143, R145, R174, R176). -/
def Feed.mergeSteps (x : Feed) (b : Nat) (p : Nat × Nat) (k0 len : Nat) : Nat × Nat × Nat :=
  let e := (modeEP x.runMode).1
  let per := x.stepCycles p
  match x.v.leadPos with
  | none => (0, 0, per * ceilDiv ((List.range len).countP fun k => x.fed (k0 + k)) e)
  | some lp =>
    let (mr, nc) := x.v.tileDims p
    let rowsA := (List.range mr).map fun i => (x.line 0 b (48 * p.1 + i) k0 len).map Prod.fst
    let rowsB := (List.range nc).map fun j => (x.line 1 b (48 * p.2 + j) k0 len).map Prod.fst
    let lead := if lp = 0 then rowsA else rowsB
    let follow := if lp = 0 then rowsB else rowsA
    let fsp := (x.v.op (1 - lp)).t.sparse
    let live (k : Nat) : Bool := x.fed k && (!fsp || follow.any fun l => l.contains k)
    (List.range (ceilDiv len 48)).foldl (fun acc t =>
      let base := k0 + 48 * t
      let n := min 48 (k0 + len - base)
      let P := (List.range n).countP fun k => x.fed (base + k)
      let zero := ((x.factorTiles b p base n).filter fun q => q.1 == lp).all fun q => (recordedHdr x.hs q.1 q.2).kind == kZERO
      if zero then acc
      else
        let ns := (List.range (ceilDiv n 8)).map fun w =>
          lead.foldl (fun a l => max a (l.filter fun k => decide (base + 8 * w ≤ k ∧ k < base + 8 * w + 8) && live k).length) 0
        (acc.1 + ns.foldl (fun a n => a + ceilDiv n e) 0, acc.2.1 + ceilDiv P e,
         acc.2.2 + max (ns.foldl (fun a n => a + per * ceilDiv n e) 0) (ceilDiv P 16))) (0, 0, 0)

/-! #### Operand buffers and accumulator register sets (R75, R77, R78)

A k-run leaves its last chunks in the operand buffers: chunk c in buffers A0 and B0 when c is even, in A1 and B1 when it is
odd. A line holds its elements of the chunk packed, a sparse factor its present ones (DESIGN CHOICE, log 64: the spec gives no
layout, and nothing reads the buffers but the array). -/

/-- Contraction positions in a chunk (R78); 320 for an MX product of an E2M1 factor with a 6-bit one (DESIGN CHOICE, log 139: the
table gives a length for each element format alone). -/
def chunkLength (m : Mode) (fa fb : Fmt) : Nat :=
  match m with
  | .fp8 | .int8 => 256
  | .bf16 | .fp16 => 128
  | .fp32 => 64
  | .mx => if fa = .mxE2M1 ∧ fb = .mxE2M1 then 512 else 320

/-- The bytes of a factor's lines in one chunk: the elements, and the MX scale byte of each block that a line has elements of. -/
def Feed.chunkLines (x : Feed) (pos b o0 n k0 len : Nat) : List (List Byte × List Byte) :=
  let h := x.v.op pos
  (List.range n).map fun i =>
    let l := x.line pos b (o0 + i) k0 len
    let z := if h.fmt.isMx then ((l.map fun e => e.1 / 32).dedup).filterMap fun q =>
        (l.find? fun e => e.1 / 32 == q).map fun e => BitVec.ofNat 8 e.2.scale
      else []
    (packBytes h.fmt.bits (ceilDiv (l.length * h.fmt.bits) 8) (l.map fun e => e.2.code), z)

/-- The operand buffers after a k-run. -/
def Feed.fillBuffers (x : Feed) (b : Nat) (p : Nat × Nat) (k0 len : Nat) (t : Tile) : Tile :=
  let (mr, nc) := x.v.tileDims p
  let c := chunkLength x.mode (x.v.op 0).fmt (x.v.op 1).fmt
  let n := ceilDiv len c
  ((List.range n).drop (n - 2)).foldl (fun t q =>
    let put (t : Tile) (buf : Nat) (ls : List (List Byte × List Byte)) : Tile := ls.zipIdx.foldl (fun t l =>
      { t with opBuf := storeRun 0#8 t.opBuf (12288 * buf + 256 * l.2) (l.1.1.take 256)
               opScale := storeRun 0#8 t.opScale (768 * buf + 16 * l.2) (l.1.2.take 16) }) t
    let k := k0 + c * q
    let w := min c (k0 + len - k)
    put (put t (q % 2) (x.chunkLines 0 b (48 * p.1) mr k w)) (2 + q % 2) (x.chunkLines 1 b (48 * p.2) nc k w)) t

/-- The register set that accumulated the k-run holds its pairs, and the sets swap (R77). -/
def Tile.swapSets (t : Tile) (ps : List (Nat × Nat × Pair)) : Tile :=
  { t with accRegs := ps.foldl (fun m p => store Pair.zero m (2304 * t.accSet + 48 * p.1 + p.2.1) p.2.2) t.accRegs
           accSet := 1 - t.accSet }

def setSlotState (t : Tile) (i : Nat) (st : SlotState) : Tile := { t with slots := store SlotState.free t.slots i st }

/-- The array tile whose k-run is under way. -/
def State.curRun (s : State) (tile : Nat) (q : ItemWork) : Option ((Nat × Nat) × Nat) :=
  let t := s.tile tile
  ((q.live)[t.runs]?).map fun p => (p, t.runs)

/-- The partials of array tile `p` in a round, in the order in which the array issues them (R149): element index and
value. -/
def Feed.partials (x : Feed) (b : Nat) (p : Nat × Nat) (k0 len : Nat) : List (Nat × Nat × U32) :=
  let (mr, nc) := x.v.tileDims p
  let lead := x.v.leadPos.getD 0
  let fa := (x.v.op 0).fmt
  let fb := (x.v.op 1).fmt
  let rowsA := (List.range mr).map fun i => (i, x.line 0 b (48 * p.1 + i) k0 len)
  let colsB := (List.range nc).map fun j => (j, x.line 1 b (48 * p.2 + j) k0 len)
  let term (i j : Nat) (a c : Code) : Nat × Nat × U32 := (i, j, ((fa.value a.code).mul (fb.value c.code)).to32)
  (List.range (ceilDiv len 48)).flatMap fun t =>
    let base := k0 + 48 * t
    let inT (k : Nat) : Bool := decide (base ≤ k ∧ k < base + 48)
    let leads := if lead = 0 then rowsA else colsB
    let els := leads.flatMap fun l => (l.2.filter fun e => inT e.1).map fun e => (l.1, e)
    let lineFirst : Bool := if lead = 0 then x.v.ca + 1 == (x.v.op 0).t.ndim else x.v.cb + 1 == (x.v.op 1).t.ndim
    let ordered := if lineFirst then els
      else (List.range 48).flatMap fun d => els.filter fun e => e.2.1 == base + d
    ordered.flatMap fun e =>
      (if lead = 0 then colsB else rowsA).filterMap fun f =>
        (f.2.find? fun c => c.1 == e.2.1).map fun c =>
          if lead = 0 then term e.1 f.1 e.2.2 c.2 else term f.1 e.1 c.2 e.2.2

/-- The pairs of an array tile after its k-run: from input C or zero in the first round, from the slot afterwards. -/
def State.runPairs (s : State) (tile : Nat) (q : ItemWork) (x : Feed) (p : Nat × Nat) (slot : Nat) (k0 len : Nat) :
    List (Nat × Nat × Pair) :=
  let t := s.tile tile
  let old (i j : Nat) : Pair :=
    if t.round = 0 then q.firstPair x (48 * p.1 + i) (48 * p.2 + j)
    else s.pairAt tile (slotOffset slot) i j
  x.kRun q.it.batch p k0 len old

/-- Pairs of an ASSAY are formed from its sampled blocks (R160). -/
def State.assayPairs (s : State) (tile : Nat) (q : ItemWork) (x : Feed) (p : Nat × Nat) (slot : Nat) (k0 len : Nat) :
    List (Nat × Nat × Pair) :=
  let t := s.tile tile
  let (mr, nc) := x.v.tileDims p
  (List.range mr).flatMap fun i => (List.range nc).map fun j =>
    let old := if t.round = 0 then Pair.zero else s.pairAt tile (slotOffset slot) i j
    (i, j, x.assayRun q.it.batch (48 * p.1 + i) (48 * p.2 + j) k0 len old)

/-- An entry joins the finished-tile queue, or waits in the array while the queue is full (R104, R105). -/
def Tile.post (t : Tile) (e : FtqEntry) : Tile :=
  if 8 ≤ t.ftq.length then { t with waiting := some e }
  else { t with ftq := t.ftq ++ [e], ftqHigh := max t.ftqHigh (t.ftq.length + 1) }

/-- The entry that waits in the array is posted when an entry has retired (R105). -/
def Tile.postWaiting (t : Tile) : Tile :=
  match t.waiting with
  | some e => if 8 ≤ t.ftq.length then t else { t with waiting := none }.post e
  | none => t

/-- After the array tile's k-run: the slot's state, the finished-tile queue, and the next array tile or round. -/
def State.afterRun (s : State) (tile : Nat) (q : ItemWork) (p : Nat × Nat) (slot : Nat) : State :=
  let rounds := q.rounds.length
  let s := s.modTile tile fun t =>
    let last := t.round + 1 == rounds
    let t := setSlotState t slot (if last then .finished else .active)
    let frame := match q.set with
      | some g => g.frameOf q.it p
      | none => 0
    let ti := p.1 - q.it.im * (q.o.tiling.mt / 48)
    let tj := p.2 - q.it.jn * (q.o.tiling.nt / 48)
    let t := if last then
        t.post { kind := if q.set.isSome then .combine else .epilogue, slot := slot, ti := ti, tj := tj, frame := frame }
      else t
    let t := { t with runs := t.runs + 1, issued := 0, partials := 0, banks := [], bankTurn := 0 }
    if t.runs = q.live.length ∧ !last then { t with phase := .load, round := t.round + 1, runs := 0, places := [], jigAt := 0 } else t
  s.settleLoad tile

/-- What a k-run without a fault leaves (R76-R78): the pairs of its tile in a register set and in their slot, the captured
factors, and the counts of its steps. -/
def State.runEnds (s : State) (tile : Nat) (q : ItemWork) (v : View) (x : Feed) (p : Nat × Nat) (slot k0 len : Nat) : State :=
  let s := s.modTile tile fun t => x.fillBuffers q.it.batch p k0 len t
  let s :=
    if q.scatter then s
    else
      let ps := if v.d.kind = 2 then s.assayPairs tile q x p slot k0 len else s.runPairs tile q x p slot k0 len
      (s.modTile tile fun t => t.swapSets ps).writePairs tile (slotOffset slot) ps
  let s := s.modTile tile fun t =>
    { t with captured :=
        (t.captured.filter fun c => !(c.row / 48 == p.1 && c.col / 48 == p.2)) ++ x.capRun q.it.batch p k0 len t.captured }
  let m := x.mergeSteps q.it.batch p k0 len
  let s := s.modJob q.w.job fun j =>
    if q.scatter then j
    else { j with gmeSteps := min (2 ^ 64 - 1) (j.gmeSteps + m.1), gmeDense := min (2 ^ 64 - 1) (j.gmeDense + m.2.1) }
  let steps := if q.scatter then ceilDiv (s.tile tile).issued 16 else m.2.2
  let s := (s.modTile tile fun t => { t with kcyc := t.kcyc + steps }).countActivity tile q.w.ctx x.runMode.event steps
  s.afterRun tile q p slot

/-- The array tile of a k-run that starts from its slot reads the slot's codewords (R72, R76). -/
def State.readSlot (s : State) (tile : Nat) (q : ItemWork) (slot : Nat) : State :=
  if (s.tile tile).round = 0 ∧ !q.scatter then s else s.readFrame tile (slotOffset slot)

/-- The sparse tiles whose bodies a k-run meets: those of its factors, and those of C where it starts from C (R136, R138). -/
def ItemWork.runTiles (q : ItemWork) (v : View) (x : Feed) (t : Tile) (p : Nat × Nat) (k0 len : Nat) : List (Nat × Nat) :=
  x.factorTiles q.it.batch p k0 len ++ (match v.d.cPos with
    | some i => if t.round = 0 ∧ q.it.f = 0 then x.dTiles i q.it.batch p else []
    | none => [])

def State.kRunEnd (s : State) (tile : Nat) (f : TileFaults) : State :=
  let t := s.tile tile
  match s.tileWork tile with
  | none => s
  | some q =>
    match q.b, s.curRun tile q with
    | .op v, some (p, slot) =>
      if t.phase ≠ .compute ∨ !q.runsK ∨ t.waiting.isSome then s
      else
        let x := s.feed tile q v
        let (k0, len) := (q.rounds[t.round]?).getD (0, 0)
        if q.scatter ∧ t.partials < (x.partials q.it.batch p k0 len).length then s
        else
          let (s, gone) := s.unitFaults tile f
          if gone then s.quarantine tile 1
          else
            let s := s.readSlot tile q slot
            let (s, ok) := s.recordChecks q x (q.runTiles v x t p k0 len) t
            if !ok then s
            else
              s.runEnds tile q v x p slot k0 len
    | _, _ => s

/-! ### Scattered partials (R84, R85, R149)

The banks work in ACLK cycles: a cycle first takes the next 16 partials of the source, all of them or, when one of their
queues is full, none; then each bank in turn adds the partial at the head of its queue. A command is the next of these adds
(DESIGN CHOICE, log 65: the spec does not say which lane a partial takes). -/

/-- The bank of an element (R84). -/
def bankOf (e : Nat) : Nat := e / 8 % 16

def Tile.queue (t : Tile) (b : Nat) : List Scattered := lookup [] t.banks b

/-- The partials that wait at the end of a cycle: each counts once (R84, R110). -/
def Tile.countWaits (t : Tile) : Tile :=
  { t with
    accConf := sat32 (t.accConf + t.banks.foldl (fun a q => a + (q.2.filter fun x => !x.waited).length) 0)
    banks := t.banks.map fun q => (q.1, q.2.map fun x => { x with waited := true }) }

/-- The partials that the source offers in the next cycle. -/
def Tile.offered (t : Tile) (slot : Nat) (ps : List (Nat × Nat × U32)) : List Scattered :=
  ((ps.drop t.issued).take 16).map fun p => { slot := slot, elem := 48 * p.1 + p.2.1, value := p.2.2, waited := false }

/-- A cycle begins: the banks accept the group offered if every queue has room for its part. -/
def Tile.bankCycle (t : Tile) (slot : Nat) (ps : List (Nat × Nat × U32)) : Tile :=
  let t := t.countWaits
  let g := t.offered slot ps
  let full := (List.range 16).any fun b => decide (16 < (t.queue b).length + (g.filter fun (x : Scattered) => bankOf x.elem == b).length)
  if full then { t with accFullStall := sat16 (t.accFullStall + 1), bankTurn := 0 }
  else
    let t := { t with
      issued := t.issued + g.length
      banks := g.foldl (fun (m : SMap (List Scattered)) (x : Scattered) => store [] m (bankOf x.elem) (lookup [] m (bankOf x.elem) ++ [x])) t.banks
      bankTurn := 0 }
    { t with accQmax := (List.range 16).foldl (fun a b => max a (t.queue b).length) t.accQmax }

/-- The bank that adds next in the cycle under way. -/
def Tile.nextBank (t : Tile) : Option Nat :=
  (List.range 16).find? fun b => decide (t.bankTurn ≤ b) && !(t.queue b).isEmpty

/-- The tile at its next add: the cycle under way goes on, or the next one begins. -/
def Tile.toNextAdd (t : Tile) (slot : Nat) (ps : List (Nat × Nat × U32)) : Tile :=
  if t.nextBank.isSome then t else t.bankCycle slot ps

/-- The bank adds the partial at the head of its queue to the element's pair (R84). -/
def State.bankAdds (s : State) (tile : Nat) (q : ItemWork) (b : Nat) (x : Scattered) : State :=
  let i := x.elem / 48
  let j := x.elem % 48
  let s := s.writePairs tile (slotOffset x.slot) [(i, j, addTerm (s.pairAt tile (slotOffset x.slot) i j) x.value)]
  let s := s.modTile tile fun t =>
    { setSlotState t x.slot .active with
      partials := t.partials + 1
      banks := store [] t.banks b ((t.queue b).drop 1)
      bankTurn := b + 1 }
  s.modJob q.w.job fun j => { j with scatterPartials := sat32 (j.scatterPartials + 1) }

/-- One scattered partial is added at its bank after its residue check (R84, R85). -/
def State.scattered (s : State) (tile : Nat) (f : TileFaults) : State :=
  let t := s.tile tile
  match s.tileWork tile with
  | none => s
  | some q =>
    match q.b, s.curRun tile q with
    | .op v, some (p, slot) =>
      let x := s.feed tile q v
      let (k0, len) := (q.rounds[t.round]?).getD (0, 0)
      if t.phase ≠ .compute ∨ !q.scatter ∨ t.waiting.isSome then s
      else
        let t := t.toNextAdd slot (x.partials q.it.batch p k0 len)
        match t.nextBank.bind fun b => (t.queue b).head?.map fun y => (b, y) with
        | none => s
        | some (b, y) =>
          let (s, gone) := (s.setTile tile t).unitFaults tile f
          if gone then s.quarantine tile 1
          else
            s.bankAdds tile q b y
    | _, _ => s

/-! ### The finished-tile queue (R89, R90, R104-R106, R189, R199) -/

/-- The pairs that the epilogue of array tile `p` starts from: those of the slot or the frame that its entry names, or the
combined pairs of both children, in INT8 mode their exact sum (R199). -/
def State.finishedPair (s : State) (tile : Nat) (q : ItemWork) (x : Feed) (e : Option FtqEntry) (p : Nat × Nat) (i j : Nat) : Pair :=
  let part (f : Nat) : Pair := Pair.ofCode (leNat (rdList x.rd (x.pairDa q.it.batch p f + 8 * (48 * i + j)) 8))
  match q.it.kind with
  | .comb =>
    let l := part q.it.f
    let r := part (q.it.f + q.it.width)
    if x.mode = .int8 then Pair.ofInt (l.int + r.int) else combine l r
  | _ => match e with
    | some e => s.pairAt tile (if e.kind = .drain then frameOffset e.frame else slotOffset e.slot) i j
    | none => Pair.zero

/-- The capture lists of an array tile: the tile's own, or the merge of both children's (R173, R199). -/
def ItemWork.captures (q : ItemWork) (t : Tile) (x : Feed) (p : Nat × Nat) : List Captured :=
  match q.it.kind with
  | .comb =>
    let k := x.v.d.cap.k
    (x.capPlaces p).map fun c =>
      let l := listAt x.rd k (x.listDa q.it.batch c.1 c.2.1 q.it.f)
      let r := listAt x.rd k (x.listDa q.it.batch c.1 c.2.1 (q.it.f + q.it.width))
      { row := c.2.2.1, col := c.2.2.2, terms := l.terms + r.terms, top := capMerge k l.top r.top }
  | _ => t.captured.filter fun c => c.row / 48 == p.1 && c.col / 48 == p.2

/-- What an item leaves of array tile `p` in the scratch for part `f`: its pairs and its capture lists (R198, R199). -/
def Feed.partPuts (x : Feed) (b : Nat) (p : Nat × Nat) (f : Nat) (frame : List Byte) (cs : List Captured) : List Put :=
  { da := x.pairDa b p f, bytes := frame, hayOff := none } ::
  (x.capPlaces p).filterMap fun c =>
    (cs.find? fun k => k.row == c.2.2.1 && k.col == c.2.2.2).map fun k =>
      { da := x.listDa b c.1 c.2.1 f, bytes := listBytesOf x.v.d.cap.k k, hayOff := none }

/-- Bytes on their way to D from a put. -/
def ItemWork.request (q : ItemWork) (tile : Nat) (add : Nat) (p : Put) : WriteReq :=
  { owner := .tile tile, handle := q.w.seq, da := p.da, bytes := p.bytes, add := add, poison := false, hay := false }

/-- The copy of a put that goes into the hayloft entry, at its place in the entry until STORE (R279). -/
def State.hayRequest (s : State) (q : ItemWork) (tile : Nat) (p : Put) : Option WriteReq :=
  match p.hayOff, s.pushOf q.w with
  | some o, some _ =>
    let c := p.hayCodes.getD (p.bytes, 0, 0)
    some { q.request tile 0 { p with da := 256 + o, bytes := c.1 } with hay := true, keep := c.2 }
  | _, _ => none

/-- The entry's copies go where the entry lies. -/
def State.placeHay (s : State) (q : ItemWork) (rs : List WriteReq) : List WriteReq :=
  match s.pushOf q.w with
  | some e => rs.map fun r => if r.hay then { r with da := e.da + r.da } else r
  | none => rs

/-- The scratchpad takes the bytes that the jig writes, behind the operands and what the jig has written before; requests of the
same bytes share one place. What finds no room stays with the jig (R36, R151; log 61). -/
def State.jigPut (s : State) (tile : Nat) (bs : List Byte) (rs : List WriteReq) : State :=
  let t := s.tile tile
  if t.jigAt + bs.length ≤ spadLimit t.slotsUsed then
    let s := s.write (windowDA tile t.jigAt) bs
    s.modTile tile fun t =>
      { t with output := t.output ++ rs.map fun r => { req := r, place := some t.jigAt }, jigAt := t.jigAt + bs.length }
  else s.modTile tile fun t => { t with output := t.output ++ rs.map fun r => { req := r, place := none } }

/-- A request of STORE: its bytes come from the scratchpad. -/
def State.outRequest (s : State) (tile : Nat) (o : JigOut) : WriteReq :=
  match o.place with
  | some a => { o.req with bytes := s.bytes (windowDA tile a) o.req.bytes.length }
  | none => o.req

/-- Jig output of puts: the requests for D and for the entry. -/
def State.jigWrite (s : State) (tile : Nat) (q : ItemWork) (add : Nat) (ps : List Put) : State :=
  ps.foldl (fun s p =>
    let copy := (s.hayRequest q tile p).toList
    let same := copy.filter fun r => r.bytes == p.bytes
    let s := s.jigPut tile p.bytes (q.request tile add p :: same)
    (copy.filter fun r => r.bytes != p.bytes).foldl (fun s r => s.jigPut tile r.bytes [r]) s)
    (s.countActivity tile q.w.ctx evJig ps.length)

/-- The format code of an ADD store, 0 for a plain one (R192, R239). -/
def View.addCode (v : View) : Nat :=
  if (v.d.kind = 1 ∨ v.d.kind = 5) ∧ v.d.mode = 1 ∧ !v.ordered then v.dHeld.fmt.code else 0

/-- Counts a sparse tile of D or of W that the jig has written (R176). -/
def State.countJig (s : State) (j : Nat) (put : Put) : State :=
  let hd := TileHdr.parse (put.bytes.take 32)
  s.modJob j fun j =>
    { j with jigWritten := sat32 (j.jigWritten + 1), jigZero := sat32 (j.jigZero + b2n (hd.kind == kZERO)),
             jigEscape := sat32 (j.jigEscape + b2n (hd.kind == kDENSE)) }

/-- Counts a sparse tile that the jig has written, and the over-full groups of its mask (R135, R176). -/
def State.jigCount (s : State) (q : ItemWork) (x : Feed) (p : Nat × Nat) (put : Put) (ov : List (Nat × Nat)) : State :=
  let groups := match x.v.d.maskPos with
    | some m => ov.map fun g => (m, x.destTile q.it.batch p, g.1, g.2)
    | none => []
  (s.modOp q.w.seq fun o => { o with trunc := (o.trunc ++ groups).dedup }).countJig q.w.job put

/-- The lines of array tile `p` in the image of its block: each a run of codes that begins on a whole byte (R257, log 57). -/
def Feed.imagePuts (x : Feed) (it : Item) (p : Nat × Nat) (code : Nat → Nat → Nat) : List Put :=
  let v := x.v
  let (mr, nc) := v.tileDims p
  let bits := v.storeHeld.fmt.bits
  let i0 := 48 * p.1 - it.im * x.t.mt
  let j0 := 48 * p.2 - it.jn * x.t.nt
  let line (i j : Nat) (cs : List Nat) : Put :=
    { da := x.scratch + v.imageBit x.t x.cap.length it.rank i j / 8, bytes := packBytes bits (ceilDiv (cs.length * bits) 8) cs, hayOff := none }
  if v.imageByCols then (List.range nc).map fun j => line i0 (j0 + j) ((List.range mr).map fun i => code i j)
  else (List.range mr).map fun i => line (i0 + i) j0 ((List.range nc).map fun j => code i j)

/-- Epilogue and jig of one array tile of a product, MAP or root combine item (R151, R154-R157, R189, R497). -/
def State.jigTile (s : State) (tile : Nat) (q : ItemWork) (v : View) (x : Feed) (p : Nat × Nat) (val : Nat → Nat → Result) : State :=
  let D := v.dHeld
  let b := q.it.batch
  if D.fmt.isMx then
    let vals := (v.outElems p).map fun e => (linear D.shape (v.dIndex b e.1 e.2), (val (e.1 - 48 * p.1) (e.2 - 48 * p.2)).to32)
    s.modTile tile fun t => { t with held := t.held ++ vals }
  else if D.t.sparse then
    let (put, ov) := x.sparseTile b p val
    (s.jigCount q x p put ov).jigWrite tile q 0 [put]
  else if v.ordered then
    s.jigWrite tile q 0 (x.imagePuts q.it p fun i j =>
      x.storeCode D.fmt (v.dIndex b (48 * p.1 + i) (48 * p.2 + j)) (val i j))
  else s.jigWrite tile q v.addCode (x.denseTile b p val)

/-- Writes the capture records of an array tile (R172). -/
def State.writeCaptures (s : State) (tile : Nat) (q : ItemWork) (x : Feed) (p : Nat × Nat) (cs : List Captured)
    (pair : Nat → Nat → Pair) : State :=
  let ps := cs.map fun c =>
    let r := x.capRecord (pair (c.row - 48 * p.1) (c.col - 48 * p.2)) c
    ({ da := r.1, bytes := r.2, hayOff := none } : Put)
  (s.jigWrite tile q 0 ps).modJob q.w.job fun j => { j with captureRecords := sat32 (j.captureRecords + ps.length) }

/-- The vector engine's registers after the epilogue of an array tile: W0 holds the values that go to the jig, W1 the last
tensor operand, and V0, V1, ... the vector operands of the steps in order, from V0 again after V15 (R75, R100, R101; DESIGN
CHOICE, log 64). -/
def Feed.vectorRegs (x : Feed) (b : Nat) (p : Nat × Nat) (val : Nat → Nat → Result) (t : Tile) : Tile :=
  let (mr, nc) := x.v.tileDims p
  let es := (List.range mr).flatMap fun i => (List.range nc).map fun j => (i, j)
  let fill (m : SMap U32) (base : Nat) (f : Nat → Nat → U32) : SMap U32 :=
    es.foldl (fun m e => store 0#32 m (base + 48 * e.1 + e.2) (f e.1 e.2)) m
  let t := { t with work := fill t.work 0 fun i j => (val i j).to32 }
  let t := x.v.d.epilogue.foldl (fun t e => match e.2 with
    | some o => if e.1.code = 5 ∨ e.1.code = 6 then
        { t with work := fill t.work 2304 fun i j => x.val32At o (x.v.localOfD (x.v.op o) b (48 * p.1 + i) (48 * p.2 + j)) } else t
    | none => t) t
  let vecs := x.v.d.epilogue.filterMap fun e => match e.2 with
    | some o => match e.1.code with
      | 1 | 3 => some ((List.range nc).map fun j => x.vec o (x.v.globalCol (48 * p.2 + j)))
      | 2 | 4 => some ((List.range mr).map fun i => x.vec o (x.v.globalRow (48 * p.1 + i)))
      | _ => none
    | none => none
  vecs.zipIdx.foldl (fun t w =>
    { t with vregs := w.1.zipIdx.foldl (fun m y => store 0#32 m (48 * (w.2 % 16) + y.2) y.1) t.vregs }) t

/-- The scores of an array tile of an assay, where its descriptor names their destination (R162, R185). -/
def State.writeScores (s : State) (tile : Nat) (q : ItemWork) (v : View) (x : Feed) (p : Nat × Nat) (pair : Nat → Nat → Pair) : State :=
  let sc := x.assayScores q.it.batch p pair
  if sc.isEmpty then s
  else if v.ordered then s.jigWrite tile q 0 (x.imagePuts q.it p fun i j => (x.assayValue (pair i j)).toNat)
  else s.jigWrite tile q 0 (sc.map fun e =>
    { da := v.storeHeld.bitAddr e.1 / 8, bytes := leBytes 4 e.2.toNat, hayOff := none })

/-- The sparse bodies that the epilogue reads are checked as they are read (R135, R138); the jig then writes the array tile. -/
def State.finishTile (s : State) (tile : Nat) (q : ItemWork) (v : View) (e : Option FtqEntry) (p : Nat × Nat) : State × Bool :=
  let t := s.tile tile
  let x := s.feed tile q v
  let (s, ok) := s.recordChecks q x (x.epilogueTiles q.it.batch p) t
  if !ok then (s, false)
  else
    let pair := s.finishedPair tile q x e p
    let val (i j : Nat) : Result :=
      if v.d.kind = 5 then x.mapValue q.it.batch (48 * p.1 + i) (48 * p.2 + j)
      else x.finishPair q.it.batch (48 * p.1 + i) (48 * p.2 + j) (pair i j)
    let s := s.modTile tile fun t => x.vectorRegs q.it.batch p val t
    if v.d.kind = 2 then
      let put := x.assayTile q.it.batch p pair
      (((s.countJig q.w.job put).jigWrite tile q 0 [put]).writeScores tile q v x p pair, true)
    else
      let s := s.jigTile tile q v x p val
      (s.writeCaptures tile q x p (q.captures t x p) pair, true)

/-- The array tile that a queue entry names. -/
def ItemWork.entryTile (q : ItemWork) (e : FtqEntry) : Nat × Nat :=
  (q.it.im * (q.o.tiling.mt / 48) + e.ti, q.it.jn * (q.o.tiling.nt / 48) + e.tj)

/-- The codewords of a frame that stay poisoned when a slot is combined into it: those that are marked, and all of them when
the item has consumed poison (R223, R290). -/
def State.frameMarks (s : State) (tile off : Nat) (all : Bool) : List Nat :=
  let a := windowDA tile off
  let us := (List.range (pairBytes / 32)).map fun i => a + 32 * i
  if all then us else us.filter s.poisonedAt

/-- COMBINE: the frame takes the finished slot, when its header names the item's place (R89, R90). A product in INT8 mode is combined
by the same procedure of R57 (DESIGN CHOICE, log 138: the spec gives no other for frames). -/
def State.combineFrame (s : State) (tile : Nat) (q : ItemWork) (g : GradSet) (e : FtqEntry) (p : Nat × Nat) : State × Bool :=
  let h := windowDA tile (frameHeader e.frame)
  if s.rdNat (h + 16) 1 ≠ 1 ∨ s.rdNat h 4 ≠ g.tensorId ∨ s.rdNat (h + 4) 2 ≠ p.1 ∨ s.rdNat (h + 6) 2 ≠ p.2 then
    let s := (s.dropWork q.w.seq).1
    match s.opRun q.w.seq with
    | some o => (s.endPlain q.w o St.stateWgbFrame, false)
    | none => (s, false)
  else
    let s := s.readFrame tile (slotOffset e.slot)
    let pairs := (List.range 48).flatMap fun i => (List.range 48).map fun j =>
      (i, j, combine (s.pairAt tile (frameOffset e.frame) i j) (s.pairAt tile (slotOffset e.slot) i j))
    let bad := s.frameMarks tile (frameOffset e.frame) (!(s.tile tile).consumed.isEmpty)
    let s := bad.foldl State.mark (s.writePairs tile (frameOffset e.frame) pairs)
    let s := s.write (h + 8) (leBytes 4 (s.rdNat (h + 8) 4 + 1) ++ leBytes 4 q.mb)
    if g.lastMb q.mb then
      let s := s.write (h + 16) (leBytes 1 2)
      (s.modTile tile fun t => { t with ftq := t.ftq ++ [{ e with kind := .drain }], ftqHigh := max t.ftqHigh (t.ftq.length + 1) }, true)
    else (s, true)

/-- The head entry `e` of the finished-tile queue retires (R106): its tile is combined into a frame or read out. -/
def State.retireEntry (s : State) (tile : Nat) (q : ItemWork) (e : FtqEntry) (rest : List FtqEntry) : State :=
  let p := q.entryTile e
  let s := s.modTile tile fun t => { t with ftq := rest }.postWaiting
  let free (s : State) : State := s.modTile tile fun t => { setSlotState t e.slot .free with retired := t.retired + 1 }
  match q.b, e.kind, q.set with
  | .op _, .combine, some g =>
    let (s, ok) := s.combineFrame tile q g e p
    if !ok then s
    else if g.lastMb q.mb then s.modTile tile fun t => setSlotState t e.slot .free
    else free s
  | .op v, .drain, _ =>
    let (s, ok) := (s.readFrame tile (frameOffset e.frame)).finishTile tile q v (some e) p
    if ok then
      let s := s.write (windowDA tile (frameHeader e.frame + 16)) (leBytes 1 0)
      s.modTile tile fun t => { t with retired := t.retired + 1 }
    else s
  | .op v, _, _ =>
    if q.it.kind = .part then free s
    else
      let (s, ok) := (s.readFrame tile (slotOffset e.slot)).finishTile tile q v (some e) p
      if ok then free s else s
  | .row _, _, _ => s

/-- The bytes of a frame of pairs. -/
def frameBytes (pair : Nat → Nat → Pair) : List Byte :=
  (List.range 48).flatMap fun i => (List.range 48).flatMap fun j => leBytes 8 (pair i j).code

/-- What PRUNE and REGROW write for one tile of W (R135, R136, R164, R168, R176). -/
def State.evolveTile (s : State) (tile : Nat) (q : ItemWork) (v : View) (x : Feed) (tL : Nat) : State × Bool :=
  let ev := x.evolve tL
  if !x.truncate ∧ !ev.newOver.isEmpty then (s.abortOp q.w x (x.newOffenders tL ev.newOver), false)
  else
    let keyed (pos : Nat) (l : List (Nat × Nat)) := l.map fun g => (pos, tL, g.1, g.2)
    let s := s.modOp q.w.seq fun o => { o with trunc := (o.trunc ++ keyed 1 ev.oldOver ++ keyed 3 ev.newOver).dedup }
    let s := ((s.countJig q.w.job ev.mask).countJig q.w.job ev.weight).jigWrite tile q 0 ([ev.mask, ev.weight] ++ ev.scales)
    let s := s.modTile tile fun t => { t with countA := t.countA + ev.countA, countB := t.countB + ev.countB }
    let gen := ((recordedHdr x.hs 1 tL).gen + 1) % 2 ^ 32
    let _ := v
    (s.modJob q.w.job fun j => { j with maskGenLast := gen }, true)

/-- The sparse bodies that a tile of PRUNE or REGROW reads: W, its mask, a sparse score source and the exclusion mask. -/
def Feed.evolveTiles (x : Feed) (tL : Nat) : List (Nat × Nat) :=
  let W := x.v.op 0
  let G := x.v.op 4
  let n := x.v.d.operands.length
  let src := if 4 < n ∧ G.t.sparse then
      let g := W.tileGeo tL
      (((List.range 2304).filterMap fun u =>
        if u / 48 < g.lines ∧ u % 48 < g.positions then
          (W.elemLocal g u).map fun e => G.tileOfElem g.outer e.1 e.2
        else none).dedup).map fun q => (4, q)
    else []
  [(0, tL), (1, tL)] ++ src ++ (if 5 < n then [(5, tL)] else [])

/-- One destination tile of an item without k-runs retires (R106, R199). -/
def State.retireTile (s : State) (tile : Nat) (q : ItemWork) (t : Tile) (p : Nat × Nat) : State :=
  let next (r : State × Bool) : State := if r.2 then r.1.modTile tile fun t => { t with retired := t.retired + 1 } else r.1
  match q.b with
  | .row v =>
    let x := s.rowFeed tile q v
    let puts := if q.it.kind = .row then x.rowPuts q.r.item ++ x.pairPuts q.r.item else x.foldPuts
    next (s.jigWrite tile q 0 puts, true)
  | .op v =>
    let x := s.feed tile q v
    if q.it.kind = .comb then
      if q.it.root then next (s.finishTile tile q v none p)
      else next (s.jigWrite tile q 0 (x.partPuts q.it.batch p q.it.f (frameBytes (s.finishedPair tile q x none p)) (q.captures t x p)), true)
    else if v.d.kind = 5 then
      let (s, ok) := s.recordChecks q x (x.dTiles 0 q.it.batch p) t
      if !ok then s
      else next (s.finishTile tile q v none p)
    else
      let tL := x.destTile q.it.batch p
      let (s, ok) := s.recordChecks q x (x.evolveTiles tL) t
      if !ok then s
      else next (s.evolveTile tile q v x tL)

/-- A queue entry retires; an item without k-runs takes its next array tile here (DEDUCED, log 24). -/
def State.retire (s : State) (tile : Nat) (f : TileFaults) : State :=
  let t := s.tile tile
  match s.tileWork tile with
  | none => s
  | some q =>
    if t.phase ≠ .compute then s
    else if q.runsK then
      match t.ftq with
      | [] => s
      | e :: rest =>
        let (s, gone) := s.unitFaults tile f
        if gone then s.quarantine tile 2
        else
          (s.countActivity tile q.w.ctx evVector 1).retireEntry tile q e rest
    else
      match q.live[t.retired]? with
      | none => s
      | some p =>
        let (s, gone) := s.unitFaults tile f
        if gone then s.quarantine tile 2
        else
          (s.countActivity tile q.w.ctx evVector 1).retireTile tile q t p

/-! ### STORE (R36, R198, R225, R239, R257, R280, R497) -/

/-- The MX blocks that an item holds, converted (R497). -/
def Feed.mxAll (x : Feed) (held : List (Nat × U32)) : List Put :=
  let D := x.v.dHeld
  let n := D.t.ndim
  let inner := max 1 (D.len (n - 1))
  let blocks := ((held.map fun e => (e.1 / inner) * ceilDiv inner 32 + e.1 % inner / 32).dedup)
  blocks.flatMap fun q =>
    let line := q / ceilDiv inner 32
    let k := q % ceilDiv inner 32
    let ixs := (List.range 32).filterMap fun i =>
      if 32 * k + i < inner then some (unlinear D.shape (line * inner + 32 * k + i)) else none
    x.mxPuts ixs fun ix => ((held.find? fun e => e.1 == linear D.shape ix).map Prod.snd).getD 0#32

/-- The codes of an ordered store into an MX destination by local linear index, and its scale bytes (R257, R497). -/
def Feed.mxCodes (x : Feed) (held : List (Nat × U32)) : List (Nat × Nat) × List Put :=
  let D := x.v.dHeld
  let n := D.t.ndim
  let inner := max 1 (D.len (n - 1))
  let blocks := ((held.map fun e => (e.1 / inner) * ceilDiv inner 32 + e.1 % inner / 32).dedup)
  let conv := blocks.map fun q =>
    let line := q / ceilDiv inner 32
    let k := q % ceilDiv inner 32
    let ixs := (List.range 32).filterMap fun i =>
      if 32 * k + i < inner then some (unlinear D.shape (line * inner + 32 * k + i)) else none
    (ixs, x.mxBlockOf ixs fun ix => ((held.find? fun e => e.1 == linear D.shape ix).map Prod.snd).getD 0#32)
  (conv.flatMap fun c => (c.1.map (linear D.shape)).zip c.2.2,
   conv.filterMap fun c => c.1.head?.map fun ix => { da := D.scaleAddr ix, bytes := [BitVec.ofNat 8 c.2.1], hayOff := none })

/-- The tiles and scale bytes of a sparse MX destination: every element outside the presence set is +0 before its block
is converted (R156). Each tile comes with its over-full groups. -/
def Feed.mxSparse (x : Feed) (b : Nat) (tiles : List (Nat × Nat)) (held : List (Nat × U32)) :
    List ((Nat × Nat) × Put × List (Nat × Nat)) × List Put :=
  let D := x.v.dHeld
  let n := D.t.ndim
  let rc := x.v.tileRC
  let inner := max 1 (D.len (n - 1))
  let value (ix : List Nat) : U32 := ((held.find? fun e => e.1 == linear D.shape ix).map Prod.snd).getD 0#32
  let ixOf (p : Nat × Nat) (u : Nat) : List Nat := x.v.dIndex b (48 * p.1 + (rc u).1) (48 * p.2 + (rc u).2)
  let pres := tiles.map fun p => (p, x.presence (D.tileGeo (x.destTile b p)) fun u => value (ixOf p u))
  let present : List Nat := pres.flatMap fun q => q.2.1.map fun u => linear D.shape (ixOf q.1 u)
  let blocks := ((held.map fun e => (e.1 / inner) * ceilDiv inner 32 + e.1 % inner / 32).dedup)
  let conv := blocks.map fun q =>
    let line := q / ceilDiv inner 32
    let k := q % ceilDiv inner 32
    let ixs := (List.range 32).filterMap fun i =>
      if 32 * k + i < inner then some (unlinear D.shape (line * inner + 32 * k + i)) else none
    (ixs, x.mxBlockOf ixs fun ix => if present.contains (linear D.shape ix) then value ix else 0#32)
  let codes : List (Nat × Nat) := conv.flatMap fun c => (c.1.map (linear D.shape)).zip c.2.2
  let code (p : Nat × Nat) (u : Nat) : Nat := ((codes.find? fun e => e.1 == linear D.shape (ixOf p u)).map Prod.snd).getD 0
  (pres.map fun q =>
    let tL := x.destTile b q.1
    let off := tL * D.t.attr.slotBytes
    (q.1, { da := D.t.base + off, bytes := encodeTile D.t D.fmt (D.tileGeo tL) q.2.2.2 q.2.1.contains (code q.1),
            hayOff := if x.v.d.hay then some off else none }, q.2.2.1),
   conv.flatMap fun c => match c.1.head? with
     | some ix => [{ da := D.scaleAddr ix, bytes := [BitVec.ofNat 8 c.2.1], hayOff := none }]
     | none => [])

/-- The write of an item that consumed poison: zeros with poison; an item whose store adds issues none (R225). -/
def spoil (r : WriteReq) : Option WriteReq :=
  if r.add ≠ 0 then none else some { r with bytes := r.bytes.map fun _ => 0#8, poison := true }

/-- The ZERO tiles of the item's skipped array tiles (R163). -/
def Feed.skippedPuts (x : Feed) (it : Item) : List Put :=
  if it.root ∧ it.kind ≠ .part then (it.tiles.filter fun p => x.skipped it.batch p).map fun p => x.zeroTile it.batch p else []

/-- What is converted or written only once the item is complete: MX blocks and the ZERO tiles of skipped array tiles. -/
def State.storeBlocks (s : State) (tile : Nat) (q : ItemWork) (v : View) (t : Tile) : State :=
  let x := s.feed tile q v
  let D := v.dHeld
  let s :=
    if !D.fmt.isMx || v.d.kind == 2 || v.d.kind == 3 || v.d.kind == 4 || t.held.isEmpty then s
    else if D.t.sparse then
      let (tiles, scales) := x.mxSparse q.it.batch (x.live q.it) t.held
      let s := tiles.foldl (fun s p => (s.jigCount q x p.1 p.2.1 p.2.2).jigWrite tile q 0 [p.2.1]) s
      s.jigWrite tile q 0 scales
    else if v.ordered then
      let (codes, scales) := x.mxCodes t.held
      let code (p : Nat × Nat) (i j : Nat) : Nat :=
        let k := linear D.shape (v.dIndex q.it.batch (48 * p.1 + i) (48 * p.2 + j))
        ((codes.find? fun e => e.1 == k).map Prod.snd).getD 0
      (s.jigWrite tile q 0 ((x.live q.it).flatMap fun p => x.imagePuts q.it p (code p))).jigWrite tile q 0 scales
    else s.jigWrite tile q 0 (x.mxAll t.held)
  if v.d.skipUnselected && q.epi then
    let zs := x.skippedPuts q.it
    zs.foldl (fun s z => (s.countJig q.w.job z).jigWrite tile q 0 [z]) s
  else s

/-- The slot pairs and capture lists of a partial item go to the scratch unrounded (R198). -/
def State.partRequests (s : State) (tile : Nat) (q : ItemWork) : List WriteReq :=
  match q.b with
  | .row _ => []
  | .op v =>
    if q.it.kind ≠ .part then []
    else
      let x := s.feed tile q v
      let t := s.tile tile
      q.live.zipIdx.flatMap fun p =>
        (x.partPuts q.it.batch p.1 q.it.f (s.bytes (windowDA tile (slotOffset p.2)) pairBytes) (q.captures t x p.1)).map
          fun z => q.request tile 0 z

/-- An item that consumed poison writes the whole slots of its sparse destinations as zeros with poison (R225; DEDUCED,
log 25: the bytes of a tile that the item would have written are those of its slot). -/
def State.spoilSlots (s : State) (tile : Nat) (q : ItemWork) : List WriteReq :=
  match q.b with
  | .row _ => []
  | .op v =>
    if !q.epi then [] else
    let x := s.feed tile q v
    v.d.destinations.flatMap fun i =>
      let h := v.op i
      if !h.t.sparse then []
      else q.live.flatMap fun p =>
        let off := x.destTile q.it.batch p * h.t.attr.slotBytes
        let put : Put := { da := h.t.base + off, bytes := List.replicate h.t.attr.slotBytes 0#8,
                           hayOff := if v.d.hay then some off else none }
        let r := q.request tile 0 put
        ({ r with poison := true } :: (s.hayRequest q tile put).toList.map fun r => { r with poison := true })

/-- The writes of an item that consumed poison: what it would have written as zeros, sparse destinations by slot; it writes no
image of an ordered store (R225, R257). -/
def State.spoiledWrites (s : State) (tile : Nat) (q : ItemWork) (rs : List WriteReq) : List WriteReq :=
  let slots := s.spoilSlots tile q
  let inSlot (r : WriteReq) : Bool := slots.any fun z => z.hay == r.hay && decide (z.da ≤ r.da ∧ r.da < z.da + z.bytes.length)
  let image (r : WriteReq) : Bool := q.o.ordered && q.epi && (⟨q.o.scratchDa, q.o.scratchLen⟩ : Region).has r.da 1
  ((rs.filterMap spoil).filter fun r => !inSlot r && !image r) ++ slots

/-- The bytes that a PRUNE or REGROW is about to replace, kept for the items and checks that still read them (R136, R164). -/
def OpRun.keepOld (o : OpRun) (rd : Nat → Byte) (rs : List WriteReq) : OpRun :=
  { o with orig := rs.foldl (fun m r => (List.range r.bytes.length).foldl (fun m i =>
      if (lookup none m (r.da + i)).isSome then m else store none m (r.da + i) (some (rd (r.da + i)))) m) o.orig }

/-- What an item in STORE is about to write over of what it reads itself, as it is in memory and with its poison: an item that is
returned reads it again, so that repeating it changes no byte (R5, R8, R201). -/
def OpRun.keepOwn (o : OpRun) (item : Nat) (rd : Nat → Byte) (bad : Nat → Bool) (reads : List Read) (rs : List WriteReq) : OpRun :=
  let own := spansOf reads
  let das := (rs.flatMap fun r => (List.range r.bytes.length).map fun i => r.da + i).filter fun a =>
    own.any fun p => decide (p.1 ≤ a ∧ a < p.1 + p.2)
  let new := (das.dedup).filter fun a => (o.pastByte item a).isNone
  { o with undo := o.undo ++ new.map fun a => (item, a, o.before item rd a, bad a) }

/-- All that the item reads, in all of its rounds. -/
def ItemWork.allReads (q : ItemWork) : List Read := (List.range q.rounds.length).flatMap q.reads

/-- The store phase begins: what the item leaves goes to the skips as writes (R36, R239). Additions that a returned item had
issued are not made again (R5, R201). -/
def State.storeItem (s : State) (tile : Nat) (q : ItemWork) (t : Tile) : State :=
  let bad := !t.consumed.isEmpty
  let s := match q.b with
    | .op v => s.storeBlocks tile q v t
    | .row _ => s
  let out := (s.tile tile).output.map (s.outRequest tile) ++ s.partRequests tile q
  let rs := ((coalesce (s.placeHay q (if bad then s.spoiledWrites tile q out else out))).flatMap splitGranules).filter fun r =>
    !(r.add != 0 && q.o.added.contains (q.r.item, r.da))
  if rs.any fun r => !s.mayAccess q.w q.o r.da r.bytes.length then s.refuseAccess q.w (rs.map fun r => (r.da, r.bytes.length))
  else
    let s := match q.b with
      | .op v => if v.d.kind = 3 ∨ v.d.kind = 4 then s.modOp q.w.seq fun o => o.keepOld s.byte rs else s
      | .row _ => s
    let s := s.modOp q.w.seq fun o => o.keepOwn q.r.item s.byte s.poisonedAt q.allReads rs
    let s := s.countActivity tile q.w.ctx evPort ((rs.map fun r => pieceCount 512 r.da r.bytes.length).foldl (· + ·) 0)
    let s := s.modTile tile fun t =>
      { t with phase := .store, output := [], held := [], loaded := [], loadedPoison := [], places := [], jigAt := 0, pullSent := false,
               storesLeft := rs.length, sent := (rs.filter fun r => r.add != 0).map WriteReq.da }
    s.toSkips rs

def State.beginStore (s : State) (tile : Nat) : State :=
  let t := s.tile tile
  match s.tileWork tile with
  | none => s
  | some q =>
    let need := q.live.length
    if t.phase ≠ .compute ∨ t.round + 1 ≠ q.rounds.length ∨ (q.runsK ∧ t.runs ≠ need) ∨ t.retired ≠ need ∨ !t.ftq.isEmpty ∨
        t.waiting.isSome then s
    else if s.pushWaits q.w then (match q.w.ctx with | some c => s.pushMustWait c | none => s)
    else
      s.storeItem tile q t

/-! ### DONE (R201) -/

/-- Item `r` of entry `w` ends on tile `tile`, in the tile state `t` (R201): it counts, and it is final unless it consumed poison. -/
def State.itemDone (s : State) (tile : Nat) (t : Tile) (r : ItemRef) (w : Work) : State :=
  let clean := t.consumed.isEmpty
  let s := s.setTile tile (t.advance (s.nextSlots tile))
  let s := s.modOp r.op fun o =>
    { o with out := o.out.filter fun p => p.1 != r.item,
             undo := o.undo.filter fun e => e.1 != r.item,
             spoiled := if clean then o.spoiled else o.spoiled ++ [r.item],
             poison := o.poison ++ t.consumed.map fun c => (r.item, c.1, c.2),
             countA := o.countA + (if clean then t.countA else 0),
             countB := o.countB + (if clean then t.countB else 0) }
  let s := if clean then s.itemFinal r.op r.item else s
  let s := s.modJob w.job fun j => { j with itemsDone := sat32 (j.itemsDone + b2n clean) }
  let s := s.countSpan r.op (b2n clean) (if clean then t.kcyc else 0)
  let s := s.carry (.tile tile) .sequencer 1 (leBytes 4 r.op ++ leBytes 4 r.item ++ leBytes 1 (b2n clean))
  (s.settleLoad tile).afterItems r.op

/-- The item ends: final, or not final because it consumed poison (R225). -/
def State.doneItem (s : State) (tile : Nat) : State :=
  let t := s.tile tile
  match (if t.phase = .store ∧ t.storesLeft = 0 then t.item else none) with
  | none => s
  | some r =>
    match s.work r.op with
    | none => (s.setTile tile (t.advance (s.nextSlots tile))).settleLoad tile
    | some w =>
      s.itemDone tile t r w

end Sys2Proof.Machine
end

