-- ==== Sys2Proof/Machine/Streams.lean ====
section
/-! DEFINITION. Stream descriptors (R242-R253), cancellation (R254-R256), the apply pass of an ordered store (R257),
flags and barriers (R264-R267), and what the acknowledgement of a write completes (R239, R249). -/

namespace Sys2Proof.Machine

/-! ### The parameters of STREAM_ARM (R243) -/

structure StreamHdr where
  sd : Nat
  mode : Nat
  trigger : Nat
  ctx : Nat
  reps : Nat
  srcAdv : Int
  dstAdv : Int
  waitDa : Nat
  waitVal : Nat
  hostXfer : Nat
  doneDa : Nat
  src : Tensor
  dst : Tensor

def StreamHdr.parse (b : List Byte) : StreamHdr :=
  let adv (o : Nat) : Int := (BitVec.ofNat 64 (le b o 8)).toInt
  { sd := le b 0 1, mode := le b 1 1, trigger := le b 2 1, ctx := le b 3 1, reps := le b 4 4, srcAdv := adv 8, dstAdv := adv 16,
    waitDa := le b 24 8, waitVal := le b 32 8, hostXfer := le b 40 4, doneDa := le b 48 8,
    src := Tensor.parse ((b.drop 64).take 160), dst := Tensor.parse ((b.drop 224).take 160) }

/-- A tensor that is not sharded: every axis is one piece. -/
def Tensor.whole (t : Tensor) : Held :=
  { t := t, fmt := t.fmt.getD .int8, axes := t.extents.map fun e => [(0, e)] }

def StreamHdr.fmt (h : StreamHdr) : Fmt := h.src.fmt.getD .int8
/-- Bytes of one element, and elements of a transfer. -/
def StreamHdr.width (h : StreamHdr) : Nat := h.fmt.bits / 8
def StreamHdr.count (h : StreamHdr) : Nat := h.src.size
/-- Nothing is transferred (R246). -/
def StreamHdr.idle (h : StreamHdr) : Bool := h.reps == 0 || h.count == 0
/-- Segments of a transfer: 1 MiB of destination element bytes each (R249). -/
def StreamHdr.segments (h : StreamHdr) : Nat := ceilDiv (h.count * h.width) (2 ^ 20)
def StreamHdr.segBytes (h : StreamHdr) (g : Nat) : Nat := min (2 ^ 20) (h.count * h.width - g * 2 ^ 20)
/-- The destination fails the non-overlap test (R248). -/
def StreamHdr.ordered (h : StreamHdr) : Bool := !nonOverlap h.dst.strides h.dst.extents

/-! #### The reach of a series of transfers (R244) -/

/-- The transfers whose span lies within one range form a run: its first and last number. -/
def runWithin (lo hi adv : Int) (reps : Nat) (r : Region) : Option (Nat × Nat) :=
  let a := (r.base : Int) - lo
  let z := ((r.base + r.len : Nat) : Int) - 1 - hi
  if adv = 0 then (if a ≤ 0 ∧ 0 ≤ z then some (0, reps - 1) else none)
  else
    let down (x : Int) : Int := x / (adv.natAbs : Int)
    let up (x : Int) : Int := -((-x) / (adv.natAbs : Int))
    let (f, l) := if 0 < adv then (up a, down z) else (up (-z), down (-a))
    let f := max 0 f
    let l := min ((reps : Int) - 1) l
    if f ≤ l then some (f.toNat, l.toNat) else none

/-- Every transfer from number `n` on lies in some run. -/
def runsCover (runs : List (Nat × Nat)) (reps : Nat) : Nat → Nat → Bool
  | 0, n => decide (reps ≤ n)
  | fuel + 1, n =>
    if reps ≤ n then true
    else match runs.find? fun r => decide (r.1 ≤ n ∧ n ≤ r.2) with
      | some r => runsCover runs reps fuel (r.2 + 1)
      | none => false

def coversAll (rs : List Region) (lo hi adv : Int) (reps : Nat) : Bool :=
  runsCover (rs.filterMap (runWithin lo hi adv reps)) reps (rs.length + 1) 0

/-- A range less another: what is left below it and above it. -/
def Region.minus (r cut : Region) : List Region :=
  if r.base < cut.base + cut.len ∧ cut.base < r.base + r.len then
    [⟨r.base, cut.base - r.base⟩, ⟨cut.base + cut.len, r.base + r.len - (cut.base + cut.len)⟩].filter fun x => x.len != 0
  else [r]

def Job.scratchpads (j : Job) : List Region := j.tiles.map fun n => ⟨windowDA n 0, 0xC_0000⟩

/-- The ranges that a stream's spans may lie in: HBM4, DDR5, scratchpads of the job's paddocks; and the job's reach. -/
def State.streamTargets (s : State) (j : Job) : List Region := [⟨0, hbmBytes⟩, ⟨ddrBase, s.ddrBytes⟩] ++ j.scratchpads
def State.streamReach (s : State) (jn : Nat) (j : Job) : List Region :=
  (s.hayAreas jn).foldl (fun rs cut => rs.flatMap fun r => r.minus cut) j.regions ++ j.scratchpads

/-! #### Host transfers that an entry names (R364) -/

/-- The slot of a job's transfer with an ID. -/
def State.xferOf (s : State) (jn id : Nat) : Option (Nat × Xfer) :=
  s.host.xfers.find? fun e => e.2.state != 0 && e.2.job == jn && e.2.id == id

/-- How a named transfer has ended so far: complete, or aborted with a status. -/
def Xfer.outcome (x : Xfer) : Option Nat :=
  match x.state with
  | 3 => some St.done
  | 4 => some x.status
  | _ => none

/-- A flag's address is aligned and in the job's regions (R243, R267). -/
def flagAligned (da : Nat) : Bool := da % 8 == 0

/-- The status of the checks on STREAM_ARM's parameters, in the order of R196 (R243-R247): 0 when it is accepted. -/
def armStatus (s : State) (jn : Nat) (j : Job) (p : List Byte) : Nat :=
  let h := StreamHdr.parse p
  let w := h.width
  let (sl, sh) := spanOf h.src.base h.fmt.bits h.src.strides h.src.extents
  let (dl, dh) := spanOf h.dst.base h.fmt.bits h.dst.strides h.dst.extents
  let add := h.mode == 1
  firstBad
    [ (decide (h.sd ≤ 63) && decide (h.mode ≤ 1) && decide (h.trigger ≤ 2) && (decide (h.ctx < 16) || h.ctx == 0xFF), St.paramRange),
      ((h.trigger == 1 || (h.waitDa == 0 && h.waitVal == 0)) && (h.trigger == 2 || h.hostXfer == 0), St.paramRange),
      (h.src.scaleKind == 0 && h.dst.scaleKind == 0, St.paramRange),
      (h.trigger != 2 || (s.xferOf jn h.hostXfer).isSome, St.paramRange),
      (h.ctx == 0xFF || (match s.ctx h.ctx with | some k => k.job == jn | none => false), St.stateNoContext),
      (h.src.format == h.dst.format && (match Fmt.ofCode h.src.format with
        | some f => !f.isMx && (!add || addFmt f)
        | none => false), St.paramFormat),
      (decide (1 ≤ h.src.ndim ∧ h.src.ndim ≤ 6) && h.src.ndim == h.dst.ndim && h.src.extents == h.dst.extents, St.paramShape),
      (h.src.parts.all (· == 1) && h.dst.parts.all (· == 1) && (h.src.units ++ h.dst.units).all (fun u => decide (u ≤ 3)), St.paramShard),
      (!h.src.sparse && !h.dst.sparse, St.paramSparse),
      (h.src.stridesOk && h.dst.stridesOk && signed40 h.srcAdv && signed40 h.dstAdv, St.paramStride),
      (!zeroStride h.dst.strides h.dst.extents && (add || h.dst.allowAlias || !h.ordered), St.paramStride),
      (h.src.base % w == 0 && h.dst.base % w == 0 && h.srcAdv % (w : Int) == 0 && h.dstAdv % (w : Int) == 0 &&
        flagAligned h.waitDa && flagAligned h.doneDa, St.paramAlign),
      (h.idle || (coversAll (s.streamTargets j) sl sh h.srcAdv h.reps && coversAll (s.streamTargets j) dl dh h.dstAdv h.reps), St.paramTarget),
      (h.idle || (coversAll (s.streamReach jn j) sl sh h.srcAdv h.reps && coversAll (s.streamReach jn j) dl dh h.dstAdv h.reps), St.secWindow),
      ((h.trigger != 1 || s.reachable jn j h.waitDa 8) && (h.doneDa == 0 || s.reachable jn j h.doneDa 8), St.secWindow),
      ((let x := j.stream h.sd
        match x.state with
        | .free | .done | .faulted => true
        | _ => x.shadow.isNone), St.resStreamBusy) ]

/-! ### Contents taking effect (R246, R252) -/

/-- The contents of a descriptor take effect: the generation increments; nothing to transfer is DONE at once; a host
transfer that was aborted ends them at once. -/
def State.streamEffect (s : State) (jn d : Nat) (b : StreamBody) : State :=
  let h := StreamHdr.parse b.params
  let gen := ((s.stream jn d).gen + 1) % 2 ^ 32
  let s := s.modStream jn d fun x =>
    { x with state := if h.idle then .done else .waiting, gen := gen, body := some b, ordered := h.ordered, moving := false,
             doneXfers := 0, segs := [], segLeft := [], segTotal := if h.idle then 0 else h.segments, watermark := 0, poisonDa := none,
             badElems := [], nextElem := 0 }
  let s := s.modEntry b.seq fun e => { e with object := d * 2 ^ 24 + gen % 2 ^ 24 }
  if h.idle then s.finishAt b.seq St.done 0 (armReply 0 0)
  else match b.host with
    | some st => if st = St.done then s else s.faultStream jn d st 0 0
    | none => s

/-! ### Transfers (R245-R250, R253)

The transfers of a generation run one after another: each begins when the writes of the one before it are acknowledged
(DESIGN CHOICE, log 66: R245 lets the skips run ahead where that changes no byte). -/

/-- Addresses of element `k` in transfer `i`. -/
def elemAt (t : Tensor) (adv : Int) (w i k : Nat) : Nat :=
  ((t.base : Int) + i * adv + strideSum t.strides (unlinear t.extents k) * (w : Int)).toNat
def StreamHdr.srcAt (h : StreamHdr) (i k : Nat) : Nat := elemAt h.src h.srcAdv h.width i k
def StreamHdr.dstAt (h : StreamHdr) (i k : Nat) : Nat := elemAt h.dst h.dstAdv h.width i k

/-- One element on its way: its source linear index, the bytes read, and the poisoned unit that they came from. -/
structure Moved where
  k : Nat
  bytes : List Byte
  poison : Option Nat

/-- The ordering point of an ordered stream: the skip that serves the lowest granule of the first destination, fixed at arm time
(R248); none when that lies in a scratchpad. -/
def StreamHdr.orderPoint (h : StreamHdr) (s : State) : Option Nat :=
  s.skipOf (spanOf h.dst.base h.fmt.bits h.dst.strides h.dst.extents).1.toNat

/-- The requests of elements: one for each element in ordered mode, joined by segment and split into granules otherwise. A
poisoned element is written as zero, whatever the mode (R253). -/
def StreamHdr.requests (h : StreamHdr) (jn gen seq i : Nat) (ms : List Moved) : List WriteReq :=
  let one (m : Moved) : WriteReq :=
    { owner := .stream jn h.sd gen (m.k * h.width / 2 ^ 20), handle := seq, da := h.dstAt i m.k,
      bytes := if m.poison.isSome then List.replicate h.width 0#8 else m.bytes,
      add := if h.mode = 1 ∧ m.poison.isNone then h.fmt.code else 0, poison := false, hay := false }
  if h.ordered then ms.map one
  else (((ms.map fun m => m.k * h.width / 2 ^ 20).dedup).flatMap fun g =>
    (coalesce ((ms.filter fun m => m.k * h.width / 2 ^ 20 == g).map one)).flatMap splitGranules)

/-- The units fed by poison that lie wholly within the bytes that a transfer writes; the highest source index that maps to an
address decides what it holds (R247, R253). -/
def StreamHdr.fedUnits (h : StreamHdr) (i : Nat) (bad : List Nat) : List Nat :=
  let put (m : SMap Bool) (k : Nat) (v : Bool) : SMap Bool := storeRun false m (h.dstAt i k) (List.replicate h.width v)
  let own : SMap Bool := (List.range h.count).foldl (fun m k => put m k true) []
  let fed : SMap Bool := (List.range h.count).foldl (fun m k => put m k (bad.contains k)) []
  ((fed.map fun e => unitOf e.1).dedup).filter fun u => (loadRun false own u (unitSize u)).all id

/-- The next transfer's trigger is met (R250). -/
def State.triggerMet (s : State) (x : Stream) (b : StreamBody) (h : StreamHdr) : Bool :=
  (decide (0 < x.doneXfers) || ((h.ctx == 0xFF || s.atHead b.seq) && (h.trigger != 2 || b.host == some St.done))) &&
  (h.trigger != 1 || decide (h.waitVal + x.doneXfers ≤ s.rdNat h.waitDa 8))

/-- Contents whose next transfer's trigger is met are RUNNING (R252). -/
def State.streamReady (s : State) (jn d : Nat) : State :=
  let x := s.stream jn d
  match x.body with
  | none => s
  | some b =>
    if x.state = .waiting ∧ s.triggerMet x b (StreamHdr.parse b.params) then s.modStream jn d fun x => { x with state := .running }
    else s

/-- Contents of a descriptor take effect and run if their trigger is met. -/
def State.streamBegins (s : State) (jn d : Nat) (b : StreamBody) : State := (s.streamEffect jn d b).streamReady jn d

/-- The shadow's contents take effect when the descriptor's own have ended. -/
def State.shadowEffect (s : State) (jn d : Nat) : State :=
  match (s.stream jn d).shadow with
  | some b => (s.modStream jn d fun x => { x with shadow := none }).streamBegins jn d b
  | none => s

/-- An accepted arm: its contents take effect, or go to the shadow. -/
def State.arm (s : State) (jn seq step : Nat) (p : List Byte) : State :=
  let h := StreamHdr.parse p
  let x := s.stream jn h.sd
  let host := if h.trigger = 2 then (s.xferOf jn h.hostXfer).bind fun e => e.2.outcome else none
  let b : StreamBody := { seq := seq, params := p, step := step, host := host }
  match x.state with
  | .free | .done | .faulted => s.streamBegins jn h.sd b
  | _ =>
    let s := s.modEntry seq fun e => { e with shadowed := true, object := h.sd * 2 ^ 24 + (x.gen + 1) % 2 ^ 24 }
    s.modStream jn h.sd fun x => { x with shadow := some b }

/-- One 8-byte flag write by STP (R250, R265). -/
def State.flagPut (s : State) (jn da v : Nat) : State := (s.stpFlag da v).devWrite jn da (leBytes 8 v)

/-- A transfer that read poison has run to its end: none of its segments is final, the units that the poison feeds are marked,
and the generation stops, the first poisoned unit in the order of source linear index being its report (R253). -/
def State.xferPoisoned (s : State) (jn d : Nat) (x : Stream) (b : StreamBody) (h : StreamHdr) : State :=
  let first := x.badElems.foldl (fun a e => match a with
    | none => some e
    | some c => if e.1 < c.1 then some e else some c) (none : Option (Nat × Nat))
  let s := (h.fedUnits x.doneXfers (x.badElems.map Prod.fst)).foldl State.mark s
  let wm := x.doneXfers * h.count * h.width
  let s := s.modStream jn d fun y =>
    { y with moving := false, segs := [], segLeft := [], watermark := wm, poisonDa := first.map Prod.snd }
  let s := (s.modEntry b.seq fun e => { e with bits := [] }).setWatermark b.seq wm
  if x.state = .cancelling then s else s.faultStream jn d St.intPoison x.doneXfers wm

/-- All segments of the transfer are written: the flag, the next transfer, or the end of the generation. A transfer whose
last writes a cancellation lets finish completes too, and nothing follows it (R250, R254; DEDUCED, log 43). -/
def State.xferEnd (s : State) (jn d : Nat) : State :=
  let x := s.stream jn d
  match x.body with
  | none => s
  | some b =>
    let h := StreamHdr.parse b.params
    if !x.badElems.isEmpty then s.xferPoisoned jn d x b h
    else
      let n := x.doneXfers + 1
      let s := s.modStream jn d fun y =>
        { y with moving := false, doneXfers := n, segs := [], segLeft := [],
                 state := if x.state = .cancelling then .cancelling else .waiting }
      let s := if h.doneDa = 0 then s else s.flagPut jn h.doneDa (x.gen * 2 ^ 32 + n % 2 ^ 32)
      if n < h.reps ∨ x.state = .cancelling then (s.modEntry b.seq fun e => { e with bits := [], aux := n }).streamReady jn d
      else
        let s := s.modStream jn d fun x => { x with state := .done }
        let s := s.modEntry b.seq fun e => { e with aux := n }
        (s.finishAt b.seq St.done x.watermark (armReply x.watermark n)).shadowEffect jn d

/-- Segment `g` of the transfer in progress is final, and the watermark is `wm` (R249). -/
def State.segFinal (s : State) (jn d seq g wm : Nat) : State :=
  ((s.modStream jn d fun x => { x with segs := store false x.segs g true, watermark := wm }).setBit seq g).setWatermark seq wm

/-- `n` bytes of a segment are written: the segment is final when none is left, unless the transfer has read poison (R249, R253). -/
def State.segAck (s : State) (jn d gen g n : Nat) : State :=
  let x := s.stream jn d
  match x.body with
  | none => s
  | some b =>
    if !x.moving ∨ x.gen ≠ gen then s
    else
      let h := StreamHdr.parse b.params
      let left := lookup 0 x.segLeft g - n
      let s := s.modStream jn d fun x => { x with segLeft := store 0 x.segLeft g left }
      if left ≠ 0 then s
      else
        let s := if x.badElems.isEmpty then s.segFinal jn d b.seq g (x.watermark + h.segBytes g) else s
        if (s.stream jn d).segLeft.isEmpty then s.xferEnd jn d else s

/-- The transfer in progress has read poison: none of its segments is final, those marked so far included (R253). -/
def State.xferSpoils (s : State) (jn d : Nat) (b : StreamBody) (h : StreamHdr) : State :=
  let wm := (s.stream jn d).doneXfers * h.count * h.width
  ((s.modStream jn d fun x => { x with segs := [], watermark := wm }).modEntry b.seq fun e => { e with bits := [] }).setWatermark b.seq wm

/-- The scratchpad words that the additions of a transfer into scratchpads read (R96). -/
def addWords (rs : List WriteReq) : List Nat :=
  ((rs.filter fun r => r.add != 0 && decide (tileBase ≤ r.da)).flatMap fun r => touchedUnits r.da r.bytes.length).dedup

/-- An addition of the transfer is refused at its scratchpad: it changes nothing, and the transfer fails with the atomic's status
(R97, R253). -/
def State.xferRefused (s : State) (jn d : Nat) (b : StreamBody) (h : StreamHdr) : State :=
  let n := (s.stream jn d).doneXfers
  let s := (s.dropWork b.seq).1.xferSpoils jn d b h
  (s.modStream jn d fun x => { x with moving := false, segLeft := [] }).faultStream jn d St.paramTarget n (n * h.count * h.width)

/-- Elements that have been read go on: to the ordering point, to the skips that serve their places, or into a scratchpad at its
own port, where `found` is what error correction finds in the words that additions read (R96, R99, R244, R248). The data of a
transfer that is small enough in all travels by message (R260). -/
def State.emit (s : State) (jn d : Nat) (b : StreamBody) (h : StreamHdr) (src : Agent) (ms : List Moved) (found : List Ecc) : State :=
  let x := s.stream jn d
  let rs := h.requests jn x.gen b.seq x.doneXfers ms
  let bad := ms.filterMap fun m => m.poison.map fun u => (m.k, u)
  let s := s.modStream jn d fun x => { x with badElems := x.badElems ++ bad }
  let s := if bad.isEmpty then s else s.xferSpoils jn d b h
  let s := ((addWords rs).zip found).foldl (fun s w => s.readEcc w.1 w.2) s
  if rs.any s.addRefused then s.xferRefused jn d b h else
  let s := if stpFits (h.count * h.width) then rs.foldl (fun s r => s.carryMarked src (s.agentOf r.da) 5 r.bytes r.marks) s else s
  match (if h.ordered then h.orderPoint s else none) with
  | some n => s.modSkip n fun k => { k with arrived := k.arrived ++ rs }
  | none =>
    rs.foldl (fun s r => match s.skipOf r.da with
      | some n => s.modSkip n fun k => { k with arrived := k.arrived ++ [r] }
      | none =>
        let s := (s.touch jn r.da r.bytes.length).performWrite r
        match r.owner with
        | .stream _ _ gen g => s.segAck jn d gen g r.bytes.length
        | _ => s) s

/-- Elements in one line of the source. -/
def StreamHdr.inner (h : StreamHdr) : Nat := max 1 (h.src.extent (h.src.ndim - 1))

/-- What a stream reads at once: a source in a scratchpad, at its port as master MGMT (R244). -/
def State.movedAt (s : State) (h : StreamHdr) (i k : Nat) : Moved :=
  { k := k, bytes := s.bytes (h.srcAt i k) h.width, poison := s.firstPoison (h.srcAt i k) h.width }

/-- The read requests of a transfer, line after line: granules, or sectors when the innermost stride is not 1. Each comes with its
line: base, size, and how many earlier lines have asked for the same bytes (R232). -/
def StreamHdr.reads (h : StreamHdr) (i : Nat) : List (Nat × Nat × Nat × Nat) :=
  let sector := (h.src.strides[h.src.ndim - 1]?).getD 1 != 1
  (requestsOf (fun _ => sector) ((List.range h.count).map fun k => ((0, k / h.inner), h.srcAt i k, h.width))).map fun r => (r.1.2, r.2)

/-- The scratchpad words that a transfer reads at its source. -/
def StreamHdr.sourceWords (h : StreamHdr) (i : Nat) : List Nat :=
  ((List.range h.count).flatMap fun k => touchedUnits (h.srcAt i k) h.width).dedup

/-- A transfer begins: its reads are spread over the skips that serve the source (R248); of a source in a scratchpad they are made
at once, and `found` is what error correction finds there and, after that, in the words that additions read. -/
def State.startXfer (s : State) (jn d : Nat) (x : Stream) (b : StreamBody) (h : StreamHdr) (found : List Ecc) : State :=
  let s := s.startEntry b.seq
  let s := s.modStream jn d fun x =>
    { x with state := .running, moving := true, segs := [], badElems := [], nextElem := 0,
             segLeft := (List.range h.segments).foldl (fun m g => store 0 m g (h.segBytes g)) [] }
  let rs := h.reads x.doneXfers
  match (rs.head?.map fun r => r.2.1).bind s.skipOf with
  | none =>
    let s := rs.foldl (fun s r => s.remotePort .mgmt r.2.1 r.2.2.1) s
    let ws := h.sourceWords x.doneXfers
    let s := (ws.zip found).foldl (fun s w => s.readEcc w.1 w.2) s
    s.emit jn d b h (s.agentOf (h.srcAt x.doneXfers 0)) ((List.range h.count).map (s.movedAt h x.doneXfers)) (found.drop ws.length)
  | some _ =>
    let want (r : Nat × Nat × Nat × Nat) : ReadReq :=
      { handle := b.seq, gen := x.gen + 1, granule := r.2.1, size := r.2.2.1, copy := r.2.2.2, users := [(r.1, 0)], marked := false }
    let s := if stpFits (h.count * h.width) then rs.foldl (fun s r => s.carry .management (s.agentOf r.2.1) 4 (leBytes 8 r.2.1)) s else s
    let s := rs.foldl (fun s r => match s.skipOf r.2.1 with
      | some n => s.modSkip n fun k => { k with wants := k.wants ++ [want r] }
      | none => s) s
    ((rs.filterMap fun r => s.skipOf r.2.1).dedup).foldl State.pump s

/-- A transfer begins when its trigger is met and none is in progress. -/
def State.transferStart (s : State) (jn d : Nat) (found : List Ecc) : State :=
  let x := s.stream jn d
  match x.body with
  | none => s
  | some b =>
    let h := StreamHdr.parse b.params
    if (x.state ≠ .waiting ∧ x.state ≠ .running) ∨ x.moving ∨ !s.triggerMet x b h then s
    else s.startXfer jn d x b h found

/-! #### Data of a stream's reads (R248, R256) -/

/-- The element's bytes in staged data that its line's request has brought. -/
def Staged.moved (g : Staged) (h : StreamHdr) (i k : Nat) : Option Moved :=
  let a := h.srcAt i k
  if g.granule ≤ a ∧ a + h.width ≤ g.granule + g.size ∧ g.users.contains (k / h.inner, 0) then
    some { k := k, bytes := (g.bytes.drop (a - g.granule)).take h.width,
           poison := if (g.poison[(a - g.granule) / 32]?).getD false then some (unitOf a) else none }
  else none

/-- The staged data of a stream's arm at every skip. -/
def State.stagedOf (s : State) (seq gen : Nat) : List Staged :=
  s.skips.flatMap fun e => e.2.staged.filter fun g => g.handle == seq && g.gen == gen

/-- The longest run of elements from `k` on whose data is staged. -/
def StreamHdr.run (h : StreamHdr) (i : Nat) (gs : List Staged) : Nat → Nat → List Moved
  | 0, _ => []
  | fuel + 1, k =>
    if h.count ≤ k then []
    else match gs.findSome? fun g => g.moved h i k with
      | some m => m :: h.run i gs fuel (k + 1)
      | none => []

/-- The skip lets go of staged data that no element from `k` on needs. -/
def State.unstage (s : State) (seq gen : Nat) (h : StreamHdr) (i k : Nat) : State :=
  (s.skips.map Prod.fst).foldl (fun s n => s.modSkip n fun y =>
    { y with staged := y.staged.filter fun g => !(g.handle == seq && g.gen == gen) ||
        (h.ordered && ((List.range h.count).drop k).any fun e => (g.moved h i e).isSome) }) s

/-- Staged data of a stream goes on to the destination: at once, or in order in ordered mode. -/
def State.streamMoves (s : State) (jn d n : Nat) (found : List Ecc) : State :=
  let x := s.stream jn d
  match x.body with
  | none => s
  | some b =>
    let h := StreamHdr.parse b.params
    let gs := s.stagedOf b.seq (x.gen + 1)
    if !x.moving ∨ gs.isEmpty then s
    else
      let ms := if h.ordered then h.run x.doneXfers gs h.count x.nextElem
        else (List.range h.count).filterMap fun k => gs.findSome? fun g => g.moved h x.doneXfers k
      let next := if h.ordered then x.nextElem + ms.length else h.count
      let s := s.unstage b.seq (x.gen + 1) h x.doneXfers next
      (s.modStream jn d fun x => { x with nextElem := next }).emit jn d b h (.skip n) ms found

/-- The arm whose contents a job's descriptor holds, with its descriptor. -/
def State.armOf (s : State) (seq : Nat) : Option (Nat × Nat) :=
  (List.range 4).findSome? fun jn => match s.job jn with
    | some j => (j.streams.find? fun e => match e.2.body with | some b => b.seq == seq | none => false).map fun e => (jn, e.1)
    | none => none

/-- Data that a read of a skip has brought goes to the streams that asked for it; data of a generation that is over is discarded
(R256). -/
def State.streamData (s : State) (n : Nat) (found : List Ecc) : State :=
  let gs := (s.skip n).staged.filter fun g => g.gen != 0
  let current (g : Staged) : Option (Nat × Nat) := (s.armOf g.handle).filter fun p => (s.stream p.1 p.2).gen + 1 == g.gen
  let s := s.modSkip n fun k => { k with staged := k.staged.filter fun g => g.gen == 0 || (current g).isSome }
  ((gs.filterMap current).dedup).foldl (fun s p => s.streamMoves p.1 p.2 n found) s

/-- A read of a skip returns; what it brought for streams goes on. `es` is what error correction found in the read's 32-byte pieces
and, after them, in the scratchpad words that additions of the data read. -/
def State.skipReturn (s : State) (n : Nat) (es : List Ecc) : State :=
  (s.readReturn n es).streamData n (es.drop ((((s.skip n).reads.head?.map ReadReq.size).getD 0) / 32))

/-! ### Host transfers ending (R259, R364) -/

/-- Entries that wait on a host transfer learn how it ended; an abort ends the streams among them, `stream` being the
status they end with. -/
def State.hostEnded (s : State) (jn id st : Nat) : State :=
  let names (b : StreamBody) : Bool :=
    let h := StreamHdr.parse b.params
    h.trigger == 2 && h.hostXfer == id && b.host.isNone
  let tell (b : StreamBody) : StreamBody := if names b then { b with host := some st } else b
  let ds := match s.job jn with
    | some j => j.streams.map Prod.fst
    | none => []
  let s := ds.foldl (fun s d =>
    let hit := match (s.stream jn d).body with
      | some b => names b && (s.stream jn d).state == .waiting
      | none => false
    let s := s.modStream jn d fun x => { x with body := x.body.map tell, shadow := x.shadow.map tell }
    if hit && st != St.done then s.faultStream jn d st 0 0 else s.streamReady jn d) s
  { s with works := s.works.map fun w =>
      if w.job = jn ∧ w.opcode = opcBARRIER ∧ bit (le w.params 1 1) 3 ∧ le w.params 4 4 = id ∧ w.host.isNone
      then { w with host := some st } else w }

/-! ### The apply pass (R257) -/

/-- An element of an image: its item, the global linear index of the element of D that it stands for, that element's bit
address, and the bit address of the image's code in the scratch. -/
structure Applied where
  item : Nat
  ix : Nat
  dstBit : Nat
  srcBit : Nat
  /-- padding elements that follow it in its MX block, which are written as zero with it (R43) -/
  pad : Nat

/-- Elements in ascending global linear index; equal indices keep their order. -/
def insertApplied (x : Applied) : List Applied → List Applied
  | [] => [x]
  | y :: r => if x.ix < y.ix then x :: y :: r else y :: insertApplied x r

/-- The elements of the images of an operation's final items, in the order in which the pass applies them (R257). -/
def Feed.applyList (x : Feed) (o : OpRun) : List Applied :=
  let v := x.v
  let D := v.storeHeld
  let items := (List.range o.tiling.items).filter fun i => lookup false o.final i
  (items.flatMap fun n =>
    let it := v.item o.tiling n
    if !it.root || it.kind == .part then []
    else (x.live it).flatMap fun p => (v.outElems p).map fun e =>
      let ix := v.dIndex it.batch e.1 e.2
      let k := (ix[D.t.ndim - 1]?).getD 0 + 1
      { item := n, ix := D.globalLinear ix, dstBit := D.bitAddr ix,
        pad := if D.fmt.isMx ∧ k = D.len (D.t.ndim - 1) then ceilDiv k 32 * 32 - k else 0,
        srcBit := 8 * o.scratchDa + v.imageBit o.tiling x.cap.length it.rank (e.1 - it.im * o.tiling.mt) (e.2 - it.jn * o.tiling.nt) : Applied }).foldl
    (fun a e => insertApplied e a) []

/-- Writes a code of `w` bits at a bit address. -/
def State.writeBits (s : State) (jn ba w code : Nat) : State :=
  let a := ba / 8
  let n := ceilDiv (ba % 8 + w) 8
  let old := s.rdNat a n
  let sh := 2 ^ (ba % 8)
  let v := old % sh + code % 2 ^ w * sh + old / (sh * 2 ^ w) * (sh * 2 ^ w)
  s.devWrite jn a (leBytes n v)

/-- Where the apply pass runs: the skip that serves D's lowest granule (R257). -/
def State.applyPoint (s : State) (v : View) : Agent :=
  let D := v.storeHeld
  s.agentOf (spanOf D.t.base D.fmt.bits D.t.strides D.shape).1.toNat

/-- The pass applies the first `n` elements, each an STP transfer from its skip (R260). An item whose image holds a poisoned unit is left out, and the unit counts as poison
that it consumed (R225, R257; DEDUCED, log 67). -/
def State.applyFirst (s : State) (seq n : Nat) : State :=
  match s.work seq with
  | none => s
  | some w =>
    match w.op, s.job w.job, (s.job w.job).bind fun j => w.body j.mapping with
    | some o, some j, some (.op v) =>
      let x := mkFeed v o j w.step s.byte
      let bits := v.storeHeld.fmt.bits
      let point := s.applyPoint v
      let all := x.applyList o
      let bad := all.filterMap fun e => (s.firstPoison (e.srcBit / 8) (ceilDiv (e.srcBit % 8 + bits) 8)).map fun u => (e.item, u)
      let es := (all.filter fun e => !bad.any fun b => b.1 == e.item).take n
      let s := es.foldl (fun s e =>
        let c := bitsAt s.byte e.srcBit bits
        let s := s.carry point (s.agentOf (e.dstBit / 8)) 5 (leBytes (ceilDiv bits 8) c)
        let s := s.writeBits w.job e.dstBit bits (if v.d.mode = 1 then addCode v.storeHeld.fmt (bitsAt s.byte e.dstBit bits) c else c)
        if e.pad = 0 then s else s.writeBits w.job (e.dstBit + bits) (e.pad * bits) 0) s
      let s := s.modOp seq fun o =>
        { o with applied := es.length, poison := o.poison ++ (bad.map fun b => (b.1, v.ops.length, b.2)).dedup }
      s.setWatermark seq es.length
    | _, _, _ => s

/-- How many elements an operation's apply pass has in all. -/
def State.applyCount (s : State) (seq : Nat) : Nat :=
  match s.work seq with
  | none => 0
  | some w =>
    match w.op, s.job w.job, (s.job w.job).bind fun j => w.body j.mapping with
    | some o, some j, some (.op v) => ((mkFeed v o j w.step s.byte).applyList o).length
    | _, _, _ => 0

/-- The pass has applied every image in ascending global linear index; the operation completes (R257). -/
def State.applyEnd (s : State) (seq : Nat) : State :=
  match s.work seq with
  | none => s
  | some w =>
    if !(w.op.map OpRun.applying).getD false || w.cancelling then s
    else
      let s := (s.applyFirst seq (s.applyCount seq)).modOp seq fun o => { o with applying := false }
      match s.work seq, s.opRun seq with
      | some w, some o => s.completeOp w o
      | _, _ => s

/-! ### Cancellation (R254, R255, R385) -/

/-- The reply block of a cancellation; its first count and watermark come from the target. -/
def cancelBlock (units : Nat) (counts : List Nat) (gen wm : Nat) : List Byte :=
  let c (i : Nat) : Nat := (counts[i]?).getD 0
  leBytes 4 units ++ leBytes 4 (c 0) ++ leBytes 4 (c 1) ++ leBytes 4 (c 2) ++ leBytes 4 (c 3) ++ leBytes 4 gen ++ leBytes 8 wm

def zeroBlock : List Byte := cancelBlock 0 [] 0 0

/-- Steps 1 to 3 of R254 on an entry; `by_` is the command that waits for the end of the cancellation. An apply pass stops at an
element that the model leaves open: a free value says how many it has applied (log 13). -/
def State.beginCancel (s : State) (w : Work) (by_ : Option Nat) : State :=
  if w.cancelling then s.modWork w.seq fun v => { v with cancelBy := v.cancelBy ++ by_.toList }
  else
    let x := s.stream w.job w.sd
    let lost := if x.moving then x.segTotal - x.segs.length else 0
    let (s, counts) := s.dropWork w.seq
    let counts := if w.opcode = opcSTREAM_ARM then lost :: counts.drop 1 else counts
    let s := if (w.op.map OpRun.applying).getD false then
        (s.applyFirst w.seq ((Config.freeValue s.freeCtr).toNat % (s.applyCount w.seq + 1))).freshen
      else s
    let s := s.modWork w.seq fun v => { v with cancelling := true, cancelBy := v.cancelBy ++ by_.toList, running := true }
    let s := if w.opcode = opcSTREAM_ARM then s.modStream w.job w.sd fun x => { x with state := .cancelling } else s
    match by_ with
    | some q => s.modWork q fun v => { v with counts := counts }
    | none => s

/-- The end of an entry that has not started, or that holds nothing outside the queue: `PARTIAL`, watermark 0 (R383, R385). -/
def State.dropUnrun (s : State) (w : Work) : State :=
  let s := match w.ctx.bind s.ctx, w.ctx with
    | some k, some c => s.endSpan c k.phase true
    | _, _ => s
  if w.opcode = opcSTREAM_ARM then
    match (s.stream w.job w.sd).shadow with
    | some b => if b.seq = w.seq then (s.modStream w.job w.sd fun x => { x with shadow := none }).finishAt w.seq St.partEnd 0 (armReply 0 0)
                else s.finishAt w.seq St.partEnd 0 (armReply 0 0)
    | none => s.finishAt w.seq St.partEnd 0 (armReply 0 0)
  else match w.op with
    | some o => (s.pushEnded w o St.partEnd).finishAt w.seq St.partEnd 0 (o.plainBlock (w.opcode == opcROW))
    | none => s.finishAt w.seq St.partEnd 0 w.emptyReply

/-- The commands that waited for a cancellation complete: the first with its counts, the others with zero counts. -/
def State.endCancellers (s : State) (by_ : List Nat) (units gen wm : Nat) : State :=
  by_.foldl (fun s q =>
    match s.work q with
    | some v => if v.opcode = 0x0211 ∨ v.opcode = 0x0320 then
        s.finish q St.done (if v.counts.isEmpty then zeroBlock else cancelBlock units v.counts gen wm) else s
    | none => s) s

/-- Every marked read has returned and every issued write has been acknowledged: the target ends with `PARTIAL` (R254). -/
def State.cancelled (s : State) (seq : Nat) : State :=
  match s.work seq with
  | none => s
  | some w =>
    if !w.cancelling || s.readsOut seq || s.issuedOut seq then s
    else
    let s := match w.ctx.bind s.ctx, w.ctx with
      | some k, some c => s.endSpan c k.phase true
      | _, _ => s
    if w.opcode = opcSTREAM_ARM then
      let x := s.stream w.job w.sd
      let gen := (x.gen + 1) % 2 ^ 32
      let s := s.finishAt seq St.partEnd x.watermark (armReply x.watermark x.doneXfers)
      let s := s.modStream w.job w.sd fun x => { x with state := .free, gen := gen, body := none, moving := false, segLeft := [], segs := [], badElems := [], ordered := false, doneXfers := 0 }
      (s.endCancellers w.cancelBy x.doneXfers gen x.watermark).shadowEffect w.job w.sd
    else match w.op with
      | some o =>
        let s := s.endPlain w o St.partEnd
        s.endCancellers w.cancelBy o.finalCount 0 o.finalCount
      | none =>
        let wm := match s.entry seq with | some e => e.watermark | none => 0
        (s.finishAt seq St.partEnd wm w.emptyReply).endCancellers w.cancelBy 0 0 wm

/-! ### Barriers (R264-R267) -/

structure BarrierHdr where
  job : Bool
  goOn : Bool
  waitFlag : Bool
  setFlag : Bool
  waitHost : Bool
  hostXfer : Nat
  waitDa : Nat
  waitVal : Nat
  setDa : Nat
  setVal : Nat

def BarrierHdr.parse (b : List Byte) : BarrierHdr :=
  let f := le b 1 1
  { job := le b 0 1 == 1, goOn := bit f 0, waitFlag := bit f 1, setFlag := bit f 2, waitHost := bit f 3, hostXfer := le b 4 4,
    waitDa := le b 8 8, waitVal := le b 16 8, setDa := le b 24 8, setVal := le b 32 8 }

/-- The checks on a barrier's parameters. -/
def barrierStatus (s : State) (jn : Nat) (j : Job) (p : List Byte) : Nat :=
  let h := BarrierHdr.parse p
  firstBad
    [ (decide (le p 0 1 ≤ 1), St.paramRange),
      ((h.waitHost || h.hostXfer == 0) && (h.waitFlag || (h.waitDa == 0 && h.waitVal == 0)) &&
        (h.setFlag || (h.setDa == 0 && h.setVal == 0)), St.paramRange),
      (!h.waitHost || (s.xferOf jn h.hostXfer).isSome, St.paramRange),
      (flagAligned h.waitDa && flagAligned h.setDa, St.paramAlign),
      ((!h.waitFlag || s.reachable jn j h.waitDa 8) && (!h.setFlag || s.reachable jn j h.setDa 8), St.secWindow) ]

/-- The contexts that a barrier orders. -/
def State.barrierCtxs (s : State) (w : Work) (job : Bool) : List Nat :=
  (List.range 16).filter fun c => w.ctx == some c || (job && (match s.ctx c with | some k => k.job == w.job | none => false))

/-- A barrier has decided: the entries that it waited for and those that it has failed are judged now, for every barrier that is
accepted later; barriers already accepted still wait for them (R266; DEDUCED, log 26). Marks that no barrier still looks at go. -/
def State.judged (s : State) (w : Work) (job : Bool) (gone : List Nat) : State :=
  let now := s.host.next.toNat
  let seen (b : Nat × Option Nat) : Bool := match b.2 with
    | none => true
    | some n => s.works.any fun v => v.opcode == opcBARRIER && seqBefore v.seq n
  (s.barrierCtxs w job).foldl (fun s c => s.modCtx c fun k =>
    { k with bad := (k.bad.map fun b =>
        if b.2.isNone && (seqBefore b.1 w.seq || b.1 == w.seq || gone.contains b.1) then (b.1, some now) else b).filter seen }) s

/-- An entry before `seq` in the queue of one of these contexts has ended badly, and no barrier had judged it when `seq` was
accepted (R265). -/
def State.badBefore (s : State) (cs : List Nat) (seq : Nat) : Bool :=
  cs.any fun c => match s.ctx c with
    | some k => k.bad.any fun b => seqBefore b.1 seq && (match b.2 with | none => true | some n => seqBefore seq n)
    | none => false

/-- A barrier decides, once every entry that it waits for is final with its writes acknowledged. -/
def State.barrierEnd (s : State) (seq : Nat) : State :=
  match s.work seq with
  | none => s
  | some w =>
    let h := BarrierHdr.parse w.params
    if w.opcode ≠ opcBARRIER ∨ !(if h.job then s.jobClear seq && s.atHead seq else s.ctxClear seq) then s
    else
      let bad := s.badBefore (s.barrierCtxs w h.job) seq
      let aborted := match w.host with | some st => if st = St.done then none else some st | none => none
      let fail (st : Nat) : State :=
        let gone := ((s.after seq).filter fun v => v.job == w.job && v.ctx.isSome && (h.job || v.ctx == w.ctx)).map Work.seq
        let s := s.failBehind seq h.job
        let s := s.modJob w.job fun j => { j with barFailed := sat16 (j.barFailed + 1) }
        ((s.finish seq st [])).judged w h.job gone
      match (if h.goOn then none else aborted) with
      | some st => fail st
      | none =>
        if bad ∧ !h.goOn then fail St.statePredFailed
        else if (h.waitHost ∧ w.host.isNone) ∨ (h.waitFlag ∧ s.rdNat h.waitDa 8 < h.waitVal) then s
        else
          let s := ((s.finish seq St.done []).judged w h.job []).signal w.job
          if h.setFlag then s.flagPut w.job h.setDa h.setVal else s

end Sys2Proof.Machine
end

