-- ==== Sys2Proof/Machine/Training.lean ====
section
/-! DEFINITION. The training step: `STEP_BEGIN` (R272-R274, R340), gradient sets (R286-R290), phase marks (R299, R300). -/

namespace Sys2Proof.Machine

/-! ### Step numbers at acceptance (R273, R340) -/

/-- Step and attempt after a `STEP_BEGIN` with step number `n`. -/
def nextAttempt (step attempt n : Nat) : Nat × Nat := (n, if n = step then (attempt + 1) % 65536 else 0)

/-- The step number and attempt of an entry accepted now: those that the `STEP_BEGIN`s accepted before it leave. -/
def State.stepAt (s : State) (jn : Nat) : Nat × Nat :=
  match s.job jn with
  | none => (0, 0)
  | some j =>
    (s.works.filter fun w => w.job == jn && w.opcode == opcSTEP_BEGIN && w.ctx.isSome).foldl
      (fun a w => nextAttempt a.1 a.2 (le w.params 0 4)) (j.step, j.attempt)

/-- A `STEP_BEGIN` of the job waits to take effect. -/
def State.stepWaits (s : State) (jn : Nat) : Bool :=
  s.works.any fun w => w.job == jn && w.opcode == opcSTEP_BEGIN && w.ctx.isSome

/-- The job's contexts. -/
def State.ctxsOf (s : State) (jn : Nat) : List Nat :=
  (List.range 16).filter fun c => match s.ctx c with | some k => k.job == jn | none => false

/-- Closes every open set of the job (R274). -/
def State.closeSets (s : State) (jn : Nat) : State :=
  match s.job jn with
  | none => s
  | some j => j.sets.foldl (fun s g => s.closeSet jn g.tensorId) s

/-- Entries in the haylofts of a job. -/
def State.hayCount (s : State) (jn : Nat) : Nat :=
  (s.ctxsOf jn).foldl (fun a c => match s.ctx c with | some k => a + k.hay.length | none => a) 0

/-- The new attempt of a job: haylofts and gradient sets are emptied, and the entry ends with their counts (R272-R274,
R300, R340, R441). -/
def State.newAttempt (s : State) (w : Work) (j : Job) (seq : Nat) : State :=
  let p := nextAttempt j.step j.attempt (le w.params 0 4)
  let cs := s.ctxsOf w.job
  let entries := s.hayCount w.job
  let s := cs.foldl (fun s c => match s.ctx c with
    | some k => s.endSpan c (s.phaseOf k) false
    | none => s) s
  let s := s.closeSets w.job
  let s := cs.foldl (fun s c => s.modCtx c fun k => { k with hay := [], pushes := 0, pushSince := none, popSince := none }) s
  let s := s.modJob w.job fun j =>
    { j with step := p.1, shownStep := p.1, attempt := p.2, aborted := false, collIds := [], delivered := [], bad := j.bad.filter (seqBefore seq),
             beginSeq := some seq, touched := false, poisonState := false,
             discards := sat32 (j.discards + entries + j.sets.length) }
  s.finish seq St.done (leBytes 4 entries ++ leBytes 4 j.sets.length)

/-! ### Gradient sets (R286, R287) -/

/-- The job's tiles that are not quarantined, in ascending paddock and then ascending tile number. -/
def State.pinTiles (s : State) (j : Job) : List Nat :=
  (List.range 20).flatMap fun p =>
    if j.paddocks.getLsbD p then (List.range 800).filter fun n => paddockOf n == p && !(s.tile n).quarantined else []

/-- Frames of a tile that no open set and no block pinned so far has reserved. -/
def emptyFrames (sets : List GradSet) (pins : List (Nat × List Nat)) (tile : Nat) : List Nat :=
  let used := ((sets.flatMap GradSet.pins) ++ pins).flatMap fun p => if p.1 = tile then p.2 else []
  (List.range 7).filter fun f => !used.contains f

/-- Pins `n` blocks of `need` frames each; none when they do not all fit. -/
def pinBlocks (sets : List GradSet) (need : Nat) : List Nat → Nat → List (Nat × List Nat) → Option (List (Nat × List Nat))
  | _, 0, acc => some acc
  | [], _ + 1, _ => none
  | t :: ts, n + 1, acc =>
    let fits := (emptyFrames sets acc t).length / need
    let here := (List.range (min (n + 1) fits)).foldl (fun a _ => a ++ [(t, (emptyFrames sets a t).take need)]) acc
    pinBlocks sets need ts (n + 1 - min (n + 1) fits) here

/-- The checks of `GRAD_OPEN` that its parameters decide. -/
def gradStatus (p : List Byte) : Nat :=
  let count := le p 8 4
  let a := le p 20 1
  let b := le p 21 1
  firstBad
    [ (decide (1 ≤ count ∧ count ≤ 65536) && decide (1 ≤ a ∧ 1 ≤ b ∧ a * b ≤ 7), St.paramRange),
      (decide (le p 4 4 + count ≤ 2 ^ 32), St.paramRange) ]

def State.gradOpens (s : State) (seq : Nat) : State :=
  match s.work seq with
  | none => s
  | some w =>
    match s.job w.job with
    | none => s
    | some j =>
      if w.opcode ≠ 0x0314 ∨ !s.atHead seq then s
      else
        let p := w.params
        let id := le p 0 4
        let rows := le p 12 4
        let cols := le p 16 4
        let a := le p 20 1
        let b := le p 21 1
        if j.sets.any fun g => g.tensorId == id then s.finish seq St.stateWgbFrame []
        else if 8 ≤ j.sets.length then s.finish seq St.resWgbFrames []
        else match pinBlocks j.sets (a * b) (s.pinTiles j) (ceilDiv rows (48 * a) * ceilDiv cols (48 * b)) [] with
          | none => s.finish seq St.resWgbFrames []
          | some pins =>
            let g : GradSet :=
              { tensorId := id, mbFirst := le p 4 4, mbCount := le p 8 4, rows := rows, cols := cols, a := a, b := b, pins := pins,
                accepted := [], settings := [], taken := [], lost := false }
            (s.modJob w.job fun j => { j with sets := j.sets ++ [g] }).finish seq St.done []

/-! ### Phase marks (R299) -/

def phaseStatus (p : List Byte) : Nat :=
  firstBad [([1, 2, 3, 5].contains (le p 0 1), St.paramRange)]

def State.phaseMarks (s : State) (seq : Nat) : State :=
  match s.work seq with
  | none => s
  | some w =>
    match w.ctx with
    | none => s
    | some c =>
      if w.opcode ≠ 0x0315 ∨ !s.atHead seq then s
      else
        let ph := le w.params 0 1
        let s := s.endSpan c ph false
        let s := s.modCtx c fun k => { k with markPhase := some ph, stage := le w.params 1 1, microBatch := le w.params 4 4 }
        s.finish seq St.done []

/-- The start of an operation; one whose ZERO tiles go into an entry without a place waits for it (R281). -/
def State.opStart (s : State) (seq : Nat) : State :=
  match s.work seq with
  | none => s
  | some w =>
    match w.ctx with
    | some c => if s.pushWaits w && (OpDesc.parse w.params).skipUnselected then s.pushMustWait c else (s.startOp seq).pumpAll
    | none => s

end Sys2Proof.Machine
end

