-- ==== Sys2Proof/Machine/Fabric.lean ====
section
/-! DEFINITION. The fabric: flits and link retry (R305, R306), training and port states (R307, R308), packets, routes and
end-to-end acknowledgement (R309-R313). -/

namespace Sys2Proof.Machine

/-! ### Packets (R310) -/

def pkREADY : Nat := 1
def pkDATA : Nat := 2
def pkJOIN : Nat := 3
def pkACK : Nat := 4
def pkABORT : Nat := 5

def encodePacket (k : FabPacket) : List Byte :=
  leBytes 2 k.dest.toNat ++ leBytes 2 k.src.toNat ++ leBytes 4 k.tag.toNat ++ leBytes 1 k.pkind.toNat ++ leBytes 1 k.format.toNat ++
  leBytes 2 k.payload.length ++ leBytes 4 k.collId.toNat ++ leBytes 4 k.step.toNat ++ leBytes 2 k.attempt.toNat ++
  leBytes 2 k.epoch.toNat ++ leBytes 4 k.unit.toNat ++ leBytes 4 k.offset.toNat ++ leBytes 16 k.poison.toNat ++ k.payload

/-- What identifies a delivery (R312). -/
def packetKey (k : FabPacket) : List Nat :=
  [k.collId.toNat, k.step.toNat, k.attempt.toNat, k.epoch.toNat, k.unit.toNat, k.offset.toNat]

/-- What a receiver knows a duplicate by: the sender and the identity, since two senders of one collective may name the same node
for different elements (R312, R329; DEDUCED, log 73). -/
def deliveryKey (k : FabPacket) : List Nat := k.src.toNat :: packetKey k

/-! ### Flits (R304, R305) -/

def ftIDLE : Nat := 0
def ftDATA : Nat := 1
def ftACK : Nat := 2
def ftNAK : Nat := 3
def ftTRAIN : Nat := 4

/-- The 256 bytes of a flit; a payload that does not fill it is padded with zeros (DESIGN CHOICE, log 29). -/
def flitBytes (kind seq ack credit : Nat) (pay : List Byte) : List Byte :=
  let b := leBytes 2 (seq % 4096 + 4096 * kind) ++ leBytes 2 (ack % 4096) ++ leBytes 2 credit ++ leBytes 2 0 ++
    pay ++ List.replicate (244 - pay.length) 0#8
  b ++ leBytes 4 (crc32c b).toNat

def flitGood (f : Flit) : Bool := f.bytes.length == 256 && le f.bytes 252 4 == (crc32c (f.bytes.take 252)).toNat
def flitKind (f : Flit) : Nat := field (le f.bytes 0 2) 15 12
def flitSeq (f : Flit) : Nat := field (le f.bytes 0 2) 11 0
def flitAck (f : Flit) : Nat := field (le f.bytes 2 2) 11 0
def flitCredit (f : Flit) : Nat := le f.bytes 4 2

/-- A flit striped across active lanes in lane order, byte by byte (R304; DESIGN CHOICE, log 29: the spec names no stripe). -/
def stripe (lanes : BitVec 4) (b : List Byte) : List (Nat × List Byte) :=
  let ls := (List.range 4).filter fun i => lanes.getLsbD i
  ls.zipIdx.map fun l => (l.1, (b.zipIdx.filter fun x => x.2 % ls.length == l.2).map Prod.fst)

def Port.up (x : Port) : Bool := x.state == 2 || x.state == 3

/-- The port goes to a state, and the time at which it was last UP or DEGRADED is kept. -/
def Port.leaves (x : Port) (state now : Nat) : Port := { x with state := state, leftAt := if x.up then now else x.leftAt }

/-- A port shares its peer's ID with another port. -/
def State.clash (s : State) (p : Nat) : Bool :=
  let x := s.port p
  x.peerValid && x.peerFid != 0xFFF &&
    ((List.range 8).any fun q => q != p && (s.port q).peerValid && (s.port q).peerFid == x.peerFid)

/-- The ports that report a peer which this one reports too, itself among them (R309). -/
def State.clashes (s : State) (p : Nat) : List Nat :=
  if s.clash p then (List.range 8).filter fun q => (s.port q).peerValid && (s.port q).peerFid == (s.port p).peerFid else []

/-- The port may send: up, its PLL locked (R405, R435, R466), and not one of two that have reported the same peer since the last
write of the fabric ID (R309). -/
def State.carries (s : State) (p : Nat) : Bool :=
  (s.port p).up && s.power.fabLock.getLsbD (p / 4) && !s.fab.clashing.contains p

/-- The port may send bytes of packets: the device has a fabric ID too (R309). -/
def State.sendsPackets (s : State) (p : Nat) : Bool := s.carries p && s.fab.fid != 0xFFF

/-- The port sends one flit, with the acknowledgement and the credits that are due (R305, R306). -/
def State.sendFlit (s : State) (p kind seq : Nat) (pay : List Byte) : State :=
  if !s.carries p then s
  else
    let x := s.port p
    (s.setPort p { x with sinceAck := 0, owed := x.owed % 256 }).send
      (.flit p (stripe x.lanes (flitBytes kind seq x.rxSeq (x.owed / 256) pay)))

/-- While it trains, a port sends the fabric ID and its number on every lane (R307; DESIGN CHOICE, log 29: their place in the
flit). -/
def State.sendTraining (s : State) (p : Nat) : State :=
  s.send (.flit p (stripe 0xF#4 (flitBytes ftTRAIN 0 (s.port p).rxSeq 0 (leBytes 2 s.fab.fid ++ leBytes 1 p))))

/-! ### Link retry (R306) -/

/-- `n` bytes of the packets under way have gone into flit `seq`. -/
def takeCarried (seq : Nat) : Nat → List Carried → List Carried
  | _, [] => []
  | n, c :: r =>
    if c.left = 0 then c :: takeCarried seq n r
    else { c with left := c.left - min n c.left, last := if n = 0 then c.last else seq } :: takeCarried seq (n - min n c.left) r

/-- Forms flits from the bytes that wait; with the replay buffer full, only an idle flit goes out. -/
def State.pushFlits (s : State) (p : Nat) : Nat → State
  | 0 => s
  | fuel + 1 =>
    let x := s.port p
    if x.txBytes.isEmpty ∨ !s.sendsPackets p then s
    else if 512 ≤ x.replay.length then s.sendFlit p ftIDLE x.txSeq []
    else
      let pay := x.txBytes.take 244
      let s := s.setPort p
        { x with txBytes := x.txBytes.drop 244, replay := x.replay ++ [(x.txSeq, pay)], txSeq := (x.txSeq + 1) % 4096,
                 carrying := takeCarried x.txSeq pay.length x.carrying }
      (s.sendFlit p ftDATA x.txSeq pay).pushFlits p fuel

def State.pushAll (s : State) (p : Nat) : State := s.pushFlits p 513

/-- An acknowledgement covers every flit up to its number. -/
def Port.acked (x : Port) (a : Nat) : Port :=
  if x.replay.any fun e => e.1 == a then
    let left := (x.replay.dropWhile fun e => e.1 != a).drop 1
    { x with replay := left, replaysInRow := 0, trainAt := none,
             carrying := x.carrying.filter fun c => c.left != 0 || left.any fun e => e.1 == c.last }
  else x

def State.ackFlits (s : State) (p a : Nat) : State :=
  if (s.port p).up then (s.modPort p fun x => x.acked a).pushAll p else s

/-- Sends the flits of the replay buffer again, from the named one. -/
def State.replayFrom (s : State) (p a : Nat) : State :=
  let x := s.port p
  let again := x.replay.dropWhile fun e => e.1 != a
  if again.isEmpty ∨ !s.sendsPackets p then s
  else
    let s := s.setPort p { x with replayCount := sat32 (x.replayCount + again.length), replaysInRow := x.replaysInRow + 1 }
    again.foldl (fun s e => s.sendFlit p ftDATA e.1 e.2) s

/-- A port that could send no packet bytes sends again from the oldest flit that is not acknowledged. -/
def State.resumePort (s : State) (p : Nat) : State :=
  match (s.port p).replay.head? with
  | some e => s.replayFrom p e.1
  | none => s

/-- A NAK goes out, naming the first flit that is missing. -/
def State.sendNak (s : State) (p : Nat) : State :=
  (s.modPort p fun x => { x with nakOut := true }).sendFlit p ftNAK (((s.port p).rxSeq + 1) % 4096) []

/-- What error correction did for a flit counts, for the port and for each lane in the millisecond that ends with it; a lane above
its limit is remembered (R304, R307). -/
def Port.corrections (x : Port) (f : Flit) (now : Nat) : Port :=
  let n (i : Nat) : Nat := (f.corrected[i]?).getD 0
  let new : List (Nat × Nat × Nat) := (x.laneCorr.filter fun e => decide (now - e.2.1 < 700000)) ++
    ((List.range 4).filter fun i => n i != 0).map fun i => (i, now, n i)
  let hit : Nat := (List.range 4).foldl (fun a i =>
    if 2 ^ x.limitExp < (new.filter fun e => e.1 == i).foldl (fun (m : Nat) e => m + e.2.2) 0 then a + 2 ^ i else a) 0
  { x with fecCorr := sat32 (x.fecCorr + n 0 + n 1 + n 2 + n 3),
           fecUncorr := sat32 (x.fecUncorr + ((List.range 4).filter fun i => f.badLanes.getLsbD i).length),
           laneCorr := new, exceeded := x.exceeded ||| BitVec.ofNat 4 hit }

/-- A good flit in order is taken: its acknowledgement and its credits count, and an ACK flit goes out after every 64 taken with
none sent. -/
def State.flitTaken (s : State) (p : Nat) (f : Flit) : State :=
  let s := s.modPort p fun x =>
    { x with rxSeq := (x.rxSeq + 1) % 4096, nakOut := false, sinceAck := x.sinceAck + 1, owed := x.owed + 244, credit := x.credit + flitCredit f }
  let s := s.ackFlits p (flitAck f)
  if 64 ≤ (s.port p).sinceAck then s.sendFlit p ftACK (s.port p).txSeq [] else s

/-- A data flit arrives. -/
def State.flitIn (s : State) (p : Nat) (f : Flit) : State :=
  if !(s.port p).up ∨ !s.power.fabLock.getLsbD (p / 4) then s
  else
    let s := s.modPort p fun x => x.corrections f s.sclk
    let want := ((s.port p).rxSeq + 1) % 4096
    if f.badLanes ≠ 0#4 then s.sendNak p
    else if !flitGood f then (s.modPort p fun x => { x with crcErr := sat32 (x.crcErr + 1) }).sendNak p
    else if flitKind f ≠ ftDATA then s.ackFlits p (flitAck f)
    else if flitSeq f = want then s.flitTaken p f
    else if (flitSeq f + 4096 - want) % 4096 < 2048 ∧ !(s.port p).nakOut then (s.sendNak p).ackFlits p (flitAck f)
    else s.ackFlits p (flitAck f)

/-- A NAK names the first flit that the peer misses: those before it have arrived, and the port sends again from it. -/
def State.nakIn (s : State) (p missing : Nat) : State :=
  if (s.port p).up then ((s.modPort p fun x => x.acked ((missing + 4095) % 4096)).replayFrom p missing).pushAll p else s

/-- The ACK flit that a port with no flit of its own sends at least once per microsecond, whether or not a flit has come since the
last. -/
def State.ackTimer (s : State) (p : Nat) : State := s.sendFlit p ftACK (s.port p).txSeq []

/-! ### Routes (R309, R311) -/

def Route.none : Route := { valid := false, primary := 0, altValid := false, alt := 0 }
def State.route (s : State) (f : Nat) : Route := lookup Route.none s.fab.routes f

/-- The port on which a packet for a destination leaves. -/
def State.portFor (s : State) (f : Nat) : Option Nat :=
  let r := s.route f
  if r.valid && s.carries r.primary then some r.primary
  else if r.altValid && s.carries r.alt then some r.alt
  else none

/-- The fabric skip that serves a port (R33). -/
def fabSkipOf (p : Nat) : Nat := 44 + p / 2

/-- The fabric skip through which data from and to a device passes: that of the route's port; FS0 for what stays here. -/
def State.fabSkip (s : State) (fid : Nat) : Nat := fabSkipOf ((s.portFor fid).getD (s.route fid).primary)

/-- Notes the port that has a packet that waits for its acknowledgement. -/
def State.noteUnacked (s : State) (k : FabPacket) (p : Option Nat) : State :=
  { s with fab := { s.fab with unacked := s.fab.unacked.map fun e => if e.1 == k then (k, p) else e } }

/-- A packet leaves on its route, or waits at the sender; a beginning wait for a route counts. -/
def State.routeOut (s : State) (k : FabPacket) : State :=
  match s.portFor k.dest.toNat with
  | some p =>
    if s.fab.fid = 0xFFF then { s with fab := { s.fab with waiting := s.fab.waiting ++ [k] } }
    else
      let s := (s.noteUnacked k (some p)).send (.packet p k)
      let b := encodePacket k
      (s.modPort p fun x => { x with txBytes := x.txBytes ++ b, carrying := x.carrying ++ [⟨k, b.length, 0⟩] }).pushAll p
  | none =>
    let s := s.noteUnacked k none
    { s with fab := { s.fab with waiting := s.fab.waiting ++ [k], noRoute := sat32 (s.fab.noRoute + 1) } }

/-- The device sends a packet of its own; DATA is kept until it is acknowledged end to end (R312). -/
def State.sendPacket (s : State) (k : FabPacket) : State :=
  let s := if k.pkind.toNat = pkDATA then { s with fab := { s.fab with unacked := s.fab.unacked ++ [(k, none)] } } else s
  s.routeOut k

def State.sendPackets (s : State) (ks : List FabPacket) : State := ks.foldl State.sendPacket s

/-- Packets that wait for a route try again; those that still find none go on waiting. -/
def State.retryWaiting (s : State) : State :=
  let ks := s.fab.waiting
  let s := { s with fab := { s.fab with waiting := [] } }
  ks.foldl (fun s k =>
    if (s.portFor k.dest.toNat).isSome ∧ s.fab.fid ≠ 0xFFF then s.routeOut k
    else { s with fab := { s.fab with waiting := s.fab.waiting ++ [k] } }) s

/-! ### Training and port states (R307, R308) -/

/-- What a lost port had taken and the peer has not acknowledged, and DATA that it had sent and that is not acknowledged end to
end. -/
def State.lostPackets (s : State) (p : Nat) : List FabPacket :=
  let own := (s.fab.unacked.filter fun e => e.2 == some p).map Prod.fst
  own ++ ((s.port p).carrying.map Carried.packet).filter fun k => !(s.fab.unacked.any fun e => e.1 == k)

/-- A port that is DOWN or DISABLED loses what it held; what is not known to have arrived is sent again on another route, or
waits for one (R308). -/
def State.portLost (s : State) (p state : Nat) : State :=
  let again := s.lostPackets p
  let s := s.modPort p fun x =>
    { x.leaves state s.sclk with
      txBytes := [], replay := [], carrying := [], sinceAck := 0, nakOut := false, replaysInRow := 0, lanes := 0#4
      trainAt := none, barren := [] }
  again.foldl State.routeOut s

/-- The retrains of a port that have carried no acknowledged data flit before the next, in the second before `now`. -/
def Port.failures (x : Port) (now : Nat) : List Nat :=
  (x.barren ++ x.trainAt.toList).filter fun t => decide (now - t ≤ 700000000)

/-- A port begins to retrain; after three fruitless retrains in one second it goes DOWN instead, unless the host asks for the
retrain (R307). -/
def State.retrain (s : State) (p : Nat) (testAll : Bool) : State :=
  let x := s.port p
  if !x.enable ∨ !s.power.fabLock.getLsbD (p / 4) then s
  else if !testAll ∧ 3 ≤ (x.failures s.sclk).length then s.portLost p 0
  else
    (s.setPort p { x.leaves 1 s.sclk with
      retrains := sat16 (x.retrains + 1), testAll := x.testAll || testAll, replaysInRow := 0
      trainAt := some s.sclk, barren := if testAll then [] else x.failures s.sclk }).sendTraining p

def popcount (w v : Nat) : Nat := ((List.range w).filter fun i => bit v i).length

/-- One record for each lane dropped (R478). -/
def State.laneEvents (s : State) (p : Nat) (lanes : BitVec 4) : State :=
  ((List.range 4).filter fun i => lanes.getLsbD i).foldl (fun s i => s.event 8 (leBytes 1 p ++ leBytes 1 i)) s

/-- The port after a retrain with result `r` (R307): the lanes that it keeps and what it exchanged, and the lanes that failed in it. -/
def Port.tested (x : Port) (r : TrainResult) : Port × BitVec 4 :=
  let tested : BitVec 4 := if x.testAll then 0xF#4 else ~~~x.dropped
  let lanes := tested &&& r.locked &&& ~~~x.exceeded
  let fresh := tested &&& ~~~lanes
  let dropped : BitVec 4 := ~~~lanes
  ({ x with lanes := lanes, dropped := dropped, laneDrops := sat16 (x.laneDrops + popcount 4 fresh.toNat), testAll := false,
            laneCorr := [], exceeded := 0#4,
            peerFid := r.peerFid.toNat, peerPort := r.peerPort.toNat, peerValid := true, margins := r.margins }, fresh)

/-- A port comes up with `n` lanes (R306, R307, R311): it sends again what is not acknowledged, and waiting packets go on. -/
def State.comesUp (s : State) (p n : Nat) : State :=
  let s := s.modPort p fun x => { x with state := if n = 4 then 2 else 3 }
  ((s.resumePort p).pushAll p).retryWaiting

/-- The lowest eye margin of a port's lanes, in units of 1/256 of the eye. -/
def Port.margin (x : Port) : Option Nat :=
  (((List.range 4).filter fun i => x.lanes.getLsbD i).map fun i => x.margins.toNat / 2 ^ (8 * i) % 256).foldl
    (fun (m : Option Nat) v => some (match m with | some a => min a v | none => v)) none

/-- The margins of a training count toward the next hourly record (R478). -/
def State.noteMargin (s : State) (p : Nat) : State :=
  match (s.port p).margin with
  | some m => { s with life := { s.life with hour := { s.life.hour with margins := s.life.hour.margins ++ [(p, m)] } } }
  | none => s

/-- Retraining ends: the peers' IDs are compared (R309), lanes are dropped, and the port comes up at a width or goes DOWN. -/
def State.trained (s : State) (p : Nat) (r : TrainResult) : State :=
  let x := s.port p
  if x.state ≠ 1 ∨ !s.power.fabLock.getLsbD (p / 4) then s
  else
    let y := x.tested r
    let n := popcount 4 y.1.lanes.toNat
    let s := ((s.setPort p y.1).laneEvents p y.2).noteMargin p
    let s := { s with fab := { s.fab with conflict := s.fab.conflict || s.clash p, clashing := s.fab.clashing ++ s.clashes p } }
    if n < y.1.minLanes + 2 then s.portLost p 0 else s.comesUp p n

/-- `ENABLE` of a port (R342); one whose PLL has not locked stays DOWN (R466). -/
def State.enablePort (s : State) (p : Nat) (on : Bool) : State :=
  let x := s.port p
  if on then
    (if x.enable then s
     else if !s.power.fabLock.getLsbD (p / 4) then s.setPort p { x with enable := true, state := 0 }
     else (s.setPort p { x with enable := true, state := 1 }).sendTraining p)
  else (s.modPort p fun x => { x with enable := false }).portLost p 4

/-- A write of `FAB_ID.FID` clears the conflict, and the ports that could not send go on (R309). -/
def State.writeFid (s : State) (f : Nat) : State :=
  let barred := (List.range 8).filter fun p => !s.sendsPackets p
  let s := barred.foldl State.resumePort { s with fab := { s.fab with fid := f, conflict := false, clashing := [] } }
  (List.range 8).foldl State.pushAll s.retryWaiting

/-! ### Packets that arrive (R311-R313) -/

/-- `p` is older than `c` as an n-bit serial number (R313). -/
def older (n p c : Nat) : Bool :=
  let d := (c + 2 ^ n - p % 2 ^ n) % 2 ^ n
  decide (1 ≤ d ∧ d ≤ 2 ^ (n - 1) - 1)

/-- The job that a tag names. -/
def State.jobOfTag (s : State) (t : Nat) : Option Nat :=
  (List.range 4).find? fun j => match s.job j with | some x => x.mapping.tag == t | none => false

/-- R313: the job of a packet addressed to this device, unless the packet is discarded. -/
def State.admits (s : State) (k : FabPacket) : Option (Nat × Job) :=
  if s.fab.fid = 0xFFF then none
  else match s.jobOfTag k.tag.toNat with
    | none => none
    | some jn =>
      match s.job jn with
      | none => none
      | some j =>
        if older 16 k.epoch.toNat j.mapping.epoch ∨ older 32 k.step.toNat j.step ∨
            (k.step.toNat = j.step ∧ older 16 k.attempt.toNat j.attempt) then none
        else some (jn, j)

def State.dropped (s : State) : State := { s with fab := { s.fab with drop := sat32 (s.fab.drop + 1) } }

/-- A packet for another device goes on along its route. -/
def State.forward (s : State) (k : FabPacket) : State :=
  if s.fab.fid = 0xFFF ∨ k.dest.toNat = s.fab.fid then s else s.routeOut k

/-- What happens to a packet before its kind matters: forwarded, discarded, or handled for its job. -/
def State.receive (s : State) (k : FabPacket) (f : State → Nat → Job → State) : State :=
  if s.fab.fid ≠ 0xFFF ∧ k.dest.toNat ≠ s.fab.fid then s.forward k
  else match s.admits k with
    | none => s.dropped
    | some (jn, j) => f s jn j

/-- The acknowledgement of a DATA packet. -/
def packetAck (k : FabPacket) : FabPacket :=
  { k with dest := k.src, src := k.dest, pkind := BitVec.ofNat 8 pkACK, format := 0#8, poison := 0#128, payload := [] }

/-- An end-to-end acknowledgement releases the packet it names. -/
def State.released (s : State) (k : FabPacket) : State :=
  { s with fab := { s.fab with unacked := s.fab.unacked.filter fun x => !(packetKey x.1 == packetKey k && x.1.dest == k.src && x.1.tag == k.tag) } }

def State.ackIn (s : State) (k : FabPacket) : State := s.receive k fun s _ _ => s.released k

/-- 200 µs have passed without the acknowledgement of a packet. -/
def State.ackTimeout (s : State) (k : FabPacket) : State :=
  if (s.fab.unacked.any fun e => e.1 == k) ∧ !s.fab.waiting.contains k then s.routeOut k else s

end Sys2Proof.Machine
end

