-- ==== Sys2Proof/Machine/Collectives.lean ====
section
/-! DEFINITION. Collectives: the block and its checks (R320, R321), READY, DATA and JOIN (R322-R324), reduction over the
fixed tree (R325-R329), gather, re-shard and point-to-point (R330-R332), digests (R334-R336), poison (R337), late peers and
STEP_ABORT (R338-R341), and the gradient norm (R297, R298). -/

namespace Sys2Proof.Machine

/-! ### The block (R320) -/

structure CollDesc where
  kind : Nat
  axis : Nat
  wire : Nat
  flags : Nat
  id : Nat
  peer : Nat
  digest : Nat
  ops : List Tensor
  raw : List Byte

/-- Descriptors that a kind names. -/
def collTensors : Nat → Nat
  | 1 | 2 | 3 => 2
  | 4 | 5 => 1
  | _ => 0

def CollDesc.parse (b : List Byte) : CollDesc :=
  { kind := le b 0 1, axis := le b 1 1, wire := le b 2 1, flags := le b 3 1, id := le b 4 4, peer := le b 8 2, digest := le b 16 8,
    ops := (List.range (collTensors (le b 0 1))).map fun i => Tensor.parse ((b.drop (32 + 160 * i)).take 160), raw := b.take 32 }

def CollDesc.xT (d : CollDesc) : Option Tensor := if 1 ≤ d.kind ∧ d.kind ≤ 4 then d.ops[0]? else none
def CollDesc.dT (d : CollDesc) : Option Tensor := if d.kind ≤ 3 then d.ops[1]? else if d.kind = 5 then d.ops[0]? else none
def CollDesc.fromPrior (d : CollDesc) : Bool := bit d.flags 0

def wireFmt : Nat → Fmt
  | 0 => .bf16
  | 1 => .fp32
  | _ => .fp32x

/-! ### Shards, holders and leaves by element (R314, R318) -/

/-- The part that holds an index. -/
def partOf (e n u i : Nat) : Nat :=
  ((List.range n).find? fun p => let r := partRange e n u p; decide (r.1 ≤ i ∧ i < r.1 + r.2)).getD 0

def Tensor.shards (t : Tensor) : Nat := t.parts.foldl (· * ·) 1

/-- The shard of an element. -/
def Tensor.shardAt (t : Tensor) (gix : List Nat) : Nat :=
  linear t.parts ((List.range t.parts.length).map fun k => partOf (t.extent k) (t.part k) (t.unitEls k) ((gix[k]?).getD 0))

/-- The column of an element. -/
def Tensor.columnAt (t : Tensor) (m : Mapping) (gix : List Nat) : Nat :=
  if t.shards ≤ 1 then 0 else t.shardAt gix * m.width / t.shards

def Tensor.holdsAt (t : Tensor) (m : Mapping) (d : MapDev) (gix : List Nat) : Bool :=
  t.shards ≤ 1 || (t.shardsOf m d).contains (t.shardAt gix)

def Mapping.active (m : Mapping) (l : Nat) : Bool := decide (l / m.width < m.replicas)

def MapDev.owns (d : MapDev) (l : Nat) : Bool := decide (d.leafFirst ≤ l ∧ l < d.leafFirst + d.leafCount)

def Mapping.ownerOf (m : Mapping) (l : Nat) : Option MapDev := m.devs.find? fun d => d.owns l

/-- Rows in which a device owns active leaves; row 0 for a device that owns none (R326). -/
def Mapping.rowsOf (m : Mapping) (d : MapDev) : List Nat :=
  (((List.range d.leafCount).map fun i => d.leafFirst + i).filter m.active).map (fun l => l / m.width) |>.dedup
def Mapping.rowOf (m : Mapping) (d : MapDev) : Nat := ((m.rowsOf d).head?).getD 0

/-- The tensor without its outermost dimension. -/
def Tensor.inner (t : Tensor) : Tensor :=
  { t with ndim := t.ndim - 1, extents := t.extents.drop 1, strides := t.strides.drop 1, parts := t.parts.drop 1, units := t.units.drop 1 }

/-- X of a REDUCE as a device holds it: one slice for each leaf it owns (R325). -/
def Tensor.leafHeld (t : Tensor) (m : Mapping) (d : MapDev) : Option Held :=
  (t.inner.heldBy m d).map fun h => { t := t, fmt := h.fmt, axes := [(d.leafFirst, d.leafCount)] :: h.axes }

/-- The local index of a global one. -/
def Held.localIx (h : Held) (gix : List Nat) : Option (List Nat) :=
  let l := (h.axes.zip gix).map fun q => q.1.local? q.2
  if l.all Option.isSome then some (l.map fun o => o.getD 0) else none

/-! ### Wire values and the tree (R326-R328) -/

def toWire (w : Fmt) (p : Pair) : Nat :=
  match w with
  | .bf16 => Fmt.convert .bf16 true none (readout p)
  | .fp32 => (readout p).toNat
  | _ => p.code

/-- A reduction as one device sees it. Devices are named by fabric ID; an element by its global linear index in D. -/
structure Red where
  self : Nat
  wire : Fmt
  levels : Nat
  count : Nat
  /-- the owner of a non-empty position of an element's tree -/
  owner : Nat → Nat → Option Nat
  /-- the wire value of a position that this device owns, and whether it is poisoned -/
  value : Nat → Nat → Nat × Bool
  /-- the holders of an element that belong to its tree, in ascending device index -/
  holders : Nat → List Nat
  dFmt : Fmt

def Red.wb (r : Red) : Nat := r.wire.bits / 8
def Red.dw (r : Red) : Nat := r.dFmt.bits / 8

/-- Who owns the non-empty positions under a node: nobody, one device, several. -/
inductive Own where
  | empty | one (d : Nat) | many
deriving DecidableEq

def Own.join : Own → Own → Own
  | .empty, x => x
  | x, .empty => x
  | .one a, .one b => if a = b then .one a else .many
  | _, _ => .many

def Red.own (r : Red) (e : Nat) : Nat → Nat → Own
  | 0, i => match r.owner e i with | none => .empty | some d => .one d
  | k + 1, i => (r.own e k (2 * i)).join (r.own e k (2 * i + 1))

/-- The wire value of a node from those of its children. -/
def Red.node (r : Red) (a b : Option (Nat × Bool)) : Option (Nat × Bool) :=
  match a, b with
  | none, x => x
  | x, none => x
  | some (x, p), some (y, q) => some (toWire r.wire (combine (startPair r.wire x) (startPair r.wire y)), p || q)

/-- The value of a node all of whose positions this device owns. -/
def Red.localVal (r : Red) (e : Nat) : Nat → Nat → Option (Nat × Bool)
  | 0, i => if r.owner e i = some r.self then some (r.value e i) else none
  | k + 1, i => r.node (r.localVal e k (2 * i)) (r.localVal e k (2 * i + 1))

/-- Heap number of a node (R329). -/
def Red.heap (r : Red) (k i : Nat) : Nat := 2 ^ (r.levels - k) + i

/-- Maximal local nodes below a node: level, index, owner. -/
def Red.maxFrom (r : Red) (e : Nat) : Nat → Nat → List (Nat × Nat × Nat)
  | 0, i => match r.own e 0 i with | .one d => [(0, i, d)] | _ => []
  | k + 1, i =>
    match r.own e (k + 1) i with
    | .empty => []
    | .one d => [(k + 1, i, d)]
    | .many => r.maxFrom e k (2 * i) ++ r.maxFrom e k (2 * i + 1)

/-- Maximal local nodes of the tree. The root is computed at the home from its two children, whoever owns them, since it
alone does not pass through the wire format (R327; DEDUCED, log 30). -/
def Red.maxNodes (r : Red) (e : Nat) : List (Nat × Nat × Nat) :=
  match r.levels with
  | 0 => r.maxFrom e 0 0
  | k + 1 => r.maxFrom e k 0 ++ r.maxFrom e k 1

def Red.chunk (r : Red) (e : Nat) : Nat := e * r.dw / 2 ^ 20

/-- The home of an element's chunk (R328): holders are counted by element, so that a chunk over several shards has a home
in each (DEDUCED, log 30). -/
def Red.home (r : Red) (e : Nat) : Nat :=
  let hs := r.holders e
  (hs[r.chunk e % max 1 hs.length]?).getD 0xFFFF

/-- The value of a node at the home, from its own leaves and what it has received. -/
def Red.nodeVal (r : Red) (got : List (Nat × Nat × Nat × Bool)) (e : Nat) : Nat → Nat → Option (Nat × Bool)
  | 0, i =>
    match r.own e 0 i with
    | .one d => if d = r.self then r.localVal e 0 i else (got.find? fun g => g.1 == r.heap 0 i && g.2.1 == e).map fun g => g.2.2
    | _ => none
  | k + 1, i =>
    match r.own e (k + 1) i with
    | .empty => none
    | .one d =>
      if d = r.self then r.localVal e (k + 1) i else (got.find? fun g => g.1 == r.heap (k + 1) i && g.2.1 == e).map fun g => g.2.2
    | .many => r.node (r.nodeVal got e k (2 * i)) (r.nodeVal got e k (2 * i + 1))

/-- The root: pair and poison; none for an empty tree. -/
def Red.root (r : Red) (got : List (Nat × Nat × Nat × Bool)) (e : Nat) : Option (Pair × Bool) :=
  let up (v : Nat × Bool) : Pair × Bool := (startPair r.wire v.1, v.2)
  match r.levels with
  | 0 => (r.nodeVal got e 0 0).map up
  | k + 1 =>
    match r.nodeVal got e k 0, r.nodeVal got e k 1 with
    | none, x => x.map up
    | x, none => x.map up
    | some a, some b => some (combine (up a).1 (up b).1, a.2 || b.2)

/-- The code that D holds. -/
def Red.dCode (r : Red) (v : Option (Pair × Bool)) : Nat × Bool :=
  match v with
  | none => (0, false)
  | some (p, bad) =>
    if bad then (0, true)
    else (if r.dFmt = .fp32x then p.code else r.dFmt.convert true none (readout p), false)

/-- Everything that the home needs of an element has arrived. -/
def Red.ready (r : Red) (got : List (Nat × Nat × Nat × Bool)) (e : Nat) : Bool :=
  (r.maxNodes e).all fun n => n.2.2 == r.self || got.any fun g => g.1 == r.heap n.1 n.2.1 && g.2.1 == e

def rootUnit (chunk : Nat) : Nat := 0x8000_0000 + chunk

/-! #### The reduction of a REDUCE -/

/-- Leaf at a position of an element's tree (R326). -/
def leafAt (axis : Nat) (m : Mapping) (row t i : Nat) : Nat :=
  match axis with
  | 0 => i
  | 1 => i * m.width + t
  | _ => row * m.width + i

/-- A leaf is a position of the tree of the elements of column `t` (R326). -/
def leafEnters (axis : Nat) (m : Mapping) (row t l : Nat) : Bool :=
  match axis with
  | 0 => true
  | 1 => l % m.width == t
  | _ => l / m.width == row

def treeLevels (axis : Nat) (m : Mapping) : Nat :=
  match axis with
  | 0 => 10
  | 1 => Nat.log2 (1024 / m.width)
  | _ => Nat.log2 m.width

/-- The wire value of one leaf's slice element on this device. Poison covers the element's 32-byte unit of the wire
(R337); a poisoned value enters as zero. -/
def sliceValue (X : Held) (w : Fmt) (D : Tensor) (rd : Nat → Byte) (bad : Nat → Bool) (l e : Nat) : Nat × Bool :=
  let ix (e : Nat) : Option (List Nat) := X.localIx (l :: unlinear D.extents e)
  let per := 32 / (w.bits / 8)
  let hit := (List.range per).any fun i =>
    let f := e / per * per + i
    decide (f < D.size) && (match ix f with
      | some j => (List.range (X.fmt.bits / 8)).any fun b => bad (X.bitAddr j / 8 + b)
      | none => false)
  match ix e with
  | some j => if hit then (0, true) else (toWire w (startPair X.fmt (X.code rd j)), false)
  | none => (0, hit)

def redOf (d : CollDesc) (m : Mapping) (xt dt : Tensor) (X : Held) (dFmt : Fmt) (rd : Nat → Byte) (bad : Nat → Bool) : Red :=
  let row := m.rowOf m.selfDev
  let g (e : Nat) : List Nat := unlinear dt.extents e
  let leaf (e i : Nat) : Nat := leafAt d.axis m row (dt.columnAt m (g e)) i
  { self := m.selfDev.fid, wire := wireFmt d.wire, levels := treeLevels d.axis m, count := dt.size,
    owner := fun e i =>
      if m.active (leaf e i) then (m.ownerOf (leaf e i)).bind fun o => if xt.inner.holdsAt m o (g e) then some o.fid else none
      else none
    value := fun e i => sliceValue X (wireFmt d.wire) dt rd bad (leaf e i) e
    holders := fun e => (m.devs.filter fun o => dt.holdsAt m o (g e) && (d.axis != 2 || m.rowOf o == row)).map MapDev.fid
    dFmt := dFmt }

/-! ### The gradient norm's leaves (R297) -/

/-- FP32 value of an element in a sum of squares; FP32X enters as its readout. -/
def normValue (f : Fmt) (code scale : Nat) : U32 :=
  if f = .fp32x then readout (Pair.ofCode code) else (if f.isMx then mxValue f code scale else f.value code).to32

/-- The elements of a tensor on this device that belong to column `t`: values in ascending global linear index; only
present elements of a sparse tensor. -/
def normElems (h : Held) (m : Mapping) (rd : Nat → Byte) (t : Nat) : List U32 :=
  let all := (List.range h.t.size).filterMap fun e =>
    let gix := unlinear h.t.extents e
    if h.t.columnAt m gix = t then (h.localIx gix).map fun ix => (gix, ix) else none
  if h.t.sparse then
    let tiles := (List.range h.tileCount).map fun tL =>
      let p := tilePass h 0 rd (fun _ => false) tL
      (tL, p.2.1, TileHdr.parse p.2.2)
    all.filterMap fun q =>
      let n := h.t.ndim
      let tL := h.tileOfElem (q.2.take (n - 2)) ((q.2[n - 2]?).getD 0) ((q.2[n - 1]?).getD 0)
      match tiles.find? fun z => z.1 == tL with
      | none => none
      | some (_, a, hd) =>
        let g := h.tileGeo tL
        ((bodyElems h.fmt.bits hd rd a).find? fun el =>
          (match h.elemLocal g el.u with | some z => g.outer ++ [z.1, z.2] == q.2 | none => false)).map fun el => normValue h.fmt el.code 0
  else all.map fun q => normValue h.fmt (h.code rd q.2) 0

/-- A leaf's pair: chunks of 65 536 elements, each from (+0, +0), combined in ascending order. -/
def normLeaf (hs : List Held) (m : Mapping) (rd : Nat → Byte) (t : Nat) : Pair :=
  let vs := hs.flatMap fun h => normElems h m rd t
  let chunks := (List.range (ceilDiv vs.length 65536)).map fun c =>
    (((vs.drop (65536 * c)).take 65536).foldl (fun p x => addTerm p (fmul x x)) Pair.zero)
  match chunks with
  | [] => Pair.zero
  | c :: cs => cs.foldl combine c

/-- A poisoned unit that a tensor on this device meets. -/
def Held.poisonMet (h : Held) (s : State) : Option Nat :=
  if h.t.sparse then s.firstPoison h.t.base (if h.t.attr.layout = 0 then h.tileCount * h.t.attr.slotBytes else h.t.attr.regionBytes)
  else ((List.range h.size).findSome? fun k =>
    let b := h.elemBytes (unlinear h.shape k)
    s.firstPoison b.1 b.2)

def normRed (hs : List Held) (m : Mapping) (s : State) : Red :=
  let bad := hs.any fun h => (h.poisonMet s).isSome
  { self := m.selfDev.fid, wire := .fp32x, levels := 10, count := 1,
    owner := fun _ l => if m.active l then (m.ownerOf l).map MapDev.fid else none
    value := fun _ l =>
      let mine := decide (l < m.width)
      ((if mine then normLeaf hs m s.byte l else Pair.zero).code, mine && bad)
    holders := fun _ => m.devs.map MapDev.fid
    dFmt := .fp32x }

/-! ### What a collective sends and receives (R323, R330-R332) -/

/-- Bytes of a unit for a peer: destination, unit, length of the unit, format, and the elements' positions, bytes and
poison. -/
structure Batch where
  dest : Nat
  unit : Nat
  total : Nat
  fmt : Nat
  elems : List (Nat × List Byte × Bool)

/-- Source of an element of D on device `o` in a gather: the device itself, or the lowest holder of X (R331). -/
def gatherSource (xt : Tensor) (mx : Mapping) (o : MapDev) (gix : List Nat) : Option Nat :=
  if (mx.devs.any fun x => x.fid == o.fid && xt.holdsAt mx x gix) then some o.fid
  else (mx.devs.find? fun x => xt.holdsAt mx x gix).map MapDev.fid

/-- The number of a unit: the intersection of an X part and a D part (DESIGN CHOICE, log 31). -/
def gatherUnit (xt dt : Tensor) (gix : List Nat) : Nat := xt.shardAt gix * dt.shards + dt.shardAt gix

/-- Elements of a unit in ascending global linear index. -/
def unitElems (xt dt : Tensor) (u : Nat) : List Nat :=
  (List.range dt.size).filter fun e => gatherUnit xt dt (unlinear dt.extents e) == u

/-- A collective resolved against the job's mappings. -/
inductive CView where
  | red (r : Red) (X : Option Held) (D : Option Held)
  | gather (me : Nat) (X : Option Held) (D : Option Held) (xt dt : Tensor) (mx md : Mapping)
  | send (X : Held) (peer : Nat)
  | recv (D : Held) (peer : Nat)
  | join

/-- The mapping under which this device holds X; a device that the prior mapping does not name holds nothing. -/
def heldIn (t : Tensor) (m : Mapping) (fid : Nat) : Option Held :=
  match m.devs.find? fun d => d.fid == fid with
  | some d => t.heldBy m d
  | none => none

def collView (s : State) (j : Job) (d : CollDesc) : Option CView :=
  let m := j.mapping
  let me := m.selfDev.fid
  match d.kind, d.xT, d.dT with
  | 1, some xt, some dt =>
    (match xt.leafHeld m m.selfDev, dt.held m with
     | some X, some D => some (.red (redOf d m xt dt X D.fmt s.byte s.poisonedAt) (some X) (some D))
     | _, _ => none)
  | 2, some xt, some dt => some (.gather me (xt.held m) (dt.held m) xt dt m m)
  | 3, some xt, some dt =>
    let mx := if d.fromPrior then j.prior.getD m else m
    some (.gather me (heldIn xt mx me) (dt.held m) xt dt mx m)
  | 4, some xt, _ => (xt.held m).map fun X => .send X ((m.devs[d.peer]?).map MapDev.fid |>.getD 0xFFF)
  | 5, _, some dt => (dt.held m).map fun D => .recv D ((m.devs[d.peer]?).map MapDev.fid |>.getD 0xFFF)
  | 6, _, _ => some .join
  | _, _, _ => none

/-- The view of an entry that is a collective or a gradient norm. -/
def collViewOf (s : State) (j : Job) (w : Work) : Option CView :=
  if w.opcode = opcGRAD_NORM then
    let ts := (List.range (le w.params 0 1)).map fun i => Tensor.parse ((w.params.drop (16 + 160 * i)).take 160)
    let hs := ts.filterMap fun t => t.held j.mapping
    some (.red (normRed hs j.mapping s) none none)
  else collView s j (CollDesc.parse w.params)

/-- The other participants (R324). -/
def participants (j : Job) (w : Work) : List Nat :=
  let me := j.mapping.selfDev.fid
  let cur := j.mapping.devs.map MapDev.fid
  let d := CollDesc.parse w.params
  let all := if w.opcode = opcGRAD_NORM then cur
    else match d.kind with
      | 3 => if d.fromPrior then cur ++ (match j.prior with | some p => p.devs.map MapDev.fid | none => []) else cur
      | 4 | 5 => [(j.mapping.devs[d.peer]?).map MapDev.fid |>.getD 0xFFF]
      | _ => cur
  (all.filter (· != me)).dedup

/-- What a device sends as soon as it holds the peer's READY. -/
def CView.batches (v : CView) (s : State) : List Batch :=
  match v with
  | .red r _ _ =>
    let all := (List.range r.count).flatMap fun e =>
      let h := r.home e
      if h = r.self then [] else ((r.maxNodes e).filter fun n => n.2.2 == r.self).map fun n =>
        let x := (r.localVal e n.1 n.2.1).getD (0, false)
        (h, r.heap n.1 n.2.1, e * r.wb, leBytes r.wb x.1, x.2)
    let keys := (all.map fun a => (a.1, a.2.1)).dedup
    keys.map fun k => { dest := k.1, unit := k.2, total := r.count * r.wb, fmt := r.wire.code,
                        elems := (all.filter fun a => a.1 == k.1 && a.2.1 == k.2).map fun a => a.2.2 }
  | .gather me (some X) _ xt dt mx md =>
    let w := X.fmt.bits / 8
    (md.devs.filter fun o => o.fid != me).flatMap fun o =>
      let es := (List.range dt.size).filter fun e =>
        let g := unlinear dt.extents e
        dt.holdsAt md o g && (X.localIx g).isSome && gatherSource xt mx o g == some me
      ((es.map fun e => gatherUnit xt dt (unlinear dt.extents e)).dedup).map fun u =>
        let ue := unitElems xt dt u
        { dest := o.fid, unit := u, total := ue.length * w, fmt := X.fmt.code,
          elems := (es.filter fun e => gatherUnit xt dt (unlinear dt.extents e) == u).map fun e =>
            let ix := (X.localIx (unlinear dt.extents e)).getD []
            let a := X.bitAddr ix / 8
            let bad := (s.firstPoison a w).isSome
            (ue.findIdx (· == e) * w, if bad then List.replicate w 0#8 else s.bytes a w, bad) }
  | .send X peer =>
    let w := X.fmt.bits / 8
    if X.size = 0 then []
    else [{ dest := peer, unit := 0, total := X.size * w, fmt := X.fmt.code,
            elems := (List.range X.size).map fun k =>
              let a := X.bitAddr (unlinear X.shape k) / 8
              let bad := (s.firstPoison a w).isSome
              (k * w, if bad then List.replicate w 0#8 else s.bytes a w, bad) }]
  | _ => []

/-- The devices from which this one receives data. -/
def CView.recvFrom (v : CView) : List Nat :=
  match v with
  | .red r _ _ =>
    ((List.range r.count).flatMap fun e =>
      if r.home e = r.self then (r.maxNodes e).map fun n => n.2.2
      else if (r.holders e).contains r.self then [r.home e] else []).dedup.filter (· != r.self)
  | .gather me _ (some D) xt dt mx md =>
    ((List.range dt.size).filterMap fun e =>
      let g := unlinear dt.extents e
      if (D.localIx g).isSome then gatherSource xt mx (md.selfDev) g else none).dedup.filter (· != me)
  | .recv _ peer => [peer]
  | _ => []

/-- Chunks that this device is the home of. -/
def Red.myChunks (r : Red) : List Nat := (((List.range r.count).filter fun e => r.home e == r.self).map r.chunk).dedup
def Red.mine (r : Red) (c : Nat) : List Nat := (List.range r.count).filter fun e => r.chunk e == c && r.home e == r.self

/-- The other holders that receive the root of a chunk from this device. -/
def Red.rootDests (r : Red) (c : Nat) : List Nat := (((r.mine c).flatMap r.holders).dedup).filter (· != r.self)

/-- Every byte that the device is to receive has arrived. -/
def CView.received (v : CView) (c : CollRun) : Bool :=
  match v with
  | .red r _ _ =>
    (r.myChunks.all c.rooted.contains) &&
    ((List.range r.count).all fun e => !(r.holders e).contains r.self || r.home e == r.self ||
      c.got.any fun g => g.1 == rootUnit (r.chunk e) && g.2.1 == e)
  | .gather me _ (some D) xt dt mx md =>
    (List.range dt.size).all fun e =>
      let g := unlinear dt.extents e
      (D.localIx g).isNone || gatherSource xt mx md.selfDev g == some me || c.got.any fun x => x.1 == gatherUnit xt dt g && x.2.1 == e
  | .recv D _ => (List.range D.size).all fun k => c.got.any fun x => x.1 == 0 && x.2.1 == k
  | _ => true

/-- The device still lacks data of a peer (R436). -/
def CView.lacks (v : CView) (c : CollRun) (peer : Nat) : Bool :=
  match v with
  | .red r _ _ =>
    (List.range r.count).any fun e =>
      (r.home e == r.self && (r.maxNodes e).any fun n => n.2.2 == peer && !(c.got.any fun g => g.1 == r.heap n.1 n.2.1 && g.2.1 == e)) ||
      (r.home e == peer && r.home e != r.self && (r.holders e).contains r.self &&
        !(c.got.any fun g => g.1 == rootUnit (r.chunk e) && g.2.1 == e))
  | .gather me _ (some D) xt dt mx md =>
    (List.range dt.size).any fun e =>
      let g := unlinear dt.extents e
      (D.localIx g).isSome && peer != me && gatherSource xt mx md.selfDev g == some peer &&
        !(c.got.any fun x => x.1 == gatherUnit xt dt g && x.2.1 == e)
  | .recv D p => p == peer && (List.range D.size).any fun k => !(c.got.any fun x => x.1 == 0 && x.2.1 == k)
  | _ => false

/-! ### Packets of a collective -/

/-- Runs of consecutive numbers, at most 128 in each. -/
def runsOf (gs : List Nat) : List (Nat × Nat) :=
  gs.foldr (fun g acc => match acc with
    | (a, n) :: r => if g + 1 = a ∧ n < 128 then (g, n + 1) :: r else (g, 1) :: (a, n) :: r
    | [] => [(g, 1)]) []

/-- A packet of a collective with an empty payload. -/
def collPacket (j : Job) (w : Work) (c : CollRun) (dest kind : Nat) : FabPacket :=
  { dest := BitVec.ofNat 12 dest, src := BitVec.ofNat 12 j.mapping.selfDev.fid, tag := BitVec.ofNat 32 j.mapping.tag,
    pkind := BitVec.ofNat 8 kind, format := 0#8, collId := BitVec.ofNat 32 c.id, step := BitVec.ofNat 32 w.step,
    attempt := BitVec.ofNat 16 w.attempt, epoch := BitVec.ofNat 16 j.mapping.epoch, unit := 0#32, offset := 0#32, poison := 0#128,
    payload := [] }

/-- The DATA packets of a batch: payloads start at multiples of 32 bytes of the unit (R310). -/
def Batch.packets (b : Batch) (k : FabPacket) : List FabPacket :=
  let data : SMap Byte := b.elems.foldl (fun m e => storeRun 0#8 m e.1 e.2.1) []
  let gs := (b.elems.flatMap fun e => (List.range ((e.1 + e.2.1.length - 1) / 32 - e.1 / 32 + 1)).map fun i => e.1 / 32 + i).dedup
  let bad := ((b.elems.filter fun e => e.2.2).map fun e => e.1 / 32).dedup
  (runsOf gs).map fun r =>
    { k with
      pkind := BitVec.ofNat 8 pkDATA
      format := BitVec.ofNat 8 b.fmt
      unit := BitVec.ofNat 32 b.unit
      offset := BitVec.ofNat 32 r.1
      poison := BitVec.ofNat 128 ((List.range r.2).foldl (fun a i => if bad.contains (r.1 + i) then a + 2 ^ i else a) 0)
      payload := loadRun 0#8 data (32 * r.1) (min (32 * r.2) (b.total - 32 * r.1)) }

/-- What the READY and JOIN messages of a collective carry (R322). -/
def collCrc (v : Option CView) (w : Work) : U32 :=
  let d := CollDesc.parse w.params
  let t (x : Tensor) : List Byte := (x.raw.drop 24).take 24 ++ (x.raw.drop 96).take 18 ++ leBytes 1 x.format
  if w.opcode = opcGRAD_NORM then
    let ts := (List.range (le w.params 0 1)).map fun i => Tensor.parse ((w.params.drop (16 + 160 * i)).take 160)
    crc32c (w.params.take 8 ++ leBytes 8 0 ++ ts.flatMap t)
  else
    let head (kind : Nat) : List Byte := leBytes 1 kind ++ (d.raw.drop 1).take 7 ++ leBytes 2 0 ++ (d.raw.drop 10).take 6 ++ leBytes 8 0 ++ (d.raw.drop 24)
    match v with
    | some (.send X _) => crc32c (head 4 ++ leBytes 1 X.t.format ++ leBytes 8 X.size)
    | some (.recv D _) => crc32c (head 4 ++ leBytes 1 D.t.format ++ leBytes 8 D.size)
    | _ => crc32c (head d.kind ++ d.ops.flatMap t)

/-! ### The end of a collective -/

def collReply (dBytes records : Nat) (leaf da : Nat) : List Byte :=
  leBytes 8 dBytes ++ leBytes 4 records ++ leBytes 4 leaf ++ leBytes 8 da ++ leBytes 8 0

def State.endColl (s : State) (w : Work) (status : Nat) (reply : List Byte) : State := s.finish w.seq status reply

/-- A collective ends without having completed. -/
def State.failColl (s : State) (w : Work) (status : Nat) : State :=
  let d := match w.coll with | some c => c.dBytes | none => 0
  s.endColl w status (if w.opcode = opcGRAD_NORM then List.replicate 16 0#8 else collReply d 0 0xFFFF_FFFF 0)

/-- STEP_ABORT messages sent or received count (R342). -/
def State.countAborts (s : State) (jn n : Nat) : State :=
  s.modJob jn fun j => { j with collAborts := sat32 (j.collAborts + n) }

/-- Every collective of the job's current attempt ends (R339). -/
def State.endAttempt (s : State) (jn : Nat) : State :=
  match s.job jn with
  | none => s
  | some j =>
    let s := s.modJob jn fun j => { j with aborted := true }
    (s.works.filter fun w => w.job == jn && w.isColl && w.step == j.step && w.attempt == j.attempt).foldl
      (fun s w => s.failColl w St.intStepAbort) s

/-- A STEP_ABORT of the current attempt that arrives. -/
def State.abortAttempt (s : State) (jn : Nat) : State := (s.countAborts jn 1).endAttempt jn

/-- The device sends STEP_ABORT to every other device of the mapping and applies it to itself. -/
def State.sendAbort (s : State) (w : Work) (c : CollRun) : State :=
  match s.job w.job with
  | none => s
  | some j =>
    let me := j.mapping.selfDev.fid
    let ks := ((j.mapping.devs.map MapDev.fid).filter (· != me)).map fun f => { collPacket j w c f pkABORT with collId := 0#32 }
    ((s.sendPackets ks).countAborts w.job ks.length).endAttempt w.job

/-- A CRC differs, or the peer timeout has passed: the collective ends with the status and the attempt is aborted. -/
def State.breakColl (s : State) (w : Work) (c : CollRun) (status : Nat) : State := (s.failColl w status).sendAbort w c

/-! ### Progress -/

/-- The collective waits for a peer as long as a JOIN of one, or data from one, is missing (R299, R324). -/
def State.noteWait (s : State) (seq : Nat) : State :=
  match s.work seq with
  | none => s
  | some w =>
    match w.coll, s.job w.job with
    | some c, some j =>
      let late := (participants j w).any (fun f => !c.joinFrom.contains f) ||
        (!(participants j w).isEmpty && (match collViewOf s j w with | some v => !v.received c | none => false))
      let s := s.modColl seq fun c => { c with peerWait := late }
      (match w.ctx with | some k => s.settle k | none => s)
    | _, _ => s

/-- Every participant has shown the CRC of the collective, and none has differed (R322). -/
def CollRun.matched (c : CollRun) (w : Work) (j : Job) : Bool :=
  (participants j w).all fun f => c.readyFrom.contains f || c.joinFrom.contains f

/-- A fabric skip issues writes into D: data that is small enough in all goes to the memory skip by message (R33, R260). -/
def State.collIssue (s : State) (seq n : Nat) (ps : List (Nat × List Byte × Bool)) : State :=
  let rs := (coalesce (ps.map fun p =>
    { owner := .coll seq, handle := seq, da := p.1, bytes := p.2.1, add := 0, poison := p.2.2, hay := false })).flatMap splitGranules
  let all := rs.foldl (fun a r => a + r.bytes.length) 0
  let s := s.modColl seq fun c => { c with writesLeft := c.writesLeft + rs.length, poisoned := c.poisoned || ps.any fun p => p.2.2 }
  let s := if stpFits all then rs.foldl (fun s r => s.carryMarked (.skip n) (s.agentOf r.da) 5 r.bytes r.marks) s else s
  s.modSkip n fun k => { k with arrived := k.arrived ++ rs }

/-- Writes into D wait in the fabric skip until the CRC of every participant has agreed, for a collective whose CRCs differ writes
nothing (R322; DEDUCED, log 150). -/
def State.collWrite (s : State) (seq n : Nat) (ps : List (Nat × List Byte × Bool)) : State :=
  if ps.isEmpty then s else s.modColl seq fun c => { c with held := c.held ++ [(n, ps)] }

/-- The writes that wait are issued once every CRC has agreed. -/
def State.flushColl (s : State) (seq : Nat) : State :=
  match s.work seq with
  | none => s
  | some w =>
    match w.coll, s.job w.job with
    | some c, some j =>
      if c.matched w j then c.held.foldl (fun s h => s.collIssue seq h.1 h.2) (s.modColl seq fun c => { c with held := [] }) else s
    | _, _ => s

/-- The reads of X that a fabric skip makes for what it sends: one request for each 256 bytes (DESIGN CHOICE, log 69: they return
at once). -/
def State.collReads (s : State) (n : Nat) (b : Batch) : State :=
  let len := b.elems.foldl (fun a e => a + e.2.1.length) 0
  s.modSkip n fun k => { k with readsCount := sat32 (k.readsCount + ceilDiv len 256) }

/-- The place in D of an element by its global index. -/
def Held.place (h : Held) (t : Tensor) (e : Nat) : Option Nat := (h.localIx (unlinear t.extents e)).map fun ix => h.bitAddr ix / 8

def sentKey (fid what : Nat) : Nat := fid * 2 ^ 34 + what

/-- Sends what the READY of peers now allows. -/
def State.sendStatic (s : State) (w : Work) (j : Job) (v : CView) : State :=
  (v.batches s).foldl (fun s b =>
    match s.collRun w.seq with
    | some c =>
      if c.readyFrom.contains b.dest ∧ !c.sentTo.contains (sentKey b.dest (2 ^ 33 + b.unit)) then
        ((s.modColl w.seq fun c => { c with sentTo := sentKey b.dest (2 ^ 33 + b.unit) :: c.sentTo }).collReads (s.fabSkip b.dest) b).sendPackets
          (b.packets (collPacket j w c b.dest pkDATA))
      else s
    | none => s) s

/-- Computes the roots of the chunks for which everything has arrived and writes them into the home's D; chunks take the adders of
the fabric skips in turn (R329; DESIGN CHOICE, log 69). -/
def State.computeRoots (s : State) (w : Work) (r : Red) (D : Option Held) : State :=
  r.myChunks.foldl (fun s ch =>
    match s.collRun w.seq with
    | none => s
    | some c =>
      let es := r.mine ch
      if c.rooted.contains ch ∨ !(es.all (r.ready c.got)) then s
      else
        let codes := es.map fun e => (e, r.dCode (r.root c.got e))
        let far := es.any fun e => c.got.any fun g => g.2.1 == e && g.2.2.2
        let s := s.modColl w.seq fun c =>
          { c with rooted := c.rooted ++ [ch], farPoison := c.farPoison || far, poisoned := c.poisoned || codes.any fun x => x.2.2 }
        match D with
        | none => s
        | some D => s.collWrite w.seq (44 + ch % 4) (codes.filterMap fun x => (D.place D.t x.1).map fun a => (a, leBytes r.dw x.2.1, x.2.2))) s

/-- Sends the roots of computed chunks to the other holders that are ready. -/
def State.sendRoots (s : State) (w : Work) (j : Job) (r : Red) : State :=
  (r.myChunks.flatMap fun ch => (r.rootDests ch).map fun f => (ch, f)).foldl (fun s p =>
    match s.collRun w.seq with
    | none => s
    | some c =>
      if !c.rooted.contains p.1 ∨ !c.readyFrom.contains p.2 ∨ c.sentTo.contains (sentKey p.2 (1 + p.1)) then s
      else
        let es := (r.mine p.1).filter fun e => (r.holders e).contains p.2
        let b : Batch := { dest := p.2, unit := rootUnit p.1, total := r.count * r.dw, fmt := r.dFmt.code,
                           elems := es.map fun e => let x := r.dCode (r.root c.got e); (e * r.dw, leBytes r.dw x.1, x.2) }
        (s.modColl w.seq fun c => { c with sentTo := sentKey p.2 (1 + p.1) :: c.sentTo }).sendPackets (b.packets (collPacket j w c p.2 pkDATA))) s

/-- All data of this device has been sent. -/
def CView.allSent (v : CView) (s : State) (c : CollRun) : Bool :=
  ((v.batches s).all fun b => c.sentTo.contains (sentKey b.dest (2 ^ 33 + b.unit))) &&
  (match v with
   | .red r _ _ => r.myChunks.all fun ch => c.rooted.contains ch && (r.rootDests ch).all fun f => c.sentTo.contains (sentKey f (1 + ch))
   | _ => true)

/-- Sends, computes and joins as far as what has arrived allows. -/
def State.pumpColl (s : State) (seq : Nat) : State :=
  match s.work seq with
  | none => s
  | some w =>
    match s.job w.job with
    | none => s
    | some j =>
      match collViewOf s j w with
      | none => s
      | some v =>
        let s := s.sendStatic w j v
        let s := match v with
          | .red r _ D => (s.computeRoots w r D).sendRoots w j r
          | _ => s
        match s.collRun seq with
        | none => s
        | some c =>
          if c.joinSent ∨ !v.allSent s c then s
          else
            let s := s.modColl seq fun c => { c with joinSent := true }
            s.sendPackets ((participants j w).map fun f => { collPacket j w c f pkJOIN with payload := leBytes 4 c.crc.toNat })

/-! ### Packets that arrive -/

/-- The started collective that a packet belongs to. -/
def State.collFor (s : State) (jn : Nat) (j : Job) (k : FabPacket) : Option (Work × CollRun) :=
  s.works.findSome? fun w =>
    match w.coll with
    | some c =>
      if w.job = jn ∧ c.started ∧ c.id = k.collId.toNat ∧ w.step = k.step.toNat ∧ w.attempt = k.attempt.toNat ∧
          j.mapping.epoch % 65536 = k.epoch.toNat then some (w, c) else none
    | none => none

/-- A packet restarts the peer timeout, and its gap from the packet before it is recorded (R342). -/
def State.heard (s : State) (w : Work) (c : CollRun) : State :=
  (s.modColl w.seq fun c => { c with lastPacket := some s.sclk }).modJob w.job fun j =>
    { j with collWaitMax := max j.collWaitMax (match c.lastPacket with | some t => sat32 (s.sclk - t) | none => 0) }

/-- READY or JOIN of a peer: the CRC must agree. -/
def State.greeting (s : State) (jn : Nat) (j : Job) (k : FabPacket) : State :=
  match s.collFor jn j k with
  | some (w, c) =>
    if le k.payload 0 4 ≠ c.crc.toNat then s.breakColl w c St.stateCollMismatch
    else
      let s := s.heard w c
      let s := if k.pkind.toNat = pkREADY then
          (s.modColl w.seq fun c => { c with readyFrom := c.readyFrom ++ [k.src.toNat] }).pumpColl w.seq
        else s.modColl w.seq fun c => { c with joinFrom := c.joinFrom ++ [k.src.toNat] }
      (s.flushColl w.seq).noteWait w.seq
  | none =>
    let gone := k.step.toNat = j.step ∧ k.attempt.toNat = j.attempt ∧ j.collIds.contains k.collId.toNat
    if gone then s else s.modJob jn fun j => { j with early := j.early ++ [k] }

def State.greetingIn (s : State) (k : FabPacket) : State := s.receive k fun s jn j => s.greeting jn j k

/-- Elements that a DATA packet brings: unit, element, code, poison, and the place in D it goes to. -/
def CView.unpack (v : CView) (k : FabPacket) : List ((Nat × Nat × Nat × Bool) × Option Nat) :=
  let u := k.unit.toNat
  let off := 32 * k.offset.toNat
  let cut (w : Nat) : List (Nat × Nat × Bool) :=
    (List.range (k.payload.length / max 1 w)).map fun i =>
      (off / max 1 w + i, leNat ((k.payload.drop (w * i)).take w), k.poison.getLsbD (w * i / 32))
  match v with
  | .red r _ D =>
    if 0x8000_0000 ≤ u then
      (cut r.dw).filterMap fun x =>
        if x.1 < r.count ∧ rootUnit (r.chunk x.1) = u ∧ (r.holders x.1).contains r.self ∧ r.home x.1 = k.src.toNat then
          some ((u, x.1, x.2.1, x.2.2), D.bind fun D => D.place D.t x.1) else none
    else
      (cut r.wb).filterMap fun x =>
        if x.1 < r.count ∧ r.home x.1 = r.self ∧ ((r.maxNodes x.1).any fun n => r.heap n.1 n.2.1 == u && n.2.2 == k.src.toNat) then
          some ((u, x.1, x.2.1, x.2.2), none) else none
  | .gather _ _ (some D) xt dt mx md =>
    let ue := unitElems xt dt u
    (cut (D.fmt.bits / 8)).filterMap fun x =>
      match ue[x.1]? with
      | none => none
      | some e =>
        if gatherSource xt mx md.selfDev (unlinear dt.extents e) = some k.src.toNat then
          (D.place dt e).map fun a => ((u, e, x.2.1, x.2.2), some a) else none
  | .recv D peer =>
    if peer ≠ k.src.toNat then []
    else (cut (D.fmt.bits / 8)).filterMap fun x =>
      if x.1 < D.size then some ((0, x.1, x.2.1, x.2.2), some (D.bitAddr (unlinear D.shape x.1) / 8)) else none
  | _ => []

/-- Bytes of an element that goes into D. -/
def CView.dWidth (v : CView) : Nat :=
  match v with
  | .red r _ _ => r.dw
  | .gather _ _ (some D) _ _ _ _ => D.fmt.bits / 8
  | .recv D _ => D.fmt.bits / 8
  | _ => 0

/-- The elements of a DATA packet join what its collective has received (R329). -/
def State.takeData (s : State) (w : Work) (c : CollRun) (v : CView) (k : FabPacket) : State :=
  let es := v.unpack k
  let s := (s.heard w c).modColl w.seq fun c =>
    { c with got := c.got ++ es.map Prod.fst, farPoison := c.farPoison || es.any fun e => e.1.2.2.2,
             poisoned := c.poisoned || es.any fun e => decide (0x8000_0000 ≤ e.1.1) && e.1.2.2.2 }
  let s := s.collWrite w.seq (s.fabSkip k.src.toNat) (es.filterMap fun e =>
    e.2.map fun a => (a, if e.1.2.2.2 then List.replicate v.dWidth 0#8 else leBytes v.dWidth e.1.2.2.1, e.1.2.2.2))
  ((s.pumpColl w.seq).flushColl w.seq).noteWait w.seq

/-- DATA is acknowledged end to end; what has been delivered once is not taken again (R312). -/
def State.delivers (s : State) (jn : Nat) (j : Job) (k : FabPacket) : State :=
  let s := (s.sendPacket (packetAck k)).countLink true jn k.payload.length
  if j.delivered.contains (deliveryKey k) then s
  else
    let s := s.modJob jn fun j => { j with delivered := deliveryKey k :: j.delivered }
    match s.collFor jn j k with
    | none => s
    | some (w, c) =>
      match collViewOf s j w with
      | none => s
      | some v => s.takeData w c v k

def State.dataIn (s : State) (k : FabPacket) : State := s.receive k fun s jn j => s.delivers jn j k

/-- STEP_ABORT: of the current attempt, it ends the attempt's collectives; of a later one, it is kept. -/
def State.abortPacket (s : State) (jn : Nat) (j : Job) (k : FabPacket) : State :=
  if k.step.toNat = j.step ∧ k.attempt.toNat = j.attempt then
    (if j.aborted then s.countAborts jn 1 else s.abortAttempt jn)
  else (s.countAborts jn 1).modJob jn fun j => { j with early := j.early ++ [k] }

def State.abortIn (s : State) (k : FabPacket) : State := s.receive k fun s jn j => s.abortPacket jn j k

/-- A STEP_ABORT of the new attempt may have arrived before it. -/
def State.earlyAbort (s : State) (jn : Nat) : State :=
  match s.job jn with
  | none => s
  | some j =>
    if j.early.any fun k => k.pkind.toNat == pkABORT && k.step.toNat == j.step && k.attempt.toNat == j.attempt
    then s.endAttempt jn else s

/-! ### Start (R322, R323) -/

/-- Elements of D that this device copies from its own X (R331). -/
def CView.localCopies (v : CView) (s : State) : List (Nat × List Byte × Bool) :=
  match v with
  | .gather me (some X) (some D) xt dt mx md =>
    let w := X.fmt.bits / 8
    (List.range dt.size).filterMap fun e =>
      let g := unlinear dt.extents e
      match X.localIx g, D.place dt e with
      | some ix, some a =>
        if gatherSource xt mx md.selfDev g = some me then
          let b := X.bitAddr ix / 8
          let bad := (s.firstPoison b w).isSome
          some (a, if bad then List.replicate w 0#8 else s.bytes b w, bad)
        else none
      | _, _ => none
  | _ => []

/-- The identity of a collective; a gradient norm takes the highest number below those of R451 that no
collective of the attempt uses (DESIGN
CHOICE, log 31). -/
def collIdOf (j : Job) (w : Work) : Nat :=
  if w.opcode = opcGRAD_NORM then
    let used := j.collIds
    (((List.range (used.length + 1)).map fun i => 0xFFFF_FFEF - i).find? fun i => !used.contains i).getD 0xFFFF_FFEF
  else (CollDesc.parse w.params).id

/-- The operands bound to hayloft entries are read where they lie (R283). -/
def State.patchColl (s : State) (w : Work) (j : Job) : Work :=
  if w.opcode = opcGRAD_NORM then w
  else match w.ctx.bind s.ctx, (CollDesc.parse w.params).xT.bind fun t => (if le w.params 0 1 = 1 then t.leafHeld j.mapping j.mapping.selfDev else t.held j.mapping) with
    | some k, some h =>
      (match boundEntry k h.t with
       | some e => { w with params := w.params.take 32 ++ patchTensor ((w.params.drop 32).take 160) h e ++ w.params.drop 192 }
       | none => w)
    | _, _ => w

/-- The hayloft entry bound to X matches it (R283). -/
def State.collBoundOk (s : State) (w : Work) (j : Job) : Bool :=
  if w.opcode = opcGRAD_NORM then true
  else match w.ctx.bind s.ctx, (CollDesc.parse w.params).xT.bind fun t => (if le w.params 0 1 = 1 then t.leafHeld j.mapping j.mapping.selfDev else t.held j.mapping) with
    | some k, some h => (match boundEntry k h.t with | some e => h.matchesEntry e | none => true)
    | _, _ => true

/-- The run of a collective that starts now. -/
def CollRun.fresh (w : Work) (v : CView) (id : Nat) : CollRun :=
  { started := true, id := id, crc := collCrc (some v) w, readyFrom := [], joinFrom := [], sentTo := [], joinSent := false,
    got := [], dBytes := 0, rooted := [], poisoned := false, farPoison := false, lastPacket := none, held := [], writesLeft := 0,
    peerWait := false }

/-- A collective of count zero, which moves no data; JOIN is one (R268, R324). -/
def CView.countZero (v : CView) : Bool :=
  match v with
  | .red r _ _ => r.count == 0
  | .gather _ _ _ _ dt _ _ => dt.size == 0
  | .send X _ => X.size == 0
  | .recv D _ => D.size == 0
  | .join => true

/-- Whom a collective sends READY at its start: those it receives data from (R323), and with a count of zero every participant
(R268, R324; DEDUCED, log 151). -/
def CView.readyTo (v : CView) (j : Job) (w : Work) : List Nat := if v.countZero then participants j w else v.recvFrom

/-- A collective starts: READY goes to those it receives from, its own copies are written, what is allowed is sent, and the
READY and JOIN packets that came early are handled (R323, R331). -/
def State.launchColl (s : State) (w : Work) (j : Job) (v : CView) (id : Nat) : State :=
  let seq := w.seq
  let c := CollRun.fresh w v id
  let s := s.startEntry seq
  let s := s.modWork seq fun x => { x with params := w.params, coll := some c }
  let mine (k : FabPacket) : Bool := k.collId.toNat == id && k.step.toNat == w.step && k.attempt.toNat == w.attempt &&
    k.epoch.toNat == j.mapping.epoch % 65536 && (k.pkind.toNat == pkREADY || k.pkind.toNat == pkJOIN)
  let early := j.early.filter mine
  let s := s.modJob w.job fun j => { j with collIds := j.collIds ++ [id], early := j.early.filter fun k => !mine k }
  let s := s.sendPackets ((v.readyTo j w).map fun f => { collPacket j w c f pkREADY with payload := leBytes 4 c.crc.toNat })
  let s := s.collWrite seq 44 (v.localCopies s)
  let s := (s.pumpColl seq).flushColl seq
  let s := early.foldl (fun s k => match s.job w.job with
    | some j => s.greeting w.job j k
    | none => s) s
  s.noteWait seq

def State.startColl (s : State) (seq : Nat) : State :=
  match s.work seq with
  | none => s
  | some w =>
    match s.job w.job with
    | none => s
    | some j =>
      if !w.isColl ∨ w.running ∨ w.cancelling ∨ !s.atHead seq then s
      else if j.aborted then s.failColl w St.intStepAbort
      else
        let id := collIdOf j w
        if j.collIds.contains id then s.failColl w St.stateCollMismatch
        else if !s.collBoundOk w j then s.failColl w St.stateHayloftTag
        else
          let w := s.patchColl w j
          match collViewOf s j w with
          | none => s.failColl w St.paramShard
          | some v =>
            s.launchColl w j v id

/-- The peer timeout has passed with no packet (R338). -/
def State.peerLate (s : State) (seq : Nat) : State :=
  match s.work seq with
  | none => s
  | some w =>
    match w.coll with
    | some c => if c.started then s.breakColl w c St.intPeerLate else s
    | none => s

/-! ### Digests (R334-R336) -/

/-- SHA-384 of each segment of 1 MiB. -/
def segmentHashes : Nat → List Byte → List Byte
  | 0, _ => []
  | n + 1, b => sha384 (b.take (2 ^ 20)) ++ segmentHashes n (b.drop (2 ^ 20))

def digestRecord (kind unit : Nat) (bytes : List Byte) (bad : Bool) : List Byte :=
  let n := bytes.length
  let h := sha384 (leBytes 4 kind ++ leBytes 4 unit ++ leBytes 8 n ++ segmentHashes (ceilDiv n (2 ^ 20)) bytes)
  leBytes 1 kind ++ leBytes 1 (b2n bad) ++ leBytes 2 0 ++ leBytes 4 unit ++ leBytes 8 n ++ h

/-- The bytes of a tensor's local elements in the given places; poisoned units enter as zero. -/
def gatherBytes (s : State) (w : Nat) (as : List Nat) : List Byte × Bool :=
  (as.flatMap fun a => if (s.firstPoison a w).isSome then List.replicate w 0#8 else s.bytes a w,
   as.any fun a => (s.firstPoison a w).isSome)

/-- The records of a tensor's shards that are held, one for each, over the elements that pass. -/
def shardRecords (s : State) (kind : Nat) (h : Held) (keep : Nat → Bool) : List (List Byte) :=
  let es := (List.range h.t.size).filterMap fun e => (h.place h.t e).map fun a => (e, h.t.shardAt (unlinear h.t.extents e), a)
  let shards := (List.range (max 1 h.t.shards)).filter fun q => es.any fun x => x.2.1 == q && keep x.1
  shards.map fun q =>
    let b := gatherBytes s (h.fmt.bits / 8) ((es.filter fun x => x.2.1 == q).map fun x => x.2.2)
    digestRecord kind q b.1 b.2

/-- The D shards that a device holds have a record each, also those without elements. -/
def recvRecords (s : State) (m : Mapping) (D : Held) : List (List Byte) :=
  let es := (List.range D.t.size).filterMap fun e => (D.place D.t e).map fun a => (D.t.shardAt (unlinear D.t.extents e), a)
  (D.t.shardsOf m m.selfDev).map fun q =>
    let b := gatherBytes s (D.fmt.bits / 8) ((es.filter fun x => x.1 == q).map Prod.snd)
    digestRecord 1 q b.1 b.2

/-- The records that a collective writes on this device. -/
def CView.records (v : CView) (s : State) (j : Job) (d : CollDesc) : List (List Byte) :=
  let m := j.mapping
  match v with
  | .red r (some X) (some D) =>
    let row := m.rowOf m.selfDev
    let send := (List.range m.selfDev.leafCount).map fun i =>
      let l := m.selfDev.leafFirst + i
      let es := (List.range r.count).filter fun e =>
        let t := D.t.columnAt m (unlinear D.t.extents e)
        m.active l && (X.localIx (l :: unlinear D.t.extents e)).isSome && leafEnters d.axis m row t l
      let vs := es.map fun e => sliceValue X r.wire D.t s.byte s.poisonedAt l e
      digestRecord 0 l (vs.flatMap fun x => leBytes r.wb x.1) (vs.any Prod.snd)
    send ++ recvRecords s m D
  | .gather me X D xt dt mx md =>
    (match X with
     | some X => shardRecords s 0 X fun e =>
         let g := unlinear dt.extents e
         md.devs.any fun o => dt.holdsAt md o g && gatherSource xt mx o g == some me
     | none => []) ++
    (match D with | some D => recvRecords s m D | none => [])
  | .send X _ =>
    let b := gatherBytes s (X.fmt.bits / 8) ((List.range X.size).map fun k => X.bitAddr (unlinear X.shape k) / 8)
    [digestRecord 0 0 b.1 b.2]
  | .recv D _ =>
    let b := gatherBytes s (D.fmt.bits / 8) ((List.range D.size).map fun k => D.bitAddr (unlinear D.shape k) / 8)
    [digestRecord 1 0 b.1 b.2]
  | _ => []

/-! ### Completion -/

/-- The lowest poisoned leaf, and in it the first poisoned unit, among what this device itself contributed (R337): of a leaf, the
elements of whose tree it is a position. -/
def CView.ownPoison (v : CView) (s : State) (m : Mapping) (axis : Nat) : Option (Nat × Nat) :=
  match v with
  | .red r (some X) (some D) =>
    ((List.range m.selfDev.leafCount).map fun i => m.selfDev.leafFirst + i).findSome? fun l =>
      if !m.active l then none
      else (List.range r.count).findSome? fun e =>
        let g := unlinear D.t.extents e
        if !leafEnters axis m (m.rowOf m.selfDev) (D.t.columnAt m g) l then none
        else match X.localIx (l :: g) with
        | some ix => (s.firstPoison (X.bitAddr ix / 8) (X.fmt.bits / 8)).map fun u => (l, u)
        | none => none
  | .gather _ (some X) _ _ dt _ md =>
    (List.range md.width).findSome? fun t =>
      (List.range dt.size).findSome? fun e =>
        let g := unlinear dt.extents e
        if dt.columnAt md g ≠ t then none
        else match X.localIx g with
          | some ix => (s.firstPoison (X.bitAddr ix / 8) (X.fmt.bits / 8)).map fun u => (t, u)
          | none => none
  | _ => none

/-- The pair that a gradient norm has reduced to. -/
def Red.normPair (r : Red) (got : List (Nat × Nat × Nat × Bool)) : Pair :=
  if r.home 0 = r.self then (match r.root got 0 with | some (p, _) => p | none => Pair.zero)
  else match got.find? fun g => g.1 == rootUnit 0 with
    | some g => Pair.ofCode g.2.2.1
    | none => Pair.zero

/-- All data has arrived, all joins are there, and every write is acknowledged (R324). -/
def CollRun.complete (c : CollRun) (w : Work) (j : Job) (v : CView) : Bool :=
  c.started && !w.cancelling && c.joinSent && v.received c && c.held.isEmpty && c.writesLeft == 0 && (participants j w).all c.joinFrom.contains

/-- The lowest leaf that a poisoned value from another device can stem from: a packet of the root's bytes names no leaf (R337). -/
def CView.farLow (v : CView) (c : CollRun) (axis : Nat) (m : Mapping) : Nat :=
  match v with
  | .red r (some _) (some D) =>
    (c.got.filter fun g => g.2.2.2).foldl (fun a g =>
      if 0x8000_0000 ≤ g.1 ∨ g.1 = 0 then 0
      else
        let k := r.levels - Nat.log2 g.1
        let i := (g.1 - 2 ^ Nat.log2 g.1) * 2 ^ k
        min a (leafAt axis m (m.rowOf m.selfDev) (D.t.columnAt m (unlinear D.t.extents g.2.1)) i)) 1024
  | _ => 0

/-- What a poisoned collective reports (R337): the device's own lowest poisoned leaf, unless one of another device can lie below
it; no packet names that one or its DA, and both are free then (log 32). -/
def CView.poisonReport (v : CView) (s : State) (c : CollRun) (m : Mapping) (axis : Nat) : Option (Nat × Nat) :=
  match v.ownPoison s m axis with
  | some (l, u) => if c.farPoison && decide (v.farLow c axis m < l) then none else some (l, u)
  | none => none

/-- The collective completes. -/
def State.resultColl (s : State) (w : Work) (j : Job) (c : CollRun) (v : CView) : State :=
  let status := if c.poisoned then St.intPoison else St.done
  match v, w.opcode == opcGRAD_NORM with
  | .red r _ _, true =>
    let p := r.normPair c.got
    let n := fsqrt (readout p)
    let da := le w.params 8 8
    let s := if da = 0 then s
      else (s.carry (.skip 44) (s.agentOf da) 5 (leBytes 4 n.toNat)).devWrite w.job da (leBytes 4 n.toNat)
    s.endColl w status (leBytes 8 p.code ++ leBytes 4 n.toNat ++ leBytes 4 0)
  | v, _ =>
    let d := CollDesc.parse w.params
    let rs := v.records s j d
    let s := rs.zipIdx.foldl (fun s r =>
      (s.carry (.skip (44 + r.2 % 4)) (s.agentOf (d.digest + 64 * r.2)) 8 r.1).devWrite w.job (d.digest + 64 * r.2) r.1) s
    if !c.poisoned then s.endColl w status (collReply c.dBytes rs.length 0xFFFF_FFFF 0)
    else match v.poisonReport s c j.mapping d.axis with
      | some (l, u) => s.endColl w status (collReply c.dBytes rs.length l u)
      | none =>
        let f := (Config.freeValue s.freeCtr).toNat
        let g := (Config.freeValue (s.freeCtr + 1)).toNat
        s.freshen.freshen.endColl w status (collReply c.dBytes rs.length (f % 2 ^ 32) g)

/-- A write into D is acknowledged (R392). -/
def State.collAck (s : State) (seq n : Nat) : State :=
  let s := s.modColl seq fun c => { c with writesLeft := c.writesLeft - 1, dBytes := c.dBytes + n }
  match s.collRun seq with
  | some c => s.setWatermark seq c.dBytes
  | none => s

end Sys2Proof.Machine
end

