-- ==== Sys2Proof/Machine/HostPort.lean ====
section
/-! DEFINITION. The host Ethernet port: training (R343, R344), frames and addresses (R345-R350), queue pairs and the RoCEv2
responder (R356-R359), host transfers (R360-R365). -/

namespace Sys2Proof.Machine

/-! ### Counters (R366) -/

def hcFEC_CORR : Nat := 0
def hcFEC_UNCORR : Nat := 1
def hcFRAMES_RX : Nat := 2
def hcFRAMES_TX : Nat := 3
def hcFCS_DROP : Nat := 4
def hcMAC_DROP : Nat := 5
def hcIP_ERR : Nat := 6
def hcPORT_DROP : Nat := 7
def hcWOROR_RX : Nat := 8
def hcWOROR_BAD : Nat := 9
def hcWOROR_QFULL : Nat := 10
def hcWOROR_DUP : Nat := 11
def hcWOROR_STALE : Nat := 12
def hcWOROR_REORDER_DROP : Nat := 13
def hcWOROR_WINDOW_DROP : Nat := 14
def hcROCE_SEQ_NAK : Nat := 15
def hcROCE_FATAL_NAK : Nat := 16
def hcXFER_LATE : Nat := 17
def hcCNP_TX : Nat := 18
def hcCNP_RX : Nat := 19
def hcROCE_QP_DROP : Nat := 20

def State.hostCount (s : State) (i : Nat) : State :=
  { s with host := { s.host with counts := store 0 s.host.counts i (sat32 (lookup 0 s.host.counts i + 1)) } }

/-- The tag of every frame that is sent: PCP and VID (R346). -/
def HostPort.tag (h : HostPort) : Option Nat := if h.vlanEn then some (h.pcp * 2 ^ 13 + h.vid) else none

/-- A received pause holds what the port sends: frames on `PFC_PRIO`, which untagged ones are taken to be (R347; DESIGN CHOICE,
log 103). -/
def State.paused (s : State) : Bool :=
  decide (s.sclk < s.host.pausedUntil) && (!s.host.vlanEn || s.host.pcp == s.host.pfcPrio)

/-- Sends one frame to the host, or holds it while a pause lasts. -/
def State.tx (s : State) (f : Frame) : State :=
  { s with
    out := if s.paused then s.out else s.out ++ [.frame s.host.tag f]
    host := { s.host with
      counts := if s.paused then s.host.counts else store 0 s.host.counts hcFRAMES_TX (sat32 (lookup 0 s.host.counts hcFRAMES_TX + 1))
      txHeld := if s.paused then s.host.txHeld ++ [(s.host.tag, f)] else s.host.txHeld } }

/-- The pause is over: the frames that it held leave. -/
def State.txResume (s : State) : State :=
  if s.paused then s
  else s.host.txHeld.foldl (fun s f => (s.send (.frame f.1 f.2)).hostCount hcFRAMES_TX)
    { s with host := { s.host with txHeld := [] } }

/-- SCLK counts on to a time. -/
def State.passTo (s : State) (t : Nat) : State := { s with sclk := max s.sclk t }.txResume

def Qp.dest (q : Qp) : RoceTo := { mac := q.mac, gid := q.gid, qpn := q.destQpn, tclass := q.tclass, hop := q.hop }

/-- Sends a packet of a queue pair, to where the host has said (R349, R357). -/
def State.txQp (s : State) (i : Nat) (f : RoceOut) : State := s.tx (.roce i (s.qp i).dest f)

/-- Each of the packets that the device has just made is sent and counted. -/
def State.txsQp (s : State) (i : Nat) (fs : List RoceOut) : State := fs.foldl (fun s f => s.txQp i f) s

def State.hostCounts (s : State) (i n : Nat) : State :=
  { s with host := { s.host with counts := store 0 s.host.counts i (sat32 (lookup 0 s.host.counts i + n)) } }

/-- The port sends and receives: it is UP, and its PLL is locked (R344, R405, R435, R466). -/
def State.hostUp (s : State) : Bool := s.host.state == 2 && s.power.hostLock

/-! ### Training (R344) -/

/-- The lanes of a mode: all eight in mode A, lanes 0 to 3 in mode B. -/
def modeLanes (b : Bool) : BitVec 8 := if b then 0x0F#8 else 0xFF#8

/-- The port trains anew; without its PLL it stays as it is (R466). What it had not sent is lost. -/
def State.hostRetrain (s : State) : State :=
  if !s.power.hostLock then s else { s with host := { s.host with state := 1, locked := 0#8, txHeld := [] } }

def State.hostLaneLost (s : State) (lane : Nat) : State :=
  if s.host.state = 2 ∧ (modeLanes s.host.modeActive).getLsbD lane then s.hostRetrain else s

/-- The port comes up only with every lane of its mode locked. -/
def State.hostTrained (s : State) (locked : BitVec 8) : State :=
  if s.host.state ≠ 1 ∨ !s.power.hostLock then s
  else
    let need := modeLanes s.host.mode
    let up := locked &&& need == need
    { s with host := { s.host with locked := locked &&& need, modeActive := s.host.mode, state := if up then 2 else 1 } }

/-! ### Frames and addresses (R345-R350) -/

def State.dropFrame (s : State) (w : DropReason) : State :=
  if !s.hostUp then s
  else
    let s := s.hostCount hcFRAMES_RX
    match w with
    | .badFcs | .tooLong => s.hostCount hcFCS_DROP
    | .fecFailed c u => ((s.hostCounts hcFEC_CORR c).hostCounts hcFEC_UNCORR u).hostCount hcFCS_DROP
    | .otherMac | .wrongTag => s.hostCount hcMAC_DROP
    | .ipError => s.hostCount hcIP_ERR
    | .otherPort => s.hostCount hcPORT_DROP

/-- The link-local address: fe80::/64 with the modified EUI-64 of the MAC address (R348). -/
def linkLocal (m : MacAddr) : IpAddr :=
  let h := (m.toNat / 2 ^ 24) ^^^ 0x02_0000
  BitVec.ofNat 128 (0xfe80 * 2 ^ 112 + h * 2 ^ 40 + 0xfffe * 2 ^ 24 + m.toNat % 2 ^ 24)

def mappedV4 (a : U32) : IpAddr := BitVec.ofNat 128 (0xffff * 2 ^ 32 + a.toNat)

/-- The device's addresses: the link-local one, and those that the host has set. -/
def HostPort.addresses (h : HostPort) : List IpAddr :=
  [linkLocal h.mac] ++ (h.ipv4.map mappedV4).toList ++ h.ipv6.toList

/-- A Woror or RoCEv2 packet is for the device and from a permitted host. -/
def HostPort.accepts (h : HostPort) (src dst : IpAddr) : Bool :=
  h.addresses.contains dst && (h.permit.isEmpty || h.permit.contains src)

/-- An address that stands for an IPv4 address. -/
def isV4 (a : IpAddr) : Bool := a.toNat / 2 ^ 32 == 0xFFFF

def mtuBytes : Nat → Nat
  | 0 => 1500
  | 1 => 4200
  | _ => 9000

/-- The longest payload after an IP header of 20 or 40 bytes and 8 bytes of UDP or ICMP, at the port's MTU (R350, R351). -/
def HostPort.udpRoom (h : HostPort) (dst : IpAddr) : Nat := mtuBytes h.mtu - (if isV4 dst then 28 else 48)

/-- The tag of an accepted frame: that of `HOSTP_VLAN` alone, or none (R346). -/
def HostPort.tagOk (h : HostPort) (tags : List (BitVec 12)) : Bool :=
  if h.vlanEn then tags == [BitVec.ofNat 12 h.vid] else tags.isEmpty

/-- The receive buffer passes its three-quarters mark, or falls below it: with `PFC_EN` the port asks for a pause as it passes
(R347; DESIGN CHOICE, log 103: of 65535 quanta). -/
def State.rxFills (s : State) (b : RxFill) : State :=
  let high := b != .room
  let s := if high && !s.host.rxHigh && s.host.pfcEn then
      (s.send (.frame none (.pfc s.host.pfcPrio 65535))).hostCount hcFRAMES_TX else s
  { s with host := { s.host with rxHigh := high } }

/-- A frame whose FCS is good is counted, and lies in the receive buffer (R345, R347). -/
def State.frameCounted (s : State) (a : Arrival) : State :=
  ((s.hostCount hcFRAMES_RX).hostCounts hcFEC_CORR a.corrected).rxFills a.buffer

/-- What every frame meets: the port is up (R344); a full receive buffer drops it (R347), and so do a length above the MTU (R345)
and a tag that is not the port's (R346). -/
def State.frameIn (s : State) (a : Arrival) (len room : Nat) (f : State → State) : State :=
  if !s.hostUp then s
  else
    let s := s.frameCounted a
    if a.buffer = .full then s
    else if room < len then s.hostCount hcFCS_DROP
    else if !s.host.tagOk a.tags then s.hostCount hcMAC_DROP
    else f s

def State.arp (s : State) (target asker : U32) (who : Asker) : State :=
  s.frameIn who.frame 0 0 fun s => if s.host.ipv4 = some target then s.tx (.arp target asker who.mac) else s

def State.neighborAsked (s : State) (target asker : IpAddr) (who : Asker) : State :=
  s.frameIn who.frame 0 0 fun s =>
    if target = linkLocal s.host.mac ∨ s.host.ipv6 = some target then s.tx (.neighbor target asker who.mac) else s

/-- An echo request; at most 1000 replies in a second, counted in seconds of SCLK (DESIGN CHOICE, log 15). -/
def State.echoAsked (s : State) (target asker : IpAddr) (who : Asker) (payload : List Byte) : State :=
  s.frameIn who.frame payload.length (s.host.udpRoom target) fun s =>
    if !s.host.addresses.contains target then s
    else
      let now := s.sclk / sclkSecond
      let n := if s.host.icmpAt = now then s.host.icmpSent else 0
      if 1000 ≤ n then s
      else ({ s with host := { s.host with icmpSent := n + 1, icmpAt := now } }).tx (.echo target asker who.mac payload)

/-- SCLK cycles of a pause: quanta of 512 bit times at 1.6 Tbit/s, rounded up (IEEE 802.1Qbb; DEDUCED, log 103). -/
def pauseCycles (quanta : Nat) : Nat := ceilDiv (quanta * 224) 1000

/-- A PFC frame: obeyed on `PFC_PRIO` while `PFC_EN` is 1 (R347). MAC control frames carry no tag. -/
def State.pfc (s : State) (prio : BitVec 3) (p : Pause) : State :=
  if !s.hostUp then s
  else
    let s := ((s.hostCount hcFRAMES_RX).hostCounts hcFEC_CORR p.frame.corrected)
    if s.host.pfcEn && prio.toNat == s.host.pfcPrio then
      ({ s with host := { s.host with pausedUntil := s.sclk + pauseCycles p.quanta.toNat } }).txResume
    else s

/-! ### Poison on a host read (R227) -/

/-- The bytes of a host read, zeros in place of a poisoned unit, and the first poisoned unit. -/
def State.hostRead (s : State) (da n : Nat) : List Byte × Option Nat :=
  ((List.range n).map fun i => if s.poisonedAt (da + i) then 0#8 else s.byte (da + i), s.firstPoison da n)

/-- A host read has met a poisoned unit: it has consumed it (R227, R234), and the unit may lie in a state region (R441). -/
def State.hostPoison (s : State) (u : Nat) : State :=
  (({ s with memInfo := { s.memInfo with poisonUsed := sat32 (s.memInfo.poisonUsed + 1) } }).memLast u 2).poisonSeen u

/-- The parts of a range in the 256-byte granules that it meets. -/
def granuleParts (da : Nat) (bs : List Byte) : List (Nat × List Byte) :=
  (splitGranules { owner := .other, handle := 0, da := da, bytes := bs, add := 0, poison := false, hay := false }).map
    fun r => (r.da, r.bytes)

/-- Data from the host port to where it lies travels by message when it is small enough in all (R260). -/
def State.hostIn (s : State) (da : Nat) (bs : List Byte) : State :=
  if stpFits bs.length then (granuleParts da bs).foldl (fun s r => s.carry .host (s.agentOf r.1) 5 r.2) s else s

/-- The same for data that the host port asks for. -/
def State.hostOut (s : State) (da : Nat) (bs : List Byte) : State :=
  if stpFits bs.length then
    (granuleParts da bs).foldl (fun s r =>
      (s.carry .host (s.agentOf r.1) 4 (leBytes 8 r.1)).carry (s.agentOf r.1) .host 5 r.2) s
  else s

/-! ### Queue pairs (R357-R359) -/

def Qp.pmtuBytes (q : Qp) : Nat := 512 * 2 ^ q.pmtu

/-- The device's queue pair of a QPN. -/
def qpiOf (qpn : BitVec 24) : Option Nat :=
  if 0x100 ≤ qpn.toNat ∧ qpn.toNat ≤ 0x13F then some (qpn.toNat - 0x100) else none

def psnAdd (p n : Nat) : Nat := (p + n) % 2 ^ 24

/-- The message in progress on a queue pair is cut off: its bytes do not count for its transfer (R362). -/
def State.cutMessage (s : State) (i : Nat) : State :=
  let q := s.qp i
  if q.msg = 2 ∧ (s.xfer q.wrSlot).gen = q.wrGen then s.modXfer q.wrSlot fun x => { x with part := 0 } else s

/-- A fatal NAK: code 1 Invalid Request, 2 Remote Access Error; the queue pair moves to ERROR. -/
def State.fatalNak (s : State) (i code : Nat) : State :=
  let p := (s.qp i).epsn
  (((s.cutMessage i).modQp i fun q => { q with state := 2, msg := 0, sendBuf := [] }).hostCount hcROCE_FATAL_NAK).txQp i (.nak p code)

/-- A CNP for a packet that carries ECN CE, at most one in 50 µs. -/
def State.sendCnp (s : State) (i : Nat) : State :=
  let due := match (s.qp i).lastCnp with
    | some t => decide (t + 35000 ≤ s.sclk)
    | none => true
  if due then ((s.modQp i fun q => { q with lastCnp := some s.sclk }).hostCount hcCNP_TX).txQp i .cnp else s

/-- The acknowledgement that a packet asks for, or that the 64th packet without one brings. -/
def State.ackPsn (s : State) (i psn : Nat) (req : Bool) : State :=
  let n := (s.qp i).unacked + 1
  if req ∨ 64 ≤ n then (s.modQp i fun q => { q with unacked := 0 }).txQp i (.ack psn)
  else s.modQp i fun q => { q with unacked := n }

/-- The UDP payload of a RoCEv2 packet: BTH of 12 bytes, RETH of 16 where it has one, the payload in whole words, ICRC. -/
def roceLength (r : RocePacket) (reth : Bool) : Nat := 12 + (if reth then 16 else 0) + 4 * ceilDiv r.payload.length 4 + 4

/-- What every RoCEv2 packet meets: its frame's checks, a good ICRC (R356), its addresses (R348), a queue pair in RTS, and the order
of PSNs. -/
def State.roceIn (s : State) (r : RocePacket) (reth : Bool) (perform again : State → Nat → State) : State :=
  s.frameIn r.frame (roceLength r reth) (s.host.udpRoom r.dst) fun s =>
    if !r.icrcOk ∨ !s.host.accepts r.src r.dst then s
    else match qpiOf r.qpn with
      | none => s.hostCount hcROCE_QP_DROP
      | some i =>
        if (s.qp i).state ≠ 1 then s.hostCount hcROCE_QP_DROP
        else
          let s := if r.ecnCe then s.sendCnp i else s
          let q := s.qp i
          let d := (r.psn.toNat + 2 ^ 24 - q.epsn) % 2 ^ 24
          if d = 0 then perform (s.modQp i fun q => { q with gapNak := false }) i
          else if d < 2 ^ 23 then
            (if q.gapNak then s
             else ((s.modQp i fun q => { q with gapNak := true }).hostCount hcROCE_SEQ_NAK).txQp i (.nak q.epsn 0))
          else again s i

/-- A duplicate SEND or WRITE is acknowledged again and not performed. -/
def againAck (r : RocePacket) (s : State) (i : Nat) : State := s.txQp i (.ack r.psn.toNat)

def partStarts (p : MsgPart) : Bool := match p with | .first | .only => true | _ => false
def partEnds (p : MsgPart) : Bool := match p with | .last | .only => true | _ => false

/-- A received CNP halves the rate of READ responses. -/
def State.cnpIn (s : State) (r : RocePacket) : State :=
  s.frameIn r.frame (roceLength r true) (s.host.udpRoom r.dst) fun s =>
    if !r.icrcOk ∨ !s.host.accepts r.src r.dst then s
    else match qpiOf r.qpn with
    | none => s.hostCount hcROCE_QP_DROP
    | some i =>
      if (s.qp i).state ≠ 1 then s.hostCount hcROCE_QP_DROP
      else (s.hostCount hcCNP_RX).modQp i fun q => { q with rate := max 1 (q.rate / 2) }

/-- The rate rises by a sixteenth of line rate, up to line rate. -/
def State.rateRestore (s : State) (i : Nat) : State := s.modQp i fun q => { q with rate := min 65536 (q.rate + 4096) }

/-- Any other operation code (R356). -/
def State.roceInvalid (s : State) (r : RocePacket) : State :=
  s.roceIn r false (fun s i => s.fatalNak i 1) (fun s i => s.fatalNak i 1)

/-- Settings of a queue pair from the 48-byte block. -/
def qpOfParams (p : List Byte) : Qp :=
  { Qp.reset with
    state := 1, job := le p 1 1, pmtu := le p 2 1, destQpn := le p 4 3, epsn := le p 8 3
    gid := BitVec.ofNat 128 (beNat ((p.drop 16).take 16)), mac := BitVec.ofNat 48 (beNat ((p.drop 32).take 6))
    tclass := (let t := le p 38 1; if t % 4 = 0 then t + 2 else t), hop := le p 39 1 }

def qpStatus (s : State) (p : List Byte) : Nat :=
  let m := le p 2 1
  firstBad
    [ (decide (le p 0 1 ≤ 63) && decide (1 ≤ m ∧ m ≤ 3), St.paramRange),
      (decide (512 * 2 ^ m + 82 ≤ mtuBytes s.host.mtu), St.paramRange),
      ((match s.job (le p 1 1) with | some j => j.releasing.isNone | none => false) && decide (le p 1 1 < 4), St.paramRange) ]

/-- A queue pair of a released job, or one that a warm reset meets, is RESET. -/
def State.resetQps (s : State) (p : Qp → Bool) : State :=
  { s with host := { s.host with qps := s.host.qps.filter fun e => !p e.2 } }

/-! ### Host transfers (R360-R365) -/

/-- The final reply of a transfer (R374). -/
def xferReply (st wm : Nat) : List Byte := leBytes 2 st ++ leBytes 6 0 ++ leBytes 8 wm

def Xfer.rkey (x : Xfer) (slot : Nat) : Nat := x.gen * 256 + slot
def Xfer.open_ (x : Xfer) : Bool := x.state == 1 || x.state == 2

def genNext (g : Nat) : Nat := (g + 1) % 2 ^ 24

/-- The transfer stops taking packets: its generation is past (R361). -/
def Xfer.stopped (x : Xfer) : Xfer := { x with gen := genNext x.gen, past := x.past + 1, part := 0 }

/-- The slot is free; what counts its generations stays. -/
def Xfer.freed (x : Xfer) : Xfer := { Xfer.reset with gen := x.gen, past := x.past }

/-- A write of the transfer of a slot and generation that waits for its acknowledgement. -/
def ownsHost (slot gen : Nat) (r : WriteReq) : Bool :=
  match r.owner with
  | .host k g _ => k == slot && g == gen
  | _ => false

/-- Offsets, in arrival order, of the bytes of a transfer that are not acknowledged. -/
def State.hostOffsets (s : State) (slot gen : Nat) : List Nat :=
  s.skips.flatMap fun k => ((k.2.arrived ++ k.2.issued).filter (ownsHost slot gen)).filterMap fun r =>
    match r.owner with
    | .host _ _ o => some o
    | _ => none

/-- Bytes written and acknowledged, counted in arrival order (R362). -/
def State.hostMark (s : State) (slot : Nat) : Nat :=
  let x := s.xfer slot
  max x.watermark (if x.read then x.counted else (s.hostOffsets slot x.gen).foldl min (x.counted + x.part))

/-- A write of a transfer is acknowledged. -/
def State.hostAck (s : State) (slot gen : Nat) : State :=
  let x := s.xfer slot
  if x.gen ≠ gen ∨ !x.open_ then s
  else
    let wm := s.hostMark slot
    (s.modXfer slot fun x => { x with watermark := wm }).setWatermark x.seq wm

/-- The transfer stops with a status; its slot keeps state 4, or is freed. `waiters` is the status of the entries that wait
on it (R364). -/
def State.abortXfer (s : State) (slot status waiters : Nat) (keep : Bool) : State :=
  let x := s.xfer slot
  if !x.open_ then s
  else
    let y := if keep then { x.stopped with state := 4, status := status, lastPacket := none } else x.stopped.freed
    ((s.setXfer slot y).finishAt x.seq status x.watermark (xferReply status x.watermark)).hostEnded x.job x.id waiters

/-- The transfer has reached its length, with every write acknowledged or every response sent (R362, R363). -/
def State.xferComplete (s : State) (slot : Nat) : State :=
  let x := s.xfer slot
  if !x.open_ ∨ x.counted < x.len ∨ !(s.hostOffsets slot x.gen).isEmpty then s
  else
    let st := if x.poisonDa.isSome then St.intPoison else St.done
    let wm := x.counted
    let s := s.setXfer slot { x with state := 3, status := st, watermark := wm, lastPacket := none }
    (s.finishAt x.seq st wm (xferReply st wm)).hostEnded x.job x.id St.done

/-- The count of SCLK cycles since the transfer's last packet reaches the job's host timeout: SCLK has counted on to it, and a
transfer that is not whole is aborted in that cycle (R365; DESIGN CHOICE, log 152). -/
def State.hostTimedOut (s : State) (slot : Nat) : State :=
  match (s.xfer slot).lastPacket, s.job (s.xfer slot).job with
  | some t, some j =>
    let s := (s.passTo (t + j.hostTimeoutMs * (sclkSecond / 1000))).xferComplete slot
    s.abortXfer slot St.dataHostTimeout St.dataHostTimeout true
  | _, _ => s

/-- A packet of the transfer is accepted: its timer restarts. Its bytes count once its message is whole (R362). -/
def State.xferPacket (s : State) (slot : Nat) (n : Nat) (whole : Bool) : State :=
  let x := s.xfer slot
  let s := if x.state = 1 then s.startEntry x.seq else s
  (s.countLink false x.job n).modXfer slot fun x =>
    { x with state := 2, counted := if whole then x.counted + x.part + n else x.counted, part := if whole then 0 else x.part + n,
             lastPacket := some s.sclk }

/-! #### Opening and closing -/

def xferStatusOf (s : State) (jn : Nat) (j : Job) (p : List Byte) : Nat :=
  let id := le p 0 4
  let da := le p 8 8
  let n := le p 16 8
  let q := s.qp (le p 5 1)
  firstBad
    [ (decide (le p 4 1 ≤ 1) && decide (le p 5 1 ≤ 63) && id != 0 && decide (n ≤ 2 ^ 40), St.paramRange),
      ((s.xferOf jn id).isNone && q.state != 0 && q.job == jn, St.paramRange),
      (n == 0 || ((j.regions.any fun r => r.has da n) && !s.meetsHay jn da n), St.secWindow),
      ((List.range 256).any (fun k => (s.xfer k).state == 0), St.resXferSlots) ]

/-- Opens a transfer on the lowest free slot; one of length 0 is complete at once. -/
def State.openXfer (s : State) (jn seq : Nat) (p : List Byte) : State × List Byte :=
  match (List.range 256).find? fun k => (s.xfer k).state == 0 with
  | none => (s, [])
  | some k =>
    let id := le p 0 4
    let x : Xfer := { (s.xfer k).freed with
      state := 1, job := jn, id := id, read := le p 4 1 == 1, qpi := le p 5 1, da := le p 8 8, len := le p 16 8, seq := seq }
    let s := (s.setXfer k x).modEntry seq fun e => { e with object := id }
    let acc := leBytes 4 (x.rkey k) ++ leBytes 4 0
    if x.len = 0 then (s.xferComplete k, acc) else (s, acc)

/-- Closes a transfer that holds a slot: one whose last write has been acknowledged is complete, and a complete one stops taking
packets now; one that is not is aborted (R365). -/
def State.closeXfer (s : State) (slot : Nat) : State :=
  let s := s.xferComplete slot
  let x := s.xfer slot
  match x.state with
  | 3 => s.setXfer slot x.stopped.freed
  | 4 => s.setXfer slot x.freed
  | _ => s.abortXfer slot St.partEnd St.statePredFailed false

/-- The reply of `XFER_STATUS` (R379). -/
def Xfer.report (x : Xfer) (slot : Nat) : List Byte :=
  leBytes 1 x.state ++ leBytes 1 0 ++ leBytes 2 x.status ++ leBytes 4 (x.rkey slot) ++ leBytes 8 x.watermark

/-- A job's slots: open transfers are aborted, the others closed (R383). -/
def State.releaseXfers (s : State) (jn : Nat) : State :=
  ((s.host.xfers.filter fun e => e.2.state != 0 && e.2.job == jn).map Prod.fst).foldl State.closeXfer s

/-- A fence aborts a job's open transfers (R457). -/
def State.fenceXfers (s : State) (jn : Nat) : State :=
  ((s.host.xfers.filter fun e => e.2.open_ && e.2.job == jn).map Prod.fst).foldl
    (fun s k => s.abortXfer k St.stateFenced St.stateFenced true) s

/-! #### WRITE (R361, R362, R364) -/

inductive RkeyCheck where
  | ok (slot : Nat)
  | late
  | overrun (slot : Nat)
  | bad
deriving DecidableEq

/-- A generation is that of an earlier transfer of the slot: older than the current one, and one that a transfer has had. -/
def Xfer.oldGen (x : Xfer) (g : Nat) : Bool :=
  let d := (x.gen + 2 ^ 24 - g) % 2 ^ 24
  decide (1 ≤ d ∧ d < 2 ^ 23 ∧ d ≤ x.past)

/-- The check of R361 on the first packet of a WRITE, and on a READ request. -/
def State.checkRkey (s : State) (i : Nat) (r : RocePacket) (read : Bool) : RkeyCheck :=
  let slot := r.rkey.toNat % 256
  let gen := r.rkey.toNat / 256
  let x := s.xfer slot
  let n := r.dmaLen.toNat
  if x.oldGen gen then .late
  else if gen ≠ x.gen ∨ !x.open_ ∨ x.read ≠ read ∨ x.qpi ≠ i ∨ r.va.toNat < x.da ∨ x.da + x.len < r.va.toNat + n then .bad
  else if !read ∧ x.len < x.counted + n then .overrun slot
  else .ok slot

/-- The granules of a payload, each numbered by the bytes that arrived before it. -/
def hostWrites (slot gen seq off da : Nat) (bs : List Byte) : List WriteReq :=
  let base : WriteReq := { owner := .host slot gen off, handle := seq, da := da, bytes := bs, add := 0, poison := false, hay := false }
  (splitGranules base).map fun w => { w with owner := .host slot gen (off + (w.da - da)) }

/-- The payload of a WRITE packet goes to memory, or is discarded because its transfer has stopped. -/
def State.writePayload (s : State) (i : Nat) (r : RocePacket) : State :=
  let q := s.qp i
  let x := s.xfer q.wrSlot
  let n := r.payload.length
  let late := q.msg = 3 ∨ x.gen ≠ q.wrGen ∨ !x.open_
  let s := s.modQp i fun q =>
    { q with epsn := psnAdd q.epsn 1, wrVa := q.wrVa + n, wrLeft := q.wrLeft - n,
             msg := if partEnds r.part then 0 else if late then 3 else 2 }
  let s := if late then s.hostCount hcXFER_LATE
    else ((s.xferPacket q.wrSlot n (partEnds r.part)).hostIn q.wrVa r.payload).toSkips
      (hostWrites q.wrSlot q.wrGen x.seq (x.counted + x.part) q.wrVa r.payload)
  s.ackPsn i r.psn.toNat r.ackReq

/-- The payload of a packet fits its place: a First or Middle packet is as long as the path MTU, a Last one has a byte at least, and
none is longer (R358, the responder's rules of IBTA). -/
def partFits (q : Qp) (r : RocePacket) : Bool :=
  let n := r.payload.length
  match r.part with
  | .first | .middle => n == q.pmtuBytes
  | .last => decide (1 ≤ n ∧ n ≤ q.pmtuBytes)
  | .only => decide (n ≤ q.pmtuBytes)

/-- The lengths of a message agree with its RETH and with the path MTU. -/
def lengthOk (q : Qp) (r : RocePacket) : Bool :=
  let n := r.payload.length
  partFits q r && (if partEnds r.part then n == q.wrLeft else decide (n < q.wrLeft))

/-- The first packet of a WRITE names the transfer and the place of the message. `msg` is 2 for a transfer that is open, 3
for one that has stopped, whose bytes are discarded. -/
def State.beginWrite (s : State) (i : Nat) (r : RocePacket) (slot msg : Nat) : State :=
  s.modQp i fun q => { q with msg := msg, wrSlot := slot, wrGen := r.rkey.toNat / 256, wrVa := r.va.toNat,
                              wrLeft := r.dmaLen.toNat, wrLen := r.dmaLen.toNat }

def State.rdmaWrite (s : State) (r : RocePacket) : State :=
  s.roceIn r (partStarts r.part) (fun s i =>
    let q := s.qp i
    if partStarts r.part then
      if q.msg ≠ 0 then s.fatalNak i 1
      else match s.checkRkey i r false with
        | .bad => s.fatalNak i 2
        | .overrun k => (s.fatalNak i 2).abortXfer k St.paramTarget St.paramTarget true
        | .late => (s.beginWrite i r (r.rkey.toNat % 256) 3).writePayload i r
        | .ok k =>
          if lengthOk { q with wrLeft := r.dmaLen.toNat } r then (s.beginWrite i r k 2).writePayload i r
          else (s.beginWrite i r k 2).fatalNak i 1
    else if q.msg = 2 ∧ !lengthOk q r then s.fatalNak i 1
    else if q.msg = 2 ∨ q.msg = 3 then s.writePayload i r
    else s.fatalNak i 1) (againAck r)

/-! #### READ (R363) -/

/-- The responses of a READ: packets of the path MTU. -/
def responses (psn pmtu : Nat) (bs : List Byte) : List RoceOut :=
  let n := max 1 (ceilDiv bs.length pmtu)
  (List.range n).map fun k =>
    let part : MsgPart := if n = 1 then .only else if k = 0 then .first else if k + 1 = n then .last else .middle
    .readResponse (psnAdd psn k) part ((bs.drop (k * pmtu)).take pmtu)

/-- A READ is performed from memory. -/
def State.respond (s : State) (i : Nat) (r : RocePacket) : State × Option Nat :=
  let s := s.hostEcc r.va.toNat r.dmaLen.toNat r.found
  let d := s.hostRead r.va.toNat r.dmaLen.toNat
  let s := match d.2 with
    | some u => s.hostPoison u
    | none => s
  let s := s.hostOut r.va.toNat d.1
  (s.txsQp i (responses r.psn.toNat (s.qp i).pmtuBytes d.1), d.2)

/-- A READ of an open transfer: its responses, and what they count towards the transfer. -/
def State.performRead (s : State) (i : Nat) (r : RocePacket) (k : Nat) : State :=
  let s := s.modQp i fun q => { q with epsn := psnAdd q.epsn (max 1 (ceilDiv r.dmaLen.toNat q.pmtuBytes)), unacked := 0 }
  let (s, bad) := s.respond i r
  let s := s.xferPacket k r.dmaLen.toNat true
  let s := s.modXfer k fun x => { x with poisonDa := if x.poisonDa.isNone then bad else x.poisonDa, watermark := x.counted }
  let x := s.xfer k
  s.setWatermark x.seq x.watermark

def State.rdmaRead (s : State) (r : RocePacket) : State :=
  s.roceIn r true (fun s i =>
    let q := s.qp i
    if q.msg ≠ 0 then s.fatalNak i 1
    else match s.checkRkey i r true with
      | .late =>
        ((s.modQp i fun q => { q with epsn := psnAdd q.epsn (max 1 (ceilDiv r.dmaLen.toNat q.pmtuBytes)) }).hostCount
          hcXFER_LATE).txQp i (.ack r.psn.toNat)
      | .ok k => s.performRead i r k
      | _ => s.fatalNak i 2)
  (fun s i =>
    let x := s.xfer (r.rkey.toNat % 256)
    let same := r.rkey.toNat / 256 = x.gen ∧ x.read ∧ x.qpi = i ∧ (x.open_ ∨ x.state = 3) ∧ x.da ≤ r.va.toNat ∧
      r.va.toNat + r.dmaLen.toNat ≤ x.da + x.len
    if same then (s.respond i r).1 else s.txQp i (.ack r.psn.toNat))

end Sys2Proof.Machine
end

