-- ==== Sys2Proof/Machine/Jobs.lean ====
section
/-! DEFINITION. Jobs, contexts and mappings: `JOB_CREATE`, `JOB_MODIFY`, `JOB_RELEASE` (R380-R383), `CONTEXT_CREATE` and
`CONTEXT_RELEASE` (R276, R277, R384), `MAP_SET` (R314-R317), cancelling (R254, R383, R385), zeroing (R217). -/

namespace Sys2Proof.Machine

/-! ### Mappings (R314-R316) -/

def parseMapping (b : List Byte) : Mapping :=
  { epoch := le b 0 4, self := le b 6 2, width := le b 8 2, replicas := le b 10 2, tag := le b 12 4,
    devs := (List.range (le b 4 2)).map fun d =>
      { fid := le b (16 + 8 * d) 2, leafFirst := le b (20 + 8 * d) 2, leafCount := le b (22 + 8 * d) 2 } }

/-- The leaf ranges start at 0, are contiguous and end at 1023. -/
def contiguous : Nat → List MapDev → Bool
  | n, [] => n == 1024
  | n, d :: r => d.leafFirst == n && decide (1 ≤ d.leafCount) && contiguous (n + d.leafCount) r

def distinct : List Nat → Bool
  | [] => true
  | a :: r => !r.contains a && distinct r

def mappingStatus (s : State) (jn : Nat) (b : List Byte) : Nat :=
  let m := parseMapping b
  let n := m.devs.length
  let fids := m.devs.map MapDev.fid
  let own := ((m.devs[m.self]?).map MapDev.fid).getD 0
  firstBad
    [ (decide (1 ≤ m.width ∧ m.width ≤ 1024) && m.width == 2 ^ Nat.log2 m.width && decide (1 ≤ m.replicas ∧ m.replicas ≤ 1024 / m.width) &&
        decide (1 ≤ n ∧ n ≤ 1024) && decide (m.self < n), St.paramRange),
      (contiguous 0 m.devs, St.paramShard),
      (distinct fids && (own == s.fab.fid || (n == 1 && own == 0xFFF)), St.paramRange),
      (m.tag != 0 && (List.range 4).all (fun k => k == jn || (match s.job k with | some j => j.mapping.tag != m.tag | none => true)),
        St.resRegionConflict) ]

/-- Reserved fields of a mapping block. -/
def mappingReserved (b : List Byte) : Bool := (List.range (le b 4 2)).all fun d => zeroAt b (18 + 8 * d) 2

/-- `MAP_SET` takes effect (R317, R437). -/
def State.mapTake (s : State) (seq : Nat) : State :=
  match s.work seq with
  | none => s
  | some w =>
    match s.job w.job with
    | none => s
    | some j =>
      if w.opcode ≠ opcMAP_SET ∨ !s.jobClear seq ∨ !s.atHead seq then s
      else
        let m := parseMapping w.params
        let old := j.mapping
        if m.epoch ≠ (old.epoch + 1) % 2 ^ 32 ∨ m.width ≠ old.width ∨ m.replicas ≠ old.replicas ∨ m.tag ≠ old.tag then
          s.finish seq St.stateMapEpoch []
        else
          (s.modJob w.job fun j => { j with mapping := m, prior := some old, peerState := 0, lost := [], late := [] }).finish seq St.done []

/-! ### Regions (R216, R213) -/

def mib2 : Nat := 2 ^ 21

def Region.aligned (r : Region) : Bool := r.base % mib2 == 0 && r.len % mib2 == 0
def Region.clear (r : Region) (others : List Region) : Bool := others.all fun o => !(r.meets o.base o.len)

def parseRegions (b : List Byte) (n : Nat) : List Region := (List.range n).map fun i => ⟨le b (16 * i) 8, le b (16 * i + 8) 8⟩

/-- No two of the regions meet. -/
def apart : List Region → Bool
  | [] => true
  | r :: rest => r.clear rest && apart rest

def State.inMemory (s : State) (r : Region) : Bool := s.inHbm r.base r.len || s.inDdr r.base r.len

/-- The checks of R216 on regions to add to those that a job holds. -/
def regionStatus (s : State) (jn : Nat) (held add : List Region) : Nat :=
  let others := (List.range 4).flatMap fun k => if k = jn then [] else match s.job k with | some j => j.regions | none => []
  firstBad
    [ (add.all fun r => r.aligned && r.len != 0, St.paramAlign),
      (add.all s.inMemory, St.paramTarget),
      (add.all fun r => !r.meets s.reserveBase (2 ^ 30), St.secWindow),
      (add.all fun r => r.clear others, St.resRegionConflict),
      (decide (held.length + add.length ≤ 32), St.paramRange),
      (apart (held ++ add), St.resRegionConflict) ]

/-! ### JOB_CREATE (R380, R381) -/

def isPow2 (n : Nat) : Bool := n != 0 && n == 2 ^ Nat.log2 n

/-- A count in a range, where 0 stands for the default. -/
def zeroOr (v lo hi : Nat) : Bool := v == 0 || decide (lo ≤ v ∧ v ≤ hi)

def orDefault (v d : Nat) : Nat := if v = 0 then d else v

def jobMapping (p : List Byte) : List Byte := p.drop (64 + 16 * le p 52 1)

def createReserved (p : List Byte) : Bool :=
  decide (le p 0 4 < 4) && decide (le p 4 4 < 2 ^ 20) && zeroAt p 53 11 && mappingReserved (jobMapping p)

/-- A job as `JOB_CREATE` makes it. One that begins at a later epoch has a prior mapping whose block no command gives (R317): a
free value (log 71). -/
def Job.fresh (s : State) (p : List Byte) : Job :=
  let fl := le p 0 4
  { compat := bit fl 0, truncate := bit fl 1, paddocks := BitVec.ofNat 20 (le p 4 4), leaving := 0#20, seed := BitVec.ofNat 64 (le p 8 8),
    hostTimeoutMs := orDefault (le p 16 4) 2000, peerTimeoutUs := orDefault (le p 20 4) 250000, scratch := ⟨le p 24 8, le p 32 8⟩,
    ringDa := le p 40 8, ringEntries := le p 48 4, regions := parseRegions (p.drop 64) (le p 52 1), mapping := parseMapping (jobMapping p),
    prior := if le (jobMapping p) 0 4 = 0 then none else some (parseMapping (Config.priorMapping (jobMapping p))), step := 0, attempt := 0, aborted := false, committed := 0, bad := [], beginSeq := none, touched := false,
    poisonState := false, collIds := [], early := [], delivered := [], policy := 0, lossAttempts := 2, waitS := 0, lossMs := 1000,
    peerState := 0, lost := [], lostAt := 0, late := [], stateSet := none, checkpoint := none, lastCkptStart := 0, ckptCosts := [], restore := none,
    pair := none, events := [], holdCycles := 0, intervalMs := 0, costMs := 0, mtbfS := 0, points := [4, 0, 0, 1, 3, 0], paddockNj := 0,
    memNj := 0, fabricNj := 0, hostNj := 0, since := s.sclk, streams := [], sets := [], lastCtx := 15, signals := 0, releasing := none, modifying := [],
    truncGroups := 0, lastSparse := none, indexOps := 0, abortOps := 0, gmeSteps := 0, gmeDense := 0, jigWritten := 0, jigEscape := 0,
    jigZero := 0, assaySkipped := 0, scatterPartials := 0, captureRecords := 0, maskGenLast := 0, itemsTaken := 0, itemsDone := 0,
    itemsReturned := 0, takeEmpty := 0, lastProduct := 0, lastOp := 0, lastTiling := .none, barFailed := 0, shownStep := 0, records := 0, setsLost := 0, discards := 0, collDone := 0,
    collFailed := 0, collAborts := 0, collWaitMax := 0 }

def createStatus (s : State) (jn : Nat) (p : List Byte) : Nat :=
  let j := Job.fresh s p
  let ring := le p 48 4
  firstBad
    [ (s.memInfo.valid && !s.life.barJobs, St.resMemConfig),
      (le p 4 4 != 0 && zeroOr (le p 16 4) 1000 3600000 && zeroOr (le p 20 4) 1000 60000000 && decide (1 ≤ le p 52 1 ∧ le p 52 1 ≤ 32) &&
        j.scratch.len % mib2 == 0 &&
        ((ring == 0 && j.ringDa == 0) || (isPow2 ring && decide (256 ≤ ring ∧ ring ≤ 65536))), St.paramRange),
      (j.ringDa % 32 == 0, St.paramAlign) ]
  |> (orElse0 · (regionStatus s jn [] j.regions))
  |> (orElse0 · (firstBad
    [ ((List.range 20).all (fun q => !j.paddocks.getLsbD q || (s.holder q).isNone), St.resPaddockBusy),
      (j.scratch.len == 0 || s.inHbm j.scratch.base j.scratch.len, St.paramTarget),
      (j.scratch.len == 0 || j.regions.any (fun r => r.has j.scratch.base j.scratch.len), St.secWindow),
      (ring == 0 || j.regions.any (fun r => r.has j.ringDa (32 * ring)), St.secWindow) ]))
  |> (orElse0 · (mappingStatus s jn (jobMapping p)))

/-! ### Cancelling (R254, R383, R385) -/

/-- The entry has begun, so that a cancellation drains it. -/
def State.active (s : State) (w : Work) : Bool :=
  if w.opcode = opcSTREAM_ARM then
    (match (s.stream w.job w.sd).body with | some b => b.seq == w.seq | none => false)
  else match w.op with
    | some o => o.started
    | none => w.isColl && w.running

/-- Cancels one entry; `by_` is the command that waits for the end of the cancellation. -/
def State.cancelEntry (s : State) (w : Work) (by_ : Option Nat) : State :=
  if w.cancelling || s.active w then s.beginCancel w by_ else s.dropUnrun w

/-- Releases of contexts whose cancellations are over complete (R384). -/
def State.endReleases (s : State) : State :=
  ((s.works.filter fun w => w.opcode == 0x0305 && !(s.works.any fun v => v.cancelBy.contains w.seq)).map Work.seq).foldl
    (fun s q => s.finish q St.done []) s

/-- A cancellation is over. -/
def State.cancelDone (s : State) (seq : Nat) : State := (s.cancelled seq).endReleases

/-- Puts a context away: its registers keep what they show. -/
def State.retireCtx (s : State) (c : Nat) : State :=
  { s.setCtx c none with lastCtxs := store none s.lastCtxs c ((s.ctx c).map fun k => { k with hay := [] }) }

/-- The context is gone: its entries are drained outside any queue. -/
def State.dropCtx (s : State) (c : Nat) : State :=
  let s := match s.ctx c with
    | some k => s.endSpan c k.phase (!k.queue.isEmpty)
    | none => s
  { s.retireCtx c with works := s.works.map fun w => if w.ctx = some c then { w with ctx := none } else w }

/-! ### JOB_MODIFY (R382) -/

def addMask (p : List Byte) : BitVec 20 := BitVec.ofNat 20 (le p 0 4)
def removeMask (p : List Byte) : BitVec 20 := BitVec.ofNat 20 (le p 4 4)

/-- A paddock that must stay: named by the mask of an operation, or with frames of an open gradient set. -/
def State.pinnedPaddock (s : State) (jn : Nat) (j : Job) (q : Nat) : Bool :=
  (s.works.any fun w => w.job == jn && w.opcode == opcOP_ISSUE && bit (OpDesc.parse w.params).paddocks q) ||
  (j.sets.any fun g => g.pins.any fun x => paddockOf x.1 == q)

def modifyStatus (s : State) (jn : Nat) (j : Job) (p : List Byte) : Nat :=
  let a := addMask p
  let r := removeMask p
  let held := j.paddocks &&& ~~~j.leaving
  firstBad
    [ (decide (le p 8 1 ≤ 32), St.paramRange),
      (a &&& r == 0#20, St.paramRange),
      ((List.range 20).all (fun q => !a.getLsbD q || (match s.holder q with | some k => k == jn | none => true)), St.resPaddockBusy),
      ((List.range 20).all (fun q => !r.getLsbD q || (held.getLsbD q && !s.pinnedPaddock jn j q)) &&
        ((held ||| a) &&& ~~~r != 0#20), St.statePaddockInUse),
      (!(j.compat && (a ||| r) != 0#20 && s.works.any fun w => w.job == jn && w.opcode == opcOP_ISSUE), St.statePaddockInUse) ]
  |> (orElse0 · (regionStatus s jn j.regions (parseRegions (p.drop 16) (le p 8 1))))

/-- An accepted modification: additions take effect, removals wait for their tiles and the zeroing. -/
def State.modifyJob (s : State) (jn seq : Nat) (p : List Byte) : State :=
  let r := removeMask p
  let s := s.modJob jn fun j =>
    { j with paddocks := j.paddocks ||| addMask p, leaving := (j.leaving &&& ~~~addMask p) ||| r,
             regions := j.regions ++ parseRegions (p.drop 16) (le p 8 1),
             modifying := if r = 0#20 then j.modifying else j.modifying ++ [seq], signals := j.signals + 1 }
  if r = 0#20 then s.finish seq St.done [] else s.startEntry seq

/-! ### Restricted mode (R241) -/

/-- Enters restricted mode; the reason reset lasts until the first job is admitted. -/
def State.restrict (s : State) (why : Nat) : State :=
  if s.restricted ∧ s.restrictReason = 1 then s else { s with restricted := true, restrictReason := why }

def State.restoring (s : State) : Bool := (List.range 4).any fun k => match s.job k with | some j => j.restore.isSome | none => false

/-- A test or a restore is over: the mode stays while another one, or the reset, still asks for it. -/
def State.unrestrict (s : State) : State :=
  if s.restricted ∧ s.restrictReason = 1 then s
  else if s.memInfo.test.isSome then { s with restricted := true, restrictReason := 2 }
  else if s.restoring then { s with restricted := true, restrictReason := 3 }
  else { s with restricted := false, restrictReason := 0 }

/-! ### JOB_RELEASE (R383) -/

def State.releaseJob (s : State) (jn seq : Nat) : State :=
  let s := (s.works.filter fun w => w.job == jn && w.seq != seq && w.opcode != 0x0221).foldl
    (fun s w => match s.work w.seq with
      | some w => s.cancelEntry w (some seq)
      | none => s) s
  let s := (s.releaseXfers jn).resetQps fun q => q.state != 0 && q.job == jn
  let s := (s.ctxsOf jn).foldl State.dropCtx s
  ((s.startEntry seq).modJob jn fun j =>
    { j with releasing := some seq, modifying := [], checkpoint := none, restore := none, pair := none }).unrestrict

/-- The job's tiles of some paddocks. -/
def tilesOf (m : BitVec 20) : List Nat := (List.range 800).filter fun n => m.getLsbD (paddockOf n)

/-- Tiles that leave a job ask anew whoever holds them next (R201). -/
def State.unask (s : State) (ts : List Nat) : State := ts.foldl (fun s n => s.modTile n fun t => { t with asked := none }) s

/-- Puts a job away: its registers keep what they show. -/
def State.retireJob (s : State) (jn : Nat) : State :=
  { s.setJob jn none with
    lastJobs := store none s.lastJobs jn ((s.job jn).map fun j =>
      { j with paddocks := 0#20, leaving := 0#20, regions := [], sets := [], early := [], stateSet := none, pair := none,
               checkpoint := none, restore := none, releasing := none }) }

/-- Memory zeroing ends: a release frees the job number; a removal takes its paddocks out of the job (R217, R382, R383). -/
def State.zeroingEnds (s : State) (jn : Nat) : State :=
  match s.job jn with
  | none => s
  | some j =>
    match j.releasing with
    | some q =>
      if s.works.any fun w => w.job == jn && w.cancelling then s
      else
        let s := j.regions.foldl (fun s r => s.zero r.base r.len) s
        let s := ((tilesOf j.paddocks).foldl State.zeroTile s).unask (tilesOf j.paddocks)
        ((s.retireJob jn).resetQps fun x => x.state != 0 && x.job == jn).finish q St.done []
    | none =>
      let ts := tilesOf j.leaving
      if j.modifying.isEmpty ∨ ts.any fun n => (s.tile n).item.isSome then s
      else
        let s := (ts.foldl State.zeroTile s).unask ts
        let s := s.modJob jn fun j => { j with paddocks := j.paddocks &&& ~~~j.leaving, leaving := 0#20, modifying := [] }
        j.modifying.foldl (fun s q => s.finish q St.done []) s

/-! ### Contexts (R276, R277, R384) -/

def ctxAreas (p : List Byte) : List (Region × Bool) :=
  [(⟨le p 0 8, le p 8 8⟩, true), (⟨le p 16 8, le p 24 8⟩, false)].filter fun a => a.1.len != 0

def ctxStatus (s : State) (j : Job) (p : List Byte) : Nat :=
  let as := ctxAreas p
  let others := (List.range 16).flatMap fun c => match s.ctx c with
    | some k => [k.hlArea, k.spArea].filter fun r => r.len != 0
    | none => []
  let ring : Region := ⟨j.ringDa, 32 * j.ringEntries⟩
  firstBad
    [ ((le p 8 8 != 0 || le p 0 8 == 0) && (le p 24 8 != 0 || le p 16 8 == 0), St.paramRange),
      (as.all fun a => a.1.aligned, St.paramAlign),
      (as.all fun a => if a.2 then s.inHbm a.1.base a.1.len else s.inDdr a.1.base a.1.len, St.paramTarget),
      (as.all fun a => j.regions.any fun r => r.has a.1.base a.1.len, St.secWindow),
      (as.all fun a => a.1.clear (([j.scratch, ring]).filter fun r => r.len != 0), St.secWindow),
      (as.all fun a => a.1.clear others, St.resRegionConflict) ]

def Ctx.fresh (s : State) (jn : Nat) (p : List Byte) : Ctx :=
  { job := jn, queue := [], bad := [], hlDa := le p 0 8, hlBytes := le p 8 8, spDa := le p 16 8, spBytes := le p 24 8, hay := [],
    pushes := 0, hlHigh := 0, spillOut := 0, refill := 0, pushWait := 0, popWait := 0, pushSince := none, popSince := none, phase := 0,
    markPhase := none, stage := 0, microBatch := 0, spanStart := s.sclk, spanItems := 0, spanCyc := 0, nj := 0 }

/-- Cancels a context's queue and frees its hayloft, at acceptance. -/
def State.releaseCtx (s : State) (c seq : Nat) : State :=
  let s := s.startEntry seq
  let s := (s.works.filter fun w => w.ctx == some c && w.seq != seq).foldl
    (fun s w => match s.work w.seq with
      | some w => s.cancelEntry w (some seq)
      | none => s) s
  (s.dropCtx c).endReleases

/-! ### OP_CANCEL and STREAM_CANCEL (R252, R385) -/

def cancelStatus (s : State) (jn : Nat) (p : List Byte) : Nat :=
  match s.entry (le p 0 4) with
  | some x => if x.job = jn ∧ (x.opcode = opcOP_ISSUE ∨ x.opcode = opcROW) then 0 else St.paramRange
  | none => St.paramRange

def State.opCancelled (s : State) (seq : Nat) (p : List Byte) : State :=
  match s.work (le p 0 4) with
  | none => s.finish seq St.done zeroBlock
  | some w => if s.active w ∨ w.cancelling then (s.startEntry seq).beginCancel w (some seq) else (s.dropUnrun w).finish seq St.done zeroBlock

/-- The shadow is discarded in every state; contents that wait or run are cancelled. -/
def State.streamCancelled (s : State) (jn d seq : Nat) : State :=
  let x := s.stream jn d
  let s := match x.shadow with
    | some b => (s.modStream jn d fun x => { x with shadow := none }).finishAt b.seq St.statePredFailed 0 (armReply 0 0)
    | none => s
  match x.state, x.body.bind fun b => s.work b.seq with
  | .waiting, some w | .running, some w | .cancelling, some w => (s.startEntry seq).beginCancel w (some seq)
  | _, _ => s.finish seq St.done zeroBlock

/-- The reply of `STREAM_STATUS` (R379): states in the order FREE, WAITING, RUNNING, DONE, FAULTED, CANCELLING. -/
def streamCode : StreamState → Nat
  | .free => 0 | .waiting => 1 | .running => 2 | .done => 3 | .faulted => 4 | .cancelling => 5

def Stream.report (x : Stream) : List Byte :=
  leBytes 1 (streamCode x.state) ++ leBytes 1 (b2n x.shadow.isSome) ++ leBytes 2 0 ++ leBytes 4 x.gen ++ leBytes 4 x.doneXfers ++
  leBytes 4 0 ++ leBytes 8 x.watermark

end Sys2Proof.Machine
end

