-- ==== Sys2Proof/Machine/Resilience.lean ====
section
/-! DEFINITION. Resilience: lost peers and the spare policy (R436, R437), committing a step (R439-R441), checkpoints
(R442-R448), restore (R449), mirrored pairs (R450-R454), leases and fencing (R455-R458). -/

namespace Sys2Proof.Machine

/-- SCLK cycles of a millisecond. -/
def msCycles : Nat := 700000

/-! ### Peers (R436, R437) -/

/-- The index of a device in a mapping. -/
def Mapping.indexOf (m : Mapping) (fid : Nat) : Option Nat :=
  let i := m.devs.findIdx fun d => d.fid == fid
  if i < m.devs.length then some i else none

/-- The devices of the mapping from which a collective lacks a READY, DATA or a JOIN. -/
def State.lacking (s : State) (j : Job) (w : Work) (c : CollRun) : List Nat :=
  let v := collViewOf s j w
  let dests := match v with
    | some v => ((v.batches s).map Batch.dest).dedup
    | none => []
  ((participants j w).filter fun f =>
    !c.joinFrom.contains f || (dests.contains f && !c.readyFrom.contains f) ||
    (match v with | some v => v.lacks c f | none => false)).filterMap j.mapping.indexOf

/-- Records the devices that were late in this attempt; a device that was not loses its count. -/
def State.recordLate (s : State) (seq : Nat) : State :=
  match s.work seq with
  | none => s
  | some w =>
    match s.job w.job, w.coll with
    | some j, some c =>
      if !c.started then s
      else
        let ds := s.lacking j w c
        s.modJob w.job fun j =>
          let old := j.late.filter fun l => !ds.contains l.1
          let now := ds.map fun d =>
            match j.late.find? fun l => l.1 == d with
            | some l => (d, if l.2.2 then l.2.1 else l.2.1 + 1, true)
            | none => (d, 1, true)
          { j with late := old.filter (fun l => l.2.2) ++ now }
    | _, _ => s

/-- A new attempt: only devices that were late in the last one keep their count. -/
def Job.turnLate (j : Job) : Job := { j with late := (j.late.filter fun l => l.2.2).map fun l => (l.1, l.2.1, false) }

/-- A collective has completed with its participants: their losses are cleared. -/
def State.clearLoss (s : State) (jn : Nat) (ds : List Nat) : State :=
  s.modJob jn fun j =>
    let lost := j.lost.filter fun d => !ds.contains d
    { j with late := j.late.filter fun l => !ds.contains l.1, lost := lost,
             peerState := if lost.isEmpty then 0 else j.peerState }

/-- No route to the peer has a port that is UP or DEGRADED. -/
def State.unreachable (s : State) (fid : Nat) : Bool := (s.portFor fid).isNone

/-- Since when no route to a device has had a port that is UP or DEGRADED. -/
def State.routeLostAt (s : State) (fid : Nat) : Nat :=
  let r := s.route fid
  max (lookup 0 s.fab.routedAt fid)
    (max (if r.valid then (s.port r.primary).leftAt else 0) (if r.altValid then (s.port r.alt).leftAt else 0))

/-- `LOSS_MS` of the job has passed for a device without a route: SCLK has counted on to that time (R436; DESIGN CHOICE, log 152). -/
def State.lossPasses (s : State) (jn d : Nat) : State :=
  match s.job jn with
  | none => s
  | some j =>
    match j.mapping.devs[d]? with
    | some dev => if s.unreachable dev.fid then s.passTo (s.routeLostAt dev.fid + j.lossMs * msCycles) else s
    | none => s

/-- A peer is lost: it was late in enough consecutive attempts, or it has been without a route for `LOSS_MS`. -/
def State.peerIsLost (s : State) (jn d : Nat) : State :=
  match s.job jn with
  | none => s
  | some j =>
    match j.mapping.devs[d]? with
    | none => s
    | some dev =>
      let often := j.late.any fun l => l.1 == d && decide (j.lossAttempts ≤ l.2.1)
      let cut := s.unreachable dev.fid && decide (s.routeLostAt dev.fid + j.lossMs * msCycles ≤ s.sclk)
      if d = j.mapping.self ∨ j.lost.contains d ∨ !(often || cut) then s
      else
        s.modJob jn fun j =>
          { j with lost := j.lost ++ [d], events := j.events ++ [s.sclk],
                   lostAt := if j.peerState = 0 then s.sclk else j.lostAt,
                   peerState := if j.peerState ≠ 0 then j.peerState else if j.policy = 0 then 2 else 1 }

/-- `WAIT_S` has elapsed since the loss. -/
def State.spareIsDue (s : State) (jn : Nat) : State :=
  s.modJob jn fun j => if j.policy = 2 ∧ j.peerState = 1 then { j with peerState := 2 } else j

def policyStatus (p : List Byte) : Nat :=
  let pol := le p 0 1
  firstBad
    [ (decide (pol ≤ 2) && decide (le p 1 1 ≤ 8) && zeroOr (le p 8 4) 10 60000 &&
        (if pol = 2 then decide (1 ≤ le p 4 4 ∧ le p 4 4 ≤ 86400) else le p 4 4 == 0), St.paramRange) ]

def State.setPolicy (s : State) (jn : Nat) (p : List Byte) : State :=
  s.modJob jn fun j => { j with policy := le p 0 1, lossAttempts := orDefault (le p 1 1) 2, waitS := le p 4 4, lossMs := orDefault (le p 8 4) 1000 }

/-! ### The fence (R456, R457) -/

def State.fenced (s : State) (jn : Nat) : Bool :=
  s.lease.state == 2 || (s.lease.state == 1 && !s.lease.active.getLsbD jn)

/-- The open transfers of every fenced job are aborted. -/
def State.fence (s : State) : State :=
  (List.range 4).foldl (fun s j => if s.fenced j then s.fenceXfers j else s) s

/-! ### State sets (R442-R444) -/

def StateSet.bytes (t : StateSet) : Nat := t.regions.foldl (fun a r => a + r.len) 0

def setRegions (p : List Byte) : List Region := parseRegions (p.drop 48) (le p 0 1)

def StateSet.parse (p : List Byte) : StateSet :=
  { regions := setRegions p, slotA := le p 8 8, slotB := le p 16 8, slotBytes := le p 24 8, tMin := orDefault (le p 32 4) 60,
    tMax := orDefault (le p 36 4) 3600, m0 := orDefault (le p 40 4) 86400, history := orDefault (le p 44 4) 86400, validA := false,
    validB := false, stepA := 0, stepB := 0 }

/-- What neither a state region nor a slot nor a receive area may meet. -/
def State.barred (s : State) (jn : Nat) (j : Job) : List Region :=
  (s.hayAreas jn ++ [j.scratch, ⟨j.ringDa, 32 * j.ringEntries⟩]).filter fun r => r.len != 0

def Pairing.rxArea (q : Pairing) : Region := ⟨q.rxDa, q.rxBytes⟩

def setStatus (s : State) (jn : Nat) (j : Job) (p : List Byte) : Nat :=
  let t := StateSet.parse p
  let slots : List Region := [⟨t.slotA, t.slotBytes⟩, ⟨t.slotB, t.slotBytes⟩]
  let all := t.regions ++ slots
  let rx := match j.pair with | some q => if q.rxBytes = 0 then [] else [q.rxArea] | none => []
  firstBad
    [ (decide (1 ≤ le p 0 1 ∧ le p 0 1 ≤ 16) && decide (1 ≤ t.tMin ∧ t.tMin ≤ 86400) && decide (t.tMin ≤ t.tMax ∧ t.tMax ≤ 604800) &&
        decide (60 ≤ t.m0 ∧ t.m0 ≤ 31536000) && decide (60 ≤ t.history ∧ t.history ≤ 604800), St.paramRange),
      (all.all fun r => r.aligned && r.len != 0, St.paramAlign),
      ((t.regions.all s.inMemory) && slots.all (fun r => s.inDdr r.base r.len), St.paramTarget),
      (all.all fun r => (j.regions.any fun g => g.has r.base r.len) && r.clear (s.barred jn j ++ rx), St.secWindow),
      (apart all, St.resRegionConflict),
      (decide (mib2 + t.bytes ≤ t.slotBytes), St.paramRange),
      (j.checkpoint.isNone && (match j.pair with | some q => q.sending.isNone && q.receiving.isNone | none => true), St.stateJobsActive) ]

/-- The header of a slot or an image (R444). -/
def ckptHeader (s : State) (j : Job) (t : StateSet) (step valid : Nat) : List Byte :=
  leBytes 4 step ++ leBytes 1 valid ++ leBytes 1 t.regions.length ++ leBytes 2 s.sec.fwMajor ++ leBytes 4 j.mapping.tag ++ leBytes 4 0 ++
  leBytes 8 t.bytes ++ leBytes 8 0 ++ (t.regions.flatMap fun r => leBytes 8 r.base ++ leBytes 8 r.len)

/-- The slot's header was written for this set, firmware and tag. -/
def headerMatches (s : State) (j : Job) (t : StateSet) (da : Nat) : Bool :=
  let n := 32 + 16 * t.regions.length
  let h := s.bytes da n
  h.drop 4 == (ckptHeader s j t 0 1).drop 4

/-- Both slots are marked invalid, in their headers too. -/
def State.setState (s : State) (jn : Nat) (p : List Byte) : State :=
  let t := StateSet.parse p
  ((s.write (t.slotA + 4) [0#8]).write (t.slotB + 4) [0#8]).modJob jn fun j => { j with stateSet := some t }

/-! ### Checkpoints (R445-R448) -/

/-- The places of the state regions in a slot or an image: address of the region, offset in the slot, length. -/
def placesFrom : Nat → List Region → List (Nat × Nat × Nat)
  | _, [] => []
  | o, r :: rest => (r.base, o, r.len) :: placesFrom (o + r.len) rest

def StateSet.places (t : StateSet) : List (Nat × Nat × Nat) := placesFrom mib2 t.regions

/-- 1 A, 2 B, 0 none: the newest valid slot. -/
def StateSet.newest (t : StateSet) : Nat :=
  match t.validA, t.validB with
  | true, true => if t.stepB ≤ t.stepA then 1 else 2
  | true, false => 1
  | false, true => 2
  | false, false => 0

def StateSet.slotDa (t : StateSet) (b : Bool) : Nat := if b then t.slotB else t.slotA

/-- The parts of 2 MiB that a copy reads, from the state regions or from an image that starts at `img`, with their destinations
behind `dst`. -/
def StateSet.parts (t : StateSet) (img : Option Nat) (dst : Nat) : List (Nat × Nat × Nat) :=
  t.places.flatMap fun p =>
    let src := match img with | some a => a + p.2.1 | none => p.1
    (List.range (p.2.2 / mib2)).map fun i => (src + mib2 * i, dst + p.2.1 + mib2 * i, mib2)

/-- Starts a checkpoint of a step into the slot that does not hold the newest valid one. -/
def State.startCkpt (s : State) (jn step : Nat) (img : Option Nat) : State :=
  match s.job jn with
  | none => s
  | some j =>
    match j.stateSet with
    | none => s
    | some t =>
      let b := t.newest == 1
      let da := t.slotDa b
      let s := s.write da (List.replicate mib2 0#8)
      s.modJob jn fun j =>
        { j with
          stateSet := some (if b then { t with validB := false } else { t with validA := false })
          checkpoint := some { seq := 0, target := b2n b, step := step, started := s.sclk, poison := none, left := t.parts img da }
          lastCkptStart := s.sclk }

/-- Every write of the copy is acknowledged: the header makes the slot valid, unless the copy met poison. -/
def State.endCkpt (s : State) (jn : Nat) (j : Job) (c : Copy) (t : StateSet) : State :=
  let b := c.target == 1
  let s := if c.poison.isSome then s else s.write (t.slotDa b) (ckptHeader s j t c.step 1)
  s.modJob jn fun j =>
    { j with
      checkpoint := none
      ckptCosts := if c.poison.isSome then j.ckptCosts else (j.ckptCosts ++ [s.sclk - c.started]).drop (j.ckptCosts.length - 3)
      stateSet := some (if c.poison.isSome then t
        else if b then { t with validB := true, stepB := c.step } else { t with validA := true, stepA := c.step }) }

/-- The copy has read what no write has asked for before, and its writes are acknowledged. -/
def State.ckptComplete (s : State) (jn : Nat) : State :=
  let s := s.ckptReads jn fun _ => true
  match s.job jn with
  | none => s
  | some j =>
    match j.checkpoint, j.stateSet with
    | some c, some t => s.endCkpt jn j c t
    | _, _ => s

/-- C of R446 in SCLK cycles. -/
def State.ckptCost (s : State) (j : Job) (t : StateSet) : Nat :=
  if j.ckptCosts.isEmpty then t.bytes * sclkSecond / (64 * 10 ^ 9 * max 1 s.memInfo.channels)
  else (j.ckptCosts.foldl (· + ·) 0) / j.ckptCosts.length

/-- k of R446. -/
def State.eventCount (s : State) (j : Job) (window : Nat) : Nat :=
  (j.events.filter fun e => decide (s.sclk < e + window * sclkSecond)).length

/-- M of R446 in SCLK cycles. -/
def State.mtbf (s : State) (j : Job) (t : StateSet) : Nat :=
  t.m0 * t.history * sclkSecond / (t.history + s.eventCount j t.history * t.m0)

/-- T of R446 in SCLK cycles (C, M and T rounded down to whole cycles: DESIGN CHOICE, log 34). -/
def State.interval (s : State) (j : Job) (t : StateSet) : Nat :=
  min (t.tMax * sclkSecond) (max (t.tMin * sclkSecond) (Nat.sqrt (2 * s.ckptCost j t * s.mtbf j t)))

/-- The decision of R446. -/
def State.ckptDue (s : State) (j : Job) (t : StateSet) (force skip : Bool) : Bool :=
  j.checkpoint.isNone &&
  (t.newest == 0 || force || (!skip && decide (j.lastCkptStart + s.interval j t ≤ s.sclk)))

/-! ### Pairs: packets and images (R450-R452) -/

def cidMirror : Nat := 0xFFFF_FFF0
def cidHello : Nat := 0xFFFF_FFFE
def cidBeat : Nat := 0xFFFF_FFFF

def pairPacket (s : State) (j : Job) (dest kind cid step : Nat) (payload : List Byte) : FabPacket :=
  { dest := BitVec.ofNat 12 dest, src := BitVec.ofNat 12 s.fab.fid, tag := BitVec.ofNat 32 j.mapping.tag, pkind := BitVec.ofNat 8 kind,
    format := 0#8, collId := BitVec.ofNat 32 cid, step := BitVec.ofNat 32 step, attempt := 0#16, epoch := 0#16, unit := 0#32,
    offset := 0#32, poison := 0#128, payload := payload }

/-- What a hello carries; the layout of its payload is the model's (DESIGN CHOICE, log 35). -/
def helloBytes (s : State) (secondary : Bool) (t : StateSet) : List Byte :=
  leBytes 1 (b2n secondary) ++ leBytes 1 s.sec.feedId ++ leBytes 2 s.sec.fwMajor ++ leBytes 4 t.regions.length ++
  (t.regions.flatMap fun r => leBytes 8 r.len)

def imageBytes (t : StateSet) : Nat := mib2 + t.bytes
def Pairing.imageDa (q : Pairing) (t : StateSet) (i : Nat) : Nat := q.rxDa + i * imageBytes t

/-- The image with the newest valid step. -/
def Pairing.newestImage (q : Pairing) : Option (Nat × Nat) :=
  match (q.imageStep[0]?).join, (q.imageStep[1]?).join with
  | some a, some b => if b ≤ a then some (0, a) else some (1, b)
  | some a, none => some (0, a)
  | none, some b => some (1, b)
  | none, none => none

/-- The DATA packets of pieces of a copy, 4096 bytes each. -/
def piecePackets (s : State) (j : Job) (dest step : Nat) (ps : List (Nat × List Byte × Nat)) : List FabPacket :=
  ps.map fun e => { pairPacket s j dest pkDATA cidMirror step e.2.1 with
    offset := BitVec.ofNat 32 ((e.1 - mib2) / 32), poison := BitVec.ofNat 128 e.2.2 }

/-- The DATA packets of a whole image, in the order of the set. -/
def copyPackets (s : State) (j : Job) (t : StateSet) (img : Nat) (dest step : Nat) : List FabPacket :=
  piecePackets s j dest step ((t.parts (some img) 0).flatMap s.mirrorPieces)

/-- The partner is ready for the copy: what has not been read is read, the copy goes out, and the closing JOIN says whether the commit
started a checkpoint. -/
def State.mirrorGoes (s : State) (jn : Nat) : State :=
  let s := s.mirrorReads jn fun _ => true
  match s.job jn with
  | none => s
  | some j =>
    match j.pair with
    | none => s
    | some q =>
      match q.sending with
      | none => s
      | some c =>
        let s := s.sendPackets (piecePackets s j q.partner c.step q.outbox)
        let s := s.sendPacket (pairPacket s j q.partner pkJOIN cidMirror c.step (leBytes 1 c.target))
        s.modJob jn fun j => { j with pair := some { q with outbox := [], gone := true, ready := false } }

/-- A mirror copy of the state set as it stands starts; `target` of the copy says whether the commit starts a checkpoint. It goes out
when the partner is ready for it (R323, R332, R451). -/
def State.startMirror (s : State) (jn step : Nat) (mark : Bool) : State :=
  match s.job jn with
  | none => s
  | some j =>
    match j.pair, j.stateSet with
    | some q, some t =>
      let c : Copy := { seq := 0, target := b2n mark, step := step, started := s.sclk, poison := none, left := t.parts none 0 }
      let s := s.modJob jn fun j => { j with pair := some { q with sending := some c, outbox := [], gone := false } }
      if q.ready then s.mirrorGoes jn else s
    | _, _ => s

/-- READY of the secondary: it holds the copy that has gone out as a valid image, and is ready for the next one. -/
def State.partnerReady (s : State) (jn : Nat) (q : Pairing) : State :=
  match q.sending with
  | none => s.modJob jn fun j => { j with pair := some { q with ready := true } }
  | some c =>
    if q.gone then s.modJob jn fun j => { j with pair := some { q with ready := true, sending := none, gone := false, sentStep := c.step } }
    else s.mirrorGoes jn

/-- A secondary tells its partner that it is ready for a copy. -/
def State.tellReady (s : State) (jn : Nat) : State :=
  match s.job jn with
  | none => s
  | some j =>
    match j.pair with
    | some q => if q.secondary then s.sendPacket (pairPacket s j q.partner pkREADY cidMirror 0 []) else s
    | none => s

/-- A mirror copy has not become a valid image yet, and the partner is there. -/
def Pairing.copying (q : Pairing) : Bool := !q.secondary && q.state == 1 && q.sending.isSome

/-! ### STEP_COMMIT (R439, R440) -/

def commitStatus (p : List Byte) : Nat := firstBad [(!(bit (le p 4 1) 0 && bit (le p 4 1) 1), St.paramRange)]

def commitReply (step outcome interval cost mtbf since : Nat) : List Byte :=
  leBytes 4 step ++ leBytes 1 outcome ++ leBytes 3 0 ++ leBytes 4 interval ++ leBytes 4 cost ++ leBytes 4 mtbf ++ leBytes 4 since ++ leBytes 8 0

/-- The mirror copy of the commit before is not complete: since a copy starts only then and the image lags by at most one step, the next
commit of a PAIRED primary waits for it (R451; DEDUCED, log 35). -/
def Job.copying (j : Job) : Bool := match j.pair with | some q => q.copying | none => false

/-- The step is committed; the decision of R446 and the pair's copy follow. -/
def State.commitStep (s : State) (w : Work) (j : Job) : State :=
  let n := le w.params 0 4
  let fl := le w.params 4 1
  let due := match j.stateSet with | some t => s.ckptDue j t (bit fl 0) (bit fl 1) | none => false
  let lone := match j.pair with | some q => !q.secondary && q.state == 2 | none => false
  let copy := match j.pair with | some q => !q.secondary && q.state == 1 | none => false
  let (iv, c, m) := match j.stateSet with
    | some t => (s.interval j t / msCycles, s.ckptCost j t / msCycles, s.mtbf j t / sclkSecond)
    | none => (0, 0, 0)
  let since := (s.sclk - j.lastCkptStart) / msCycles
  let s := s.modJob w.job fun j => { j with committed := n, intervalMs := iv, costMs := c, mtbfS := m }
  let s := if copy then s.startMirror w.job n due else s
  let s := if due then s.startCkpt w.job n none else s
  s.finish w.seq St.done (commitReply n (b2n due + 2 * b2n copy + 4 * b2n lone) iv c m since)

def State.commitTake (s : State) (seq : Nat) : State :=
  match s.work seq with
  | none => s
  | some w =>
    match s.job w.job with
    | none => s
    | some j =>
      if w.opcode ≠ opcSTEP_COMMIT ∨ !s.jobClear seq ∨ !s.atHead seq ∨ j.copying then s
      else
        if s.fenced w.job then s.finish seq St.stateFenced []
        else if le w.params 0 4 ≠ j.step then s.finish seq St.paramRange []
        else if !j.bad.isEmpty then s.finish seq St.statePredFailed []
        else s.commitStep w j

/-! ### Freeing haylofts and gradient sets (R274, R449, R454) -/

def State.freeStep (s : State) (jn : Nat) : State :=
  (s.ctxsOf jn).foldl (fun s c => s.modCtx c fun k => { k with hay := [], pushes := 0, pushSince := none, popSince := none }) (s.closeSets jn)

/-! ### RESTORE (R449) -/

/-- The slot that a source names: 0 A, 1 B. -/
def restoreSlot (t : StateSet) (src : Nat) : Option Nat :=
  match src with
  | 0 => match t.newest with | 1 => some 0 | 2 => some 1 | _ => none
  | 1 => if t.validA then some 0 else none
  | 2 => if t.validB then some 1 else none
  | _ => none

def restoreStatus (s : State) (jn : Nat) (j : Job) (p : List Byte) : Nat :=
  let src := le p 0 1
  firstBad
    [ (decide (src ≤ 3), St.paramRange),
      (!(s.works.any fun w => w.job == jn), St.stateJobsActive),
      (match j.stateSet with
       | none => false
       | some t =>
         if src = 3 then j.pair.isSome
         else match restoreSlot t src with
           | some b => headerMatches s j t (t.slotDa (b == 1))
           | none => false, St.paramRange) ]

/-- A restore begins; from the partner it asks with a READY (DESIGN CHOICE, log 35). -/
def State.startRestore (s : State) (jn seq : Nat) (p : List Byte) : State :=
  match s.job jn with
  | none => s
  | some j =>
    match j.stateSet with
    | none => s
    | some t =>
      let src := le p 0 1
      let (tgt, step) := match restoreSlot t src with
        | some 0 => (0, t.stepA)
        | some _ => (1, t.stepB)
        | none => (3, 0)
      let s := (s.restrict 3).startEntry seq
      let s := s.modJob jn fun j =>
        { j with restore := some { seq := seq, target := tgt, step := step, started := s.sclk, poison := none, left := [] },
                 pair := j.pair.map fun q => { q with got := if tgt = 3 then [] else q.got } }
      match (if tgt = 3 then j.pair else none) with
      | some q => s.sendPacket (pairPacket s j q.partner pkREADY cidMirror 0 [])
      | none => s

/-- The partner's image has arrived whole. -/
def gotAll (t : StateSet) (got : List Nat) : Bool := decide (t.bytes / 4096 ≤ got.length)

/-- The source of a restore is whole: a slot is, and an image of the partner when all of it has arrived. -/
def restoreWhole (j : Job) (c : Copy) (t : StateSet) : Bool :=
  c.target != 3 || (match j.pair with | some q => gotAll t q.got | none => false)

/-- Copies over a state region, of which a running copy reads its part first (R445). -/
def State.copyOver (s : State) (jn src dst len : Nat) : State := (s.copyBefore jn dst len).copyRange src dst len

/-- The restore ends. A poisoned source unit, or a retired unit in a state region, ends it with `INT_POISON`. -/
def State.endRestore (s : State) (jn : Nat) (c : Copy) (t : StateSet) : State :=
  let partner := c.target == 3
  let slot := t.slotDa (c.target == 1)
  let bad := c.poison.isSome || t.places.any fun p =>
    (if partner then false else (s.firstPoison (slot + p.2.1) p.2.2).isSome) || (List.range p.2.2).any fun i => s.retiredAt (p.1 + i)
  let s := if partner then s else t.places.foldl (fun s p => s.copyOver jn (slot + p.2.1) p.1 p.2.2) s
  let reply := leBytes 4 c.step ++ leBytes 4 0 ++ leBytes 8 t.bytes
  if bad then (s.modJob jn fun j => { j with restore := none }).unrestrict.finish c.seq St.intPoison reply
  else
    let s := s.freeStep jn
    (s.modJob jn fun j =>
      { j with restore := none, committed := c.step, touched := false, poisonState := false, events := j.events ++ [s.sclk] }).unrestrict.finish
        c.seq St.done reply

def State.restoreEnds (s : State) (jn : Nat) : State :=
  match s.job jn with
  | none => s
  | some j =>
    match j.restore, j.stateSet with
    | some c, some t => if restoreWhole j c t then s.endRestore jn c t else s
    | _, _ => s

/-! ### MIRROR_PAIR and MIRROR_UNPAIR (R450) -/

def pairStatus (s : State) (jn : Nat) (j : Job) (p : List Byte) : Nat :=
  let sec := le p 2 1 == 1
  let rx : Region := ⟨le p 8 8, le p 16 8⟩
  match j.stateSet with
  | none => St.paramRange
  | some t =>
    let slots : List Region := [⟨t.slotA, t.slotBytes⟩, ⟨t.slotB, t.slotBytes⟩]
    firstBad
      [ (decide (le p 2 1 ≤ 1) && zeroOr (le p 4 2) 10 1000 && zeroOr (le p 6 2) 100 10000 && s.fab.fid != 0xFFF &&
          (sec || (rx.base == 0 && rx.len == 0)) && (!sec || decide (2 * imageBytes t ≤ rx.len)), St.paramRange),
        (!sec || (rx.aligned && rx.len != 0), St.paramAlign),
        (!sec || s.inDdr rx.base rx.len, St.paramTarget),
        (!sec || ((j.regions.any fun g => g.has rx.base rx.len) && rx.clear (s.barred jn j)), St.secWindow),
        (!sec || rx.clear (t.regions ++ slots), St.resRegionConflict),
        (j.checkpoint.isNone && (match j.pair with | some q => q.sending.isNone && q.receiving.isNone | none => true), St.stateJobsActive) ]

/-- Why a pair is refused, 0 when it is not. -/
def pairReason (s : State) (q : Pairing) (t : StateSet) (b : List Byte) : Nat :=
  let feed := le b 1 1
  let lens := (List.range (le b 4 4)).map fun i => le b (8 + 8 * i) 8
  if !q.override ∧ feed = s.sec.feedId ∧ feed ≠ 0 then 1
  else if !q.override ∧ (feed = 0 ∨ s.sec.feedId = 0) then 2
  else if lens ≠ t.regions.map Region.len then 3
  else if le b 2 2 ≠ s.sec.fwMajor then 4
  else if (le b 0 1 == 1) = q.secondary then 5
  else 0

def pairReply (reason feed covered : Nat) : List Byte := leBytes 1 reason ++ leBytes 1 feed ++ leBytes 1 covered ++ leBytes 5 0

/-- Conditions of R459 that the device observes. -/
def State.pairCovered (s : State) (j : Job) (q : Pairing) : Bool :=
  let t := (j.stateSet.map StateSet.regions).getD [] ++ (if q.rxBytes = 0 then [] else [q.rxArea])
  !q.override && q.partnerFeed != s.sec.feedId && q.partnerFeed != 0 && s.sec.feedId != 0 && decide (q.timeoutMs ≤ 20) &&
  decide (s.lease.durationMs ≤ 100) && s.lease.state == 1 && decide (s.sclk ≤ s.lease.nonceAt + 25 * msCycles) &&
  (q.secondary || decide (j.committed ≤ q.sentStep + 1)) && s.life.tileRows.isEmpty &&
  decide (((j.stateSet.map StateSet.bytes).getD 0) ≤ 16 * 2 ^ 30) && !(s.retired.any fun e => t.any fun r => r.has e.1 1)

/-- The partner's hello has arrived for a job that has sent its own. -/
def State.helloDecides (s : State) (jn : Nat) (b : List Byte) : State :=
  match s.job jn with
  | none => s
  | some j =>
    match j.pair, j.stateSet with
    | some q, some t =>
      if q.state ≠ 0 then s
      else
        let r := pairReason s q t b
        let feed := le b 1 1
        if r ≠ 0 then
          (s.modJob jn fun j => { j with pair := none }).finish q.pairSeq St.paramRange (pairReply r feed 0)
        else
          let q := { q with state := 1, partnerFeed := feed }
          let q := { q with covered := s.pairCovered j q }
          ((s.modJob jn fun j => { j with pair := some q }).tellReady jn).finish q.pairSeq St.done (pairReply 0 feed (b2n q.covered))
    | _, _ => s

/-- `MIRROR_UNPAIR`; a `MIRROR_PAIR` that still waits for the partner's hello ends with `PARTIAL` (DESIGN CHOICE, log 131). -/
def State.unpair (s : State) (jn : Nat) : State :=
  let s := match (s.job jn).bind Job.pair with
    | some q => if q.state = 0 then s.finish q.pairSeq St.partEnd (pairReply 0 0 0) else s
    | none => s
  s.modJob jn fun j => { j with pair := none }

/-- The pairing that `MIRROR_PAIR` asks for. -/
def Pairing.asked (seq : Nat) (p : List Byte) : Pairing :=
  { partner := le p 0 2 % 4096, secondary := le p 2 1 == 1, override := bit (le p 3 1) 0, timeoutMs := orDefault (le p 4 2) 50,
    heartbeatUs := orDefault (le p 6 2) 1000, rxDa := le p 8 8, rxBytes := le p 16 8, state := 0, partnerFeed := 0, covered := false,
    imageStep := [none, none], receiving := none, applying := false, applied := false, applyAt := 0, got := [], mark := false,
    sending := none, outbox := [], gone := false, ready := false, sentStep := 0, pairSeq := seq }

/-- `MIRROR_PAIR`: it takes the place of an earlier pair of the job, and the hello goes out. -/
def State.startPair (s : State) (jn seq : Nat) (p : List Byte) : State :=
  match s.job jn with
  | none => s
  | some j =>
    match j.stateSet with
    | none => s
    | some t =>
      let sec := le p 2 1 == 1
      let q := Pairing.asked seq p
      let s := (s.unpair jn).startEntry seq
      let s := if sec then (s.write (q.imageDa t 0 + 4) [0#8]).write (q.imageDa t 1 + 4) [0#8] else s
      let hello (k : FabPacket) : Bool := k.collId.toNat == cidHello && k.src.toNat == q.partner
      let early := j.early.find? hello
      let s := s.modJob jn fun j => { j with pair := some q, early := j.early.filter fun k => !hello k }
      let s := s.sendPacket (pairPacket s j q.partner pkJOIN cidHello 0 (helloBytes s sec t))
      match early with
      | some k => s.helloDecides jn k.payload
      | none => s

/-- 10 s have passed without both hellos. -/
def State.pairLate (s : State) (jn : Nat) : State :=
  match (s.job jn).bind Job.pair with
  | some q => if q.state = 0 then (s.modJob jn fun j => { j with pair := none }).finish q.pairSeq St.intPeerLate (pairReply 0 0 0) else s
  | none => s

/-! ### Packets of a pair (R313, R451, R452) -/

def isPairPacket (k : FabPacket) : Bool := decide (cidMirror ≤ k.collId.toNat)

/-- A packet of the partner ends a late spell of the pair (R452). -/
def State.pairHeard (s : State) (jn : Nat) (k : FabPacket) : State :=
  s.modJob jn fun j =>
    { j with pair := j.pair.map fun q => if q.state = 2 ∧ q.partner = k.src.toNat then { q with state := 1 } else q }

/-- A packet of the pair: checked against the tag alone; the pair is PAIRED again. -/
def State.pairReceive (s : State) (k : FabPacket) (f : State → Nat → Job → State) : State :=
  if s.fab.fid = 0xFFF then s.dropped
  else if k.dest.toNat ≠ s.fab.fid then s.forward k
  else match s.jobOfTag k.tag.toNat with
    | none => s.dropped
    | some jn =>
      let s := s.pairHeard jn k
      match s.job jn with
      | some j => f s jn j
      | none => s

/-- The place of a mirror packet's payload in the copy: the offset of its first byte behind the header area. -/
def copyOffset (k : FabPacket) : Nat := 32 * k.offset.toNat

/-- Stores a payload; a poisoned piece is written as zeros, and the units within it are marked. -/
def State.storePieces (s : State) (k : FabPacket) (da : Nat) : State :=
  let s := s.write da k.payload
  (List.range (k.payload.length / 32)).foldl (fun s i =>
    if k.poison.getLsbD i then (s.mark (unitOf (da + 32 * i))).poisonSeen (da + 32 * i) else s) s

/-- Address of an offset of the copy in the state regions. -/
def StateSet.regionDa (t : StateSet) (off : Nat) : Option Nat :=
  t.places.findSome? fun p => if p.2.1 - mib2 ≤ off ∧ off < p.2.1 - mib2 + p.2.2 then some (p.1 + (off - (p.2.1 - mib2))) else none

/-- Data of a mirror copy: into the image that does not hold the newest valid step, or into the state regions of a device
that restores from its partner. -/
def State.copyArrives (s : State) (k : FabPacket) (jn : Nat) (j : Job) : State :=
    let s := s.sendPacket (packetAck k)
    match j.pair, j.stateSet with
    | some q, some t =>
      let off := copyOffset k
      if k.src.toNat ≠ q.partner ∨ t.bytes < off + k.payload.length then s
      else match j.restore with
        | some c =>
          if c.target ≠ 3 then s
          else match t.regionDa off with
            | none => s
            | some da =>
              ((s.copyBefore jn da k.payload.length).storePieces k da).modJob jn fun j =>
                { j with restore := some { c with step := k.step.toNat, poison := if c.poison.isNone ∧ k.poison ≠ 0#128 then some da else c.poison }
                         pair := some { q with got := if q.got.contains off then q.got else off :: q.got } }
        | none =>
          let step := k.step.toNat
          if !q.secondary then s
          else
            let old := match q.receiving with | some (_, st) => older 32 step st | none => false
            if old then s
            else
              let (img, got) := match q.receiving with
                | some (i, st) => if st = step then (i, q.got) else (i, [])
                | none => ((match q.newestImage with | some (0, _) => 1 | _ => 0), [])
              let s := if got.isEmpty then s.write (q.imageDa t img) (List.replicate mib2 0#8) else s
              let a := q.imageDa t img + mib2 + off
              let s := (s.copyBefore jn a k.payload.length).storePieces k a
              s.modJob jn fun j =>
                { j with pair := some { q with receiving := some (img, step), got := if got.contains off then got else off :: got,
                                               imageStep := if got.isEmpty then q.imageStep.set img none else q.imageStep } }
    | _, _ => s

def State.mirrorData (s : State) (k : FabPacket) : State := s.pairReceive k fun s jn j => s.copyArrives k jn j

/-- READY of the partner: a primary sends its copy (R451), a secondary the newest valid image to a partner that restores (R449). -/
def State.imageAsked (s : State) (k : FabPacket) (jn : Nat) (j : Job) : State :=
  match j.pair, j.stateSet with
  | some q, some t =>
    if k.src.toNat ≠ q.partner then s
    else if !q.secondary then s.partnerReady jn q
    else
      (match q.newestImage with
       | some (i, step) => s.sendPackets (copyPackets s j t (q.imageDa t i) q.partner step)
       | none => s)
  | _, _ => s

def State.mirrorAsked (s : State) (k : FabPacket) : State := s.pairReceive k fun s jn j => s.imageAsked k jn j

/-- JOIN of a pair: the end of a copy, a hello, or a heartbeat. -/
def State.pairGreets (s : State) (k : FabPacket) (jn : Nat) (j : Job) : State :=
  if k.collId.toNat = cidHello then
    (match j.pair with
     | some q =>
       if k.src.toNat = q.partner then s.helloDecides jn k.payload else s
     | none => s.modJob jn fun j => { j with early := j.early ++ [k] })
  else if k.collId.toNat = cidMirror then
    s.modJob jn fun j => { j with pair := j.pair.map fun q => if k.src.toNat = q.partner then { q with mark := le k.payload 0 1 == 1 } else q }
  else s

def State.pairJoin (s : State) (k : FabPacket) : State := s.pairReceive k fun s jn j => s.pairGreets k jn j

/-- The acknowledgement of a mirror packet. -/
def State.mirrorAck (s : State) (k : FabPacket) : State := s.pairReceive k fun s _ _ => s.released k

/-- The image is valid. -/
def State.keepImage (s : State) (jn : Nat) (j : Job) (q : Pairing) (t : StateSet) (i step : Nat) : State :=
  let s := s.write (q.imageDa t i) (ckptHeader s j t step 1)
  let s := s.modJob jn fun j =>
    { j with pair := some { q with imageStep := q.imageStep.set i (some step), receiving := none, got := [], applied := false,
                                   mark := false } }
  let s := s.tellReady jn
  if q.mark && j.checkpoint.isNone then s.startCkpt jn step (some (q.imageDa t i)) else s

/-- A mirror image is fully received: the secondary writes its VALID, and checkpoints the image when the copy is marked. -/
def State.imageReceived (s : State) (jn : Nat) : State :=
  match s.job jn with
  | none => s
  | some j =>
    match j.pair, j.stateSet with
    | some q, some t =>
      (match q.receiving with
       | some (i, step) => if gotAll t q.got then s.keepImage jn j q t i step else s
       | none => s)
    | _, _ => s

/-- A secondary begins to apply its newest valid image. -/
def State.beginApply (s : State) (jn : Nat) : State :=
  s.modJob jn fun j => { j with pair := j.pair.map fun q =>
    if q.secondary && q.newestImage.isSome && !q.applied && !q.applying then { q with applying := true, applyAt := s.sclk } else q }

/-- `PAIR_TIMEOUT_MS` without a packet of the pair (R452). -/
def State.pairTimesOut (s : State) (jn : Nat) : State :=
  match (s.job jn).bind Job.pair with
  | some q =>
    if q.state ≠ 1 then s
    else
      (s.modJob jn fun j => { j with pair := some { q with state := 2, sending := none, outbox := [], gone := false }, events := j.events ++ [s.sclk] }).beginApply jn
  | none => s

def State.heartbeat (s : State) (jn : Nat) : State :=
  match s.job jn with
  | none => s
  | some j =>
    match j.pair with
    | some q => if q.state = 0 then s else s.sendPacket (pairPacket s j q.partner pkJOIN cidBeat 0 [])
    | none => s

/-! ### FAILOVER (R454) -/

def failoverStatus (j : Job) : Nat :=
  firstBad [((match j.pair with | some q => q.secondary && q.state != 0 && q.newestImage.isSome | none => false), St.paramRange)]

/-- The failover is done: the job goes on from the image's step. -/
def State.failoverEnds (s : State) (jn seq us : Nat) : State :=
  match (s.job jn).bind Job.pair with
  | none => s
  | some q =>
    let step := match q.newestImage with | some (_, n) => n | none => 0
    let s := s.freeStep jn
    (s.modJob jn fun j => { j with committed := step, pair := none, events := j.events ++ [s.sclk] }).finish seq St.done (leBytes 4 step ++ leBytes 4 us)

def State.startFailover (s : State) (jn seq : Nat) : State :=
  let s := s.startEntry seq
  match (s.job jn).bind Job.pair with
  | some q => if q.applied then s.failoverEnds jn seq 0 else s.beginApply jn
  | none => s

/-- The image lies in the state regions. -/
def State.useImage (s : State) (jn : Nat) (q : Pairing) (t : StateSet) (i : Nat) : State :=
  let s := t.places.foldl (fun s p => s.copyOver jn (q.imageDa t i + p.2.1) p.1 p.2.2) s
  let us := (s.sclk - q.applyAt) / 700
  let s := s.modJob jn fun j => { j with pair := some { q with applying := false, applied := true } }
  match s.works.find? fun w => w.job == jn && w.opcode == 0x0706 with
  | some w => s.failoverEnds jn w.seq (sat32 us)
  | none => s

/-- A secondary has applied its newest valid image; a failover that waits on it completes. -/
def State.imageApplied (s : State) (jn : Nat) : State :=
  match s.job jn with
  | none => s
  | some j =>
    match j.pair, j.stateSet with
    | some q, some t =>
      (match (if q.applying then q.newestImage else none) with
       | some (i, _) => s.useImage jn q t i
       | none => s)
    | _, _ => s

/-! ### Leases (R455, R456) -/

def leaseStatus (s : State) (p : List Byte) : Nat :=
  let first := bit (le p 13 1) 0
  let d := le p 8 4
  firstBad
    [ (if first then le p 0 8 == 0 && d == 0 && le p 12 1 == 0 else decide (1 ≤ d ∧ d ≤ 10000), St.paramRange),
      (if first then s.lease.state != 1 else s.lease.state != 0 && le p 0 8 == s.lease.nonce.toNat, St.paramRange) ]

/-- Grants a lease; the reply carries the new nonce. A grant before the first one has no nonce to name (DEDUCED, log 36). -/
def State.grant (s : State) (p : List Byte) : State × List Byte :=
  let L := s.lease
  let first := bit (le p 13 1) 0
  let expiry := L.nonceAt + le p 8 4 * msCycles
  let held := !first && decide (s.sclk < expiry)
  let n := (L.grants + 1) % 2 ^ 48
  let nonce := min 65535 s.otp.coldBoots * 2 ^ 48 + n
  let L := { L with
    state := if held then 1 else 2
    nonce := BitVec.ofNat 64 nonce
    nonceAt := s.sclk
    expiry := if first then 0 else expiry
    active := BitVec.ofNat 4 (le p 12 1)
    durationMs := le p 8 4
    grants := n
    lapses := if L.state = 1 ∧ !held then sat32 (L.lapses + 1) else L.lapses }
  ({ s with lease := L }.fence, leBytes 8 nonce ++ leBytes 4 (if held then (expiry - s.sclk) / msCycles else 0) ++ leBytes 4 0)

/-- The expiry passes. -/
def State.leaseLapses (s : State) : State :=
  if s.lease.state ≠ 1 then s
  else { s with lease := { s.lease with state := 2, lapses := sat32 (s.lease.lapses + 1) } }.fence

/-! ### Entries of collectives and attempts, with the peers they concern -/

/-- `STEP_BEGIN` takes effect: an attempt that failed counts as a disruptive event, and the new one begins to count late
peers (R436, R441). -/
def State.beginAttempt (s : State) (w : Work) (j : Job) (seq : Nat) : State :=
  let failed := j.aborted || j.bad.any fun q => seqBefore q seq
  ((s.newAttempt w j seq).earlyAbort w.job).modJob w.job fun j =>
    { j.turnLate with events := if failed then j.events ++ [s.sclk] else j.events }

def State.stepTake (s : State) (seq : Nat) : State :=
  match s.work seq with
  | none => s
  | some w =>
    match s.job w.job with
    | none => s
    | some j =>
      if w.opcode ≠ opcSTEP_BEGIN ∨ !s.jobClear seq ∨ !s.atHead seq then s else s.beginAttempt w j seq

def State.peerTimeout (s : State) (seq : Nat) : State := (s.recordLate seq).peerLate seq

/-- A collective completes; the losses of its participants are cleared. -/
def State.collTake (s : State) (seq : Nat) : State :=
  match s.work seq with
  | none => s
  | some w =>
    match s.job w.job with
    | none => s
    | some j =>
      match w.coll, collViewOf s j w with
      | some c, some v =>
        if c.complete w j v then (s.resultColl w j c v).clearLoss w.job ((participants j w).filterMap j.mapping.indexOf) else s
      | _, _ => s

end Sys2Proof.Machine
end

