-- ==== Sys2Proof/Machine/CollIssue.lean ====
section
/-! DEFINITION. The checks at issue of collectives (R321, R326, R334) and of `GRAD_NORM` (R297). -/

namespace Sys2Proof.Machine

/-- The parts and units of a descriptor (check 6 of R196). -/
def Tensor.partsOk (t : Tensor) : Bool :=
  (List.range t.ndim).all fun q => decide (1 ≤ t.part q ∧ t.part q ≤ 1024) && decide ((t.units[q]?).getD 0 ≤ 3)

/-- `SCALE_KIND` is listed (check 2 of R196), and names scale factors on FP8 and INT8 alone (R182, check 4). -/
def Tensor.scaleCodeOk (t : Tensor) : Bool := decide (t.scaleKind ≤ 2)
def Tensor.scaleFormatOk (t : Tensor) : Bool := t.scaleKind == 0 || t.fmtIs fun f => f.isFp8 || f == .int8

/-- The unit rule and the stride rule of an MX descriptor (R182, checks 6 and 8). -/
def Tensor.mxUnitOk (t : Tensor) : Bool :=
  !(t.fmtIs Fmt.isMx) || t.isMask || (t.units[t.ndim - 1]?).getD 0 == 1 || (t.units[t.ndim - 1]?).getD 0 == 3
def Tensor.mxStridesOk (t : Tensor) : Bool :=
  !(t.fmtIs Fmt.isMx) || (t.stride (t.ndim - 1) == 1 && ((List.range (t.ndim - 1)).all fun q => t.stride q % 32 == 0))

/-- A descriptor of a collective as this device holds it; the X of a REDUCE by its leaves. -/
def CollDesc.helds (d : CollDesc) (m mx : Mapping) : List (Option Held) :=
  d.ops.zipIdx.map fun p =>
    if d.kind = 1 ∧ p.2 = 0 then p.1.leafHeld m m.selfDev
    else if p.2 = 0 ∧ d.kind = 3 then heldIn p.1 mx m.selfDev.fid
    else p.1.held m

def redFmt (f : Fmt) : Bool := f == .fp32 || f == .fp32x || f == .bf16 || f == .fp16

/-- Formats of a kind (R321 check 2, R325, R330). -/
def CollDesc.formatsOk (d : CollDesc) : Bool :=
  (d.ops.all fun t => t.fmtIs fun f => !f.isMx) &&
  (match d.kind, d.ops with
   | 1, [x, y] => x.fmtIs redFmt && y.fmtIs redFmt
   | 2, [x, y] | 3, [x, y] => x.format == y.format
   | _, _ => true)

/-- Shapes of a kind (R325, R330). -/
def CollDesc.shapesOk (d : CollDesc) : Bool :=
  match d.kind, d.ops with
  | 1, [x, y] =>
    x.ndim == y.ndim + 1 && x.extent 0 == 1024 && x.part 0 == 1024 && (x.units[0]?).getD 0 == 0 && x.extents.drop 1 == y.extents &&
    ((x.parts.drop 1).all (· == 1) || (x.parts.drop 1 == y.parts && x.units.drop 1 == y.units))
  | 2, [x, y] => x.ndim == y.ndim && x.extents == y.extents && y.parts.all (· == 1)
  | 3, [x, y] => x.ndim == y.ndim && x.extents == y.extents
  | _, _ => true

/-- A REDUCE's rows and the elements that its non-empty positions must hold (R326). -/
def CollDesc.leavesOk (d : CollDesc) (m : Mapping) : Bool :=
  match d.kind, d.ops with
  | 1, [x, y] =>
    (d.axis != 2 || decide ((m.rowsOf m.selfDev).length ≤ 1)) &&
    (x.inner.parts.all (· == 1) ||
      (m.devs.all fun o => (List.range o.leafCount).all fun i =>
        let l := o.leafFirst + i
        !m.active l || ((List.range (max 1 y.shards)).all fun q =>
          !leafEnters d.axis m (m.rowOf m.selfDev) (q * m.width / max 1 y.shards) l || (x.inner.shardsOf m o).contains q)))
  | _, _ => true

def spansMeet (a b : Held) : Bool :=
  let (al, ah) := a.span
  let (bl, bh) := b.span
  !a.emptyTensor && !b.emptyTensor && decide (al ≤ bh ∧ bl ≤ ah)

/-- The status at issue of a collective, 0 when it is accepted. -/
def collStatus (s : State) (jn : Nat) (j : Job) (k : Ctx) (p : List Byte) : Nat :=
  let d := CollDesc.parse p
  let m := j.mapping
  let mx := if d.kind = 3 ∧ d.fromPrior then j.prior.getD m else m
  let hs := d.helds m mx
  let known := hs.filterMap id
  let bound (h : Held) : Bool := (boundEntry k h.t).isSome
  let isD (i : Nat) : Bool := (d.kind ≤ 3 && i == 1) || d.kind == 5
  let absent (i : Nat) : Bool := i == 0 && d.kind == 3 && d.fromPrior && !(mx.devs.any fun o => o.fid == m.selfDev.fid)
  let reach := d.ops.zipIdx.all fun q =>
    match hs[q.2]? with
    | some (some h) => (!isD q.2 && bound h) || h.reachOk s jn j 0
    | _ => true
  firstBad
    [ (decide (d.flags < 2) && zeroAt p 10 6 && zeroAt p 24 8 && d.ops.all Tensor.reservedOk, St.paramReserved),
      (d.ops.all Tensor.scaleCodeOk, St.paramRange),
      (d.ops.all (fun t => t.fmt.isSome && t.scaleFormatOk), St.paramFormat),
      (d.ops.all (fun t => decide (1 ≤ t.ndim ∧ t.ndim ≤ 6)), St.paramShape),
      (d.ops.all (fun t => t.partsOk && t.mxUnitOk) && hs.zipIdx.all (fun q => q.1.isSome || absent q.2), St.paramShard) ]
  |> (orElse0 · (hs.zipIdx.foldl (fun a q => orElse0 a (match q.1 with
    | some h => if h.t.sparse then attrStatus h (isD q.2) true else 0
    | none => 0)) 0))
  |> (orElse0 · (firstBad
    [ (d.ops.all (fun t => t.sparse || (t.stridesOk && t.mxStridesOk)) &&
        d.ops.zipIdx.all (fun q => !isD q.2 || q.1.sparse || (match hs[q.2]? with
          | some (some h) => !zeroStride h.t.strides h.shape && (h.t.allowAlias || nonOverlap h.t.strides h.shape)
          | _ => true)), St.paramStride),
      (known.all Held.aligned && d.digest % 8 == 0, St.paramAlign),
      (reach, St.secWindow) ]))
  |> (orElse0 · (firstBad
    [ (decide (1 ≤ d.kind ∧ d.kind ≤ 6) && (if d.kind = 1 then decide (d.axis ≤ 2 ∧ d.wire ≤ 2) else d.axis == 0 && d.wire == 0) &&
        (if d.kind = 4 ∨ d.kind = 5 then decide (d.peer < m.devs.length) && d.peer != m.self else d.peer == 0) &&
        (d.kind == 3 || d.flags == 0) && ((d.digest == 0) == (d.kind == 6)) && decide (d.id < 0xFFFF_FFF0), St.paramRange),
      (d.ops.all (fun t => !t.sparse), St.paramSparse),
      (d.formatsOk, St.paramFormat),
      (d.shapesOk, St.paramShape),
      (d.leavesOk m && !(d.kind == 3 && d.fromPrior && j.prior.isNone), St.paramShard),
      ((match hs with | [some x, some y] => bound x || !spansMeet x y | _ => true), St.paramStride),
      ((known.zipIdx).all (fun q => isD q.2 || (match boundEntry k q.1.t with | some e => q.1.matchesEntry e | none => true)), St.stateHayloftTag),
      (d.kind == 6 || (match collView s j d with
        | some v => s.reachable jn j d.digest (64 * (v.records s j d).length)
        | none => true), St.secWindow) ]))

/-- The status at issue of a `GRAD_NORM`. -/
def normStatus (s : State) (jn : Nat) (j : Job) (p : List Byte) : Nat :=
  let n := le p 0 1
  let ts := (List.range n).map fun i => Tensor.parse ((p.drop (16 + 160 * i)).take 160)
  let hs := ts.map fun t => t.held j.mapping
  let known := hs.filterMap id
  firstBad
    [ (zeroAt p 1 7 && ts.all Tensor.reservedOk, St.paramReserved),
      (decide (1 ≤ n ∧ n ≤ 64) && ts.all Tensor.scaleCodeOk, St.paramRange),
      (ts.all (fun t => !t.isMask && t.scaleKind == 0 && (t.fmtIs fun f => f == .fp32 || f == .bf16 || (f == .fp32x && !t.sparse))), St.paramFormat),
      (ts.all (fun t => decide (1 ≤ t.ndim ∧ t.ndim ≤ 6) && (!t.sparse || decide (2 ≤ t.ndim))), St.paramShape),
      (ts.all Tensor.partsOk && hs.all Option.isSome, St.paramShard) ]
  |> (orElse0 · ((known.filter fun h => h.t.sparse).foldl (fun a h => orElse0 a (attrStatus h false true)) 0))
  |> (orElse0 · (firstBad
    [ (ts.all (fun t => t.sparse || t.stridesOk), St.paramStride),
      (known.all Held.aligned && le p 8 8 % 4 == 0, St.paramAlign),
      (known.all (fun h => h.reachOk s jn j 0) && (le p 8 8 == 0 || s.reachable jn j (le p 8 8) 4), St.secWindow) ]))

end Sys2Proof.Machine
end

