-- ==== Sys2Proof/Machine/Life.lean ====
section
/-! DEFINITION. The commands of the lifetime records: `SET_DATE` and `LIFE_READ` (R477, R482). -/

namespace Sys2Proof.Machine

/-! ### SET_DATE and LIFE_READ (R477, R482) -/

def dateStatus (p : List Byte) : Nat := if le p 0 8 < 1704067200 then St.paramRange else 0

def State.setDate (s : State) (p : List Byte) : State :=
  match s.life.date with
  | none =>
    let d := le p 0 8 - s.poweredS
    ({ s with life := { s.life with date := some d } }).event 13 (leBytes 8 d)
  | some _ => s.event 9 (leBytes 8 (le p 0 8))

def Life.areaTotal (l : Life) (area : Nat) : Nat :=
  match area with
  | 0 => l.readable.length
  | 1 => ceilDiv l.permCount 16
  | _ => 1

def lifeStatus (s : State) (p : List Byte) : Nat :=
  firstBad
    [ (decide (le p 0 1 ≤ 2), St.paramRange),
      (decide (le p 4 4 < s.life.areaTotal (le p 0 1)), St.paramRange) ]

def State.lifeReply (s : State) (p : List Byte) : List Byte :=
  let l := s.life
  let i := le p 4 4
  let body := match le p 0 1 with
    | 0 => match l.readable.reverse[i]? with | some r => r.bytes | none => []
    | 1 => ((l.permEntries.drop (16 * i)).take 16).flatten
    | _ => leBytes 4 s.otp.coldBoots ++ leBytes 4 s.otp.faultShutdowns ++ leBytes 4 s.otp.thermalShutdowns ++
           leBytes 4 s.otp.activations ++ leBytes 4 s.otp.svn
  leBytes 4 (l.areaTotal (le p 0 1)) ++ leBytes 4 0 ++ (body ++ List.replicate 256 0#8).take 256

end Sys2Proof.Machine
end

