-- ==== Sys2Proof/Machine/Memory.lean ====
section
/-! DEFINITION. Memory upkeep and small accesses: patrol scrub and write-back (R219-R222), repair and retirement of DRAM
rows (R228, R229), `MEM_TEST` and `RETIRED_LIST` (R398), atomics (R96-R99), flags (R267), launches (R205, R206). -/

namespace Sys2Proof.Machine

/-! ### Scrub and write-back (R221, R222) -/

def State.inTier (s : State) (da : Nat) : Bool := s.inHbm da 1 || s.inDdr da 1

/-- The patrol scrub reads the unit of a DA; a pass adds what the stack's own code has corrected (R219). -/
def State.scrubRead (s : State) (da : Nat) (e : Ecc) (onDie : Nat) : State :=
  if !s.inTier da ∨ s.tierWaits da 1 then s
  else
    let s := s.applyEcc da e
    if da < hbmBytes then
      let h := hbmStack da
      { s with memInfo := { s.memInfo with onDie := store 0 s.memInfo.onDie h (sat32 (lookup 0 s.memInfo.onDie h + onDie)) } }
    else s

/-- A corrected unit is written back: a further correction counts again. -/
def State.writtenBack (s : State) (da : Nat) : State :=
  if s.tierWaits da 1 then s
  else { s with memInfo := { s.memInfo with writeBack := s.memInfo.writeBack.filter (· != unitOf da) } }

/-! ### Repair and retirement (R228, R229, R480) -/

/-- One unit is retired: it stays poisoned. -/
def State.retireUnit (s : State) (u : Nat) : State :=
  let s := s.mark u
  let s := { s with retired := store false s.retired u true }
  ((s.memLast u 3).poisonSeen u).event 7 (leBytes 8 u)

/-- Retires every unit of a row, and records the row; a row that no longer fits is kept for this boot only. -/
def State.retireRow (s : State) (r : DramRow) : State :=
  let s := (r.das.map unitOf).foldl State.retireUnit s
  if s.life.permCount < permPlaces then s.permWrite [r] []
  else { s with life := { s.life with permFull := true } }

/-- A row must be repaired: it gave an uncorrectable error, or reached 8 corrections since cold reset (R228). -/
def State.rowFails (s : State) (r : DramRow) : Bool :=
  let us := (r.das.map unitOf).dedup
  us.any s.memInfo.failed.contains || decide (8 ≤ (us.map fun u => lookup 0 s.corrections u).foldl (· + ·) 0)

/-- A failing row is moved to a spare row, contents and poison marks as they are, and waits for the next cold reset; with no
spare row left its units are retired. The corrections of the failing row are no longer those of the row that now carries its
addresses (DEDUCED, log 38). -/
def State.softRepair (s : State) (r : DramRow) : State :=
  if !s.rowFails r then s
  else
    let us := r.das.map unitOf
    let s := { s with
      corrections := s.corrections.filter fun e => !us.contains e.1
      memInfo := { s.memInfo with failed := s.memInfo.failed.filter fun u => !us.contains u } }
    if r.spareLeft then
      { s with memInfo := { s.memInfo with pendingRepairs := sat 10 (s.memInfo.pendingRepairs + 1), soft := s.memInfo.soft ++ [r] } }
    else s.retireRow r

/-! ### RETIRED_LIST and MEM_TEST (R398) -/

def State.retiredReply (s : State) (p : List Byte) : List Byte :=
  let l := ((s.retired.map Prod.fst).drop (le p 0 4)).take 64
  leBytes 4 s.retired.length ++ leBytes 4 l.length ++ l.flatMap (leBytes 8)

def memTestStatus (s : State) (p : List Byte) : Nat :=
  let da := le p 8 8
  let n := le p 16 8
  let r : Region := ⟨da, n⟩
  firstBad
    [ (decide (le p 0 1 ≤ 2), St.paramRange),
      (r.aligned, St.paramAlign),
      (s.inMemory r, St.paramTarget),
      (r.clear ((List.range 4).flatMap fun k => match s.job k with | some j => j.regions | none => []) &&
        !r.meets s.reserveBase (2 ^ 30) && s.memInfo.test.isNone, St.stateJobsActive) ]

def State.startMemTest (s : State) (seq : Nat) (p : List Byte) : State :=
  let s := (s.restrict 2).startEntry seq
  { s with memInfo := { s.memInfo with test := some { seq := seq, pattern := le p 0 1, da := le p 8 8, len := le p 16 8 } } }

/-- The test is over: the units in error have been counted, corrected or uncorrectable, and the zeros written over the range at the
end leave no mark and nothing to write back (R221, R224). -/
def State.memTestEnds (s : State) (errors : List (Nat × Bool)) : State :=
  match s.memInfo.test with
  | none => s
  | some t =>
    let es := errors.filter fun e => decide (t.da ≤ e.1 ∧ e.1 < t.da + t.len)
    let s := es.foldl (fun s e => s.applyEcc e.1 (if e.2 then .uncorrectable else .corrected)) s
    let s := s.zero t.da t.len
    let back := s.memInfo.writeBack.filter fun u => !decide (t.da ≤ u ∧ u < t.da + t.len)
    let s := ({ s with memInfo := { s.memInfo with test := none, writeBack := back } }).unrestrict
    s.finish t.seq St.done (leBytes 8 es.length ++ leBytes 8 ((es.head?.map Prod.fst).getD 0))

/-! ### Atomics (R96-R99) -/

def atomicWidth : AtomicOp → Nat
  | .addI32 | .addF32 | .swap32 => 4
  | .addF32x | .swap64 | .combineF32x => 8

def atomicResult (o : AtomicOp) (old operand : Nat) : Nat :=
  match o with
  | .addI32 => (old + operand) % 2 ^ 32
  | .addF32 => (fadd (BitVec.ofNat 32 old) (BitVec.ofNat 32 operand)).toNat
  | .addF32x => (addTerm (Pair.ofCode old) (BitVec.ofNat 32 operand)).code
  | .swap32 => operand % 2 ^ 32
  | .swap64 => operand % 2 ^ 64
  | .combineF32x => (combine (Pair.ofCode old) (Pair.ofCode operand)).code

/-- The sender reaches the tile (R24): a tile those of its own job, a skip those of the job it serves. -/
def State.atomicReach (s : State) (m : AtomicMaster) (tile : Nat) : Bool :=
  match m, s.holder (paddockOf tile) with
  | .tile n, some j => s.holder (paddockOf n) == some j
  | .skip k, some j => k == j
  | _, none => false

/-- One lane: its new memory and what it returns, with poison. -/
def State.atomicLane (s : State) (a : AtomicAccess) (tile lane operand : Nat) : State × (Nat × Bool) :=
  let w := atomicWidth a.op
  let da := windowDA tile (a.offset + w * lane)
  let old := s.rdNat da w
  if s.poisonedAt da then (s, (0, true))
  else
    let r := leBytes w (atomicResult a.op old operand)
    (match s.holder (paddockOf tile) with
     | some j => s.devWrite j da r
     | none => s.write da r, (old, false))

def State.runLanes (s : State) (a : AtomicAccess) (tile : Nat) : List Nat → State × List (Nat × Bool)
  | [] => (s, [])
  | lane :: rest =>
    let r := s.atomicLane a tile lane ((a.operands[lane]?).getD 0)
    let q := r.1.runLanes a tile rest
    (q.1, r.2 :: q.2)

def atomicLanes (a : AtomicAccess) : List Nat := (List.range (64 / (atomicWidth a.op))).filter fun l => a.mask.getLsbD l

/-- The 8-byte words of the granule that the access's lanes lie in. -/
def atomicWords (a : AtomicAccess) : List Nat := ((atomicLanes a).map fun l => atomicWidth a.op * l / 8).dedup

/-- Why an atomic access is refused: 0 when it is not. An offset that is aligned to the element and not to 64 bytes
names the granule that it lies in (DESIGN CHOICE, log 140: R96 has granules alone). Where several refusals hold, reach is tested first,
then alignment, then the target: the spec gives no order (DESIGN CHOICE, log 70). -/
def State.atomicStatus (s : State) (tile : Nat) (a : AtomicAccess) : Nat :=
  let w := atomicWidth a.op
  let g := a.offset / 64 * 64
  firstBad
    [ (s.atomicReach a.master tile, St.secWindow),
      (a.offset % w == 0, St.paramAlign),
      (decide (g + 64 ≤ 0xC_0000) && !((atomicLanes a).any fun l => s.inExtended tile (g + w * l + w - 1)), St.paramTarget) ]

/-! ### Flags (R267) -/

/-- A short-transfer write of a flag: one indivisible access, with its re-read, which changes nothing here. -/
def State.flagWrite (s : State) (da : Nat) (v : U64) : State :=
  match (List.range 4).find? fun k => match s.job k with | some j => da % 8 == 0 && j.inRegions da 8 | none => false with
  | some j => s.flagPut j da v.toNat
  | none => s

/-! ### Launches (R205, R206) -/

/-- The running launch of a job. -/
def State.launchOf (s : State) (jn : Nat) : Option (Work × OpRun) :=
  (s.works.findSome? fun w =>
    match w.op with
    | some o => if w.job = jn ∧ w.opcode = opcOP_ISSUE ∧ (OpDesc.parse w.params).kind = 6 ∧ o.started then some (w, o) else none
    | none => none)

def State.launchAt (s : State) (tile : Nat) : Option (Work × OpRun) := (s.holder (paddockOf tile)).bind s.launchOf

/-- A refused access changes nothing. The launch whose tile sent it, outside its own job, ends with `SEC_WINDOW` (R24). -/
def State.refuseAtomic (s : State) (m : AtomicMaster) (st : Nat) : State :=
  let s := s.send (.status st)
  match m with
  | .tile n =>
    if st ≠ St.secWindow then s
    else match s.launchAt n with
      | some (w, o) => s.endPlain w o St.secWindow
      | none => s
  | .skip _ => s

/-- An atomic access at a tile's scratchpad: a corrected word is written back in the same access, the lanes of an uncorrectable
one return poison and write nothing (R97, R99). -/
def State.atomic (s : State) (tile : Nat) (a : AtomicAccess) : State :=
  let st := s.atomicStatus tile a
  if st ≠ 0 then s.refuseAtomic a.master st
  else
    let a := { a with offset := a.offset / 64 * 64 }
    let s := (atomicWords a).foldl (fun s w => s.windowEcc tile (a.offset + 8 * w) ((a.ecc[w]?).getD .clean))
      (s.portGrants tile .atom 1)
    let r := s.runLanes a tile (atomicLanes a)
    if a.returnOld then r.1.send (.atomicOld tile r.2) else r.1

/-- A tile has executed its program's end instruction: the launch is done when every tile of the job has. -/
def State.programEnds (s : State) (tile : Nat) : State :=
  match s.launchAt tile with
  | none => s
  | some (w, o) =>
    let ts := if o.compatTiles.contains tile then o.compatTiles else o.compatTiles ++ [tile]
    let s := s.modOp w.seq fun o => { o with compatTiles := ts }
    match s.job w.job with
    | some j => if ts.length = j.tiles.length then s.endPlain w o St.done else s
    | none => s

/-- The job's tiles in program order: ascending paddock, then ascending tile (R205). -/
def Job.programTiles (j : Job) : List Nat :=
  (List.range 20).flatMap fun p => if j.paddocks.getLsbD p then (List.range 800).filter fun n => paddockOf n == p else []

/-- The device address of a tile's program, from the launch's table. -/
def State.programDa (s : State) (j : Job) (params : List Byte) (tile : Nat) : Nat :=
  let t := (j.programTiles.idxOf? tile).getD 0
  match (OpDesc.parse params).operand 0 with
  | some x => let h := x.whole; h.code s.byte [t, 0] + 2 ^ 32 * h.code s.byte [t, 1]
  | none => 0

/-- The tile meets an instruction that the device does not execute: the launch ends, with the instruction's DA and the
tile's number (R206, R373). -/
def State.programStops (s : State) (tile offset : Nat) : State :=
  match s.launchAt tile, (s.holder (paddockOf tile)).bind s.job with
  | some (w, o), some j =>
    s.endOp w o St.paramCompatInsn (resultBlock o false 0 0 (s.programDa j w.params tile + offset) 0 tile 0 0)
  | _, _ => s

end Sys2Proof.Machine
end

