-- ==== Sys2Proof/Machine/Power.lean ====
section
/-! DEFINITION. Clocks, operating points, the cap loop, droop, ceilings, throttle records and energy (R401-R429), and the
shutdowns of R489. -/

namespace Sys2Proof.Machine

/-! ### Points (R402, R403) -/

/-- `DIV` of a point. -/
def pointDiv : Nat → Nat
  | 0 => 60 | 1 => 70 | 2 => 84 | 3 => 105 | _ => 140

/-- The point that a `DIV` in force belongs to. -/
def divPoint (d : Nat) : Nat :=
  if d ≤ 60 then 0 else if d ≤ 70 then 1 else if d ≤ 84 then 2 else if d ≤ 105 then 3 else 4

def Paddock.point (x : Paddock) : Nat := divPoint x.div

/-- The VDD_A of a point in mV, as fused (R402). -/
def State.pointMv (s : State) (pt : Nat) : Nat := (s.otp.points[pt]?).getD 0

/-- The point whose voltage VDD_Aq holds; P4 at power-up (R487). -/
def State.railAt (s : State) (q : Nat) : Nat := lookup 4 s.power.railPoint q
def State.railTo (s : State) (q : Nat) : Nat := lookup 4 s.power.railTarget q
def State.setRail (s : State) (q v : Nat) : State :=
  { s with power := { s.power with railPoint := store 4 s.power.railPoint q v } }
def State.aimRail (s : State) (q v : Nat) : State :=
  { s with power := { s.power with railTarget := store 4 s.power.railTarget q v } }

/-- The downward ramp of a quarter's voltage. -/
def State.ramp (s : State) (q : Nat) : Ramp := lookup .still s.power.ramps q
def State.setRamp (s : State) (q : Nat) (r : Ramp) : State :=
  { s with power := { s.power with ramps := store .still s.power.ramps q r } }

/-- The voltage in force of VDD_Aq in mV: that of the point that the VRM last reported, or of a lower one as soon as it is
commanded (R415). -/
def State.inForceMv (s : State) (q : Nat) : Nat := s.pointMv (s.railAt q)

def State.held (s : State) (p : Nat) : Bool := (s.holder p).isSome
def paddocksOf (q : Nat) : List Nat := (List.range 5).map fun i => 5 * q + i
def State.heldPaddocks (s : State) : List Nat := (List.range 20).filter s.held

/-! ### Requests and ceilings (R406-R408) -/

/-- A context covers a paddock of its job unless every entry of it is an operation whose mask excludes the paddock. -/
def State.covers (s : State) (k : Ctx) (p : Nat) : Bool :=
  k.queue.any fun q => match s.work q with
    | some w =>
      let m := (OpDesc.parse w.params).paddocks
      !(w.opcode == opcOP_ISSUE && m != 0 && !bit m p)
    | none => false

def State.requestOf (s : State) (jn : Nat) (j : Job) (p : Nat) : Nat :=
  let pt (ph : Nat) : Nat := (j.points[ph]?).getD 0
  let ps := (List.range 16).filterMap fun c => match s.ctx c with
    | some k => if k.job = jn ∧ s.covers k p then some (pt (s.phaseOf k)) else none
    | none => none
  match ps with
  | [] => pt 0
  | a :: r => r.foldl min a

/-- The ceilings of a paddock by throttle reason 1 CAP, 2 THERMAL, 3 VRM, 4 BRAKE, 5 HOST. -/
def Paddock.ceilings (x : Paddock) : List (Nat × Option Nat) := [(1, x.cap), (2, x.thermal), (3, x.vrm), (4, x.brake), (5, x.host)]

/-- The slowest of the request and the ceilings that exist. -/
def Paddock.grant (x : Paddock) : Nat := x.ceilings.foldl (fun a c => match c.2 with | some v => max a v | none => a) x.requested

/-- The ceiling of a reason limits the paddock. -/
def Paddock.limits (x : Paddock) (r : Nat) : Bool :=
  x.ceilings.any fun c => c.1 == r && (match c.2 with | some v => decide (x.requested < v) && v == x.granted | none => false)

/-- `LIMIT` of `CLK_ACLKp` with bit r for reason r. -/
def Paddock.limitBits (x : Paddock) : Nat := [1, 2, 3, 4, 5].foldl (fun a r => a + b2n (x.limits r) * 2 ^ r) 0

/-- The stretch level in force: the detector's, or level 2 of the thermal and VRM rules. -/
def Paddock.level (x : Paddock) : Nat := if x.hotStretch || x.vrmStretch then 2 else x.stretch

/-- Steps of a stretched period (R415). -/
def stretchedSteps (level div : Nat) : Nat :=
  match level with | 0 => div | 1 => div + ceilDiv div 4 | _ => 2 * div

/-- The periods that a detector's stretch has lasted at its level, up to now: 120 steps in each SCLK cycle. -/
def Paddock.stretchCount (x : Paddock) (now : Nat) : Nat :=
  if x.stretch = 0 then 0 else (now - x.stretchSince) * 120 / stretchedSteps x.stretch x.div

/-! ### Throttle records (R422) -/

def State.throttle (s : State) (r : Nat) : Throttle := lookup Throttle.reset s.power.throttles r

def Paddock.touches (x : Paddock) (r : Nat) : Bool :=
  match r with
  | 0 => x.stretch != 0
  | 2 => x.limits 2 || x.hotStretch
  | 3 => x.limits 3 || x.vrmStretch
  | r => x.limits r

def Paddock.depth (x : Paddock) (r : Nat) : Nat :=
  match r with
  | 0 => x.stretch
  | r => ((x.ceilings.find? fun c => c.1 == r).bind Prod.snd).getD 0

/-- Brings the record of a reason up to now: the microsecond spans in which it was active, and its event. -/
def State.throttleOne (s : State) (r : Nat) : State :=
  let t := s.throttle r
  let ps := s.heldPaddocks.filter fun p => (s.paddock p).touches r
  let on := !ps.isEmpty
  let span := s.sclk / 700
  let mask : BitVec 20 := ps.foldl (fun m p => m ||| BitVec.ofNat 20 (2 ^ p)) 0#20
  let deep := ps.foldl (fun a p => max a ((s.paddock p).depth r)) 0
  let from_ := if t.active then t.counted else max t.counted span
  let t1 : Throttle := if t.active ∨ on then { t with accUs := sat 64 (t.accUs + (span + 1 - from_)), counted := span + 1 } else t
  let t2 : Throttle :=
    if on ∧ !t.active then { t1 with active := true, lastStart := s.sclk, lastUs := 0, paddocks := mask, depth := deep }
    else if on then { t1 with lastUs := (s.sclk - t.lastStart) / 700, paddocks := t.paddocks ||| mask, depth := max t.depth deep }
    else if t.active then { t1 with active := false, lastUs := (s.sclk - t.lastStart) / 700 }
    else t1
  { s with power := { s.power with throttles := store Throttle.reset s.power.throttles r t2 } }

def State.throttleNow (s : State) : State := (List.range 6).foldl State.throttleOne s

/-! ### Changing the point (R413, R414, R417) -/

/-- A held switch is over: its wait counts toward the longest (R417). -/
def State.heldOver (s : State) (x : Paddock) : State :=
  match x.heldSince with
  | some h => { s with power := { s.power with heldMax := max s.power.heldMax (sat32 (s.sclk - h)) } }
  | none => s

/-- The divider switch of a pending target, when the rail's voltage supports it; a stretched paddock holds it. -/
def State.trySwitch (s : State) (p : Nat) : State :=
  let x := s.paddock p
  match x.pending with
  | none => s
  | some t =>
    if t < s.railAt (p / 5) then s
    else if x.level ≠ 0 then
      (if x.heldSince.isSome then s
       else ({ s with power := { s.power with heldCount := sat32 (s.power.heldCount + 1) } }).setPaddock p { x with heldSince := some s.sclk })
    else
      let s := s.heldOver x
      ({ s with power := { s.power with freqChanges := sat32 (s.power.freqChanges + 1) } }).setPaddock p
        { x with div := pointDiv t, pending := none, heldSince := none }

def State.replacedOne (s : State) : State := { s with power := { s.power with replaced := sat32 (s.power.replaced + 1) } }

/-- A decision for a paddock: its new target. -/
def State.retarget (s : State) (p t : Nat) : State :=
  let x := s.paddock p
  let s := if x.pending.isSome ∧ x.pending ≠ some t then s.replacedOne else s
  if t = x.point then (s.heldOver x).setPaddock p { x with pending := none, heldSince := none }
  else if x.pending = some t then s
  else (s.heldOver x).setPaddock p { x with pending := some t, heldSince := none }

/-- The fastest point granted to a held paddock of a quarter; P4 when none is held (R403). -/
def State.railWanted (s : State) (q : Nat) : Nat :=
  ((paddocksOf q).filter s.held).foldl (fun a p => min a (s.paddock p).granted) 4

def State.stretched (s : State) (q : Nat) : Bool := (paddocksOf q).any fun p => (s.paddock p).level != 0

/-- A stretch stops a downward ramp of its quarter, which goes on when no paddock of it is stretched. -/
def State.holdRamp (s : State) (q : Nat) : State :=
  match s.ramp q, s.stretched q with
  | .down, true => s.setRamp q .stopped
  | .stopped, false => s.setRamp q .down
  | _, _ => s

/-- Moves the voltage of a quarter: a raise waits for the VRM's report, and takes over from a downward ramp; a lowering waits until
every held paddock runs at a point that it supports and none of the quarter is stretched. -/
def State.moveRail (s : State) (q : Nat) : State :=
  let s := s.holdRamp q
  let want := s.railWanted q
  if want < s.railAt q then (s.aimRail q want).setRamp q .still
  else
    let held := (paddocksOf q).filter s.held
    if want = s.railAt q then s.aimRail q want
    else if (held.all fun p => decide (want ≤ (s.paddock p).point)) ∧ !s.stretched q then
      ((s.aimRail q want).setRail q want).setRamp q .down
    else s.aimRail q (s.railAt q)

/-- Pending switches of a quarter, in ascending paddock order, then its voltage. -/
def State.runQuarter (s : State) (q : Nat) : State := ((paddocksOf q).foldl State.trySwitch s).moveRail q

/-- Grants every held paddock its point and starts the changes. A paddock that no job holds is gated and falls back to its
reset setting. -/
def State.regrant (s : State) : State :=
  let s := (List.range 20).foldl (fun s p =>
    if s.held p then
      let g := (s.paddock p).grant
      (s.modPaddock p fun x => { x with granted := g, gated := false }).retarget p g
    else (s.heldOver (s.paddock p)).modPaddock p fun x =>
      { x with hot := 0, cool := 0, gated := false, stretch := 0, hotStretch := false, vrmStretch := false,
               stretchCycles := sat32 (x.stretchCycles + x.stretchCount s.sclk), requested := 4, granted := 4, div := 140, cap := none, thermal := none, vrm := none, brake := none, host := none, oc := none,
               pending := none, heldSince := none }) s
  ((List.range 4).foldl State.runQuarter s).throttleNow

/-! ### Ceilings of the VRM rules (R411, R421) -/

/-- The VRM ceiling of a paddock is the slowest that a class asks for. -/
def State.vrmOf (s : State) (x : Paddock) : Option Nat :=
  let w := s.power
  let all := (if w.telemLost then [3] else []) ++ (if w.sagCeiling then [2] else []) ++ (if w.brownCeiling then [4] else []) ++ x.oc.toList
  match all with
  | [] => none
  | a :: r => some (r.foldl max a)

def State.vrmCeilings (s : State) : State :=
  s.heldPaddocks.foldl (fun s p =>
    let v := s.vrmOf (s.paddock p)
    let b := s.power.brownCeiling
    s.modPaddock p fun x => { x with vrm := v, vrmStretch := b }) s

/-- The overcurrent part: one point slower than granted while the warning of the quarter's rail stands, else one point
faster each period. -/
def State.stepOc (s : State) (p : Nat) : State :=
  if s.power.overcurrent.contains (p / 5) then
    s.modPaddock p fun x => { x with oc := some (min 4 (x.granted + 1)) }
  else s.modPaddock p fun x => { x with oc := match x.oc with | some v => if v ≤ 1 then none else some (v - 1) | none => none }

/-! ### Shutdown (R489) -/

/-- The rails in the reverse of the order in which the board brings them up, without VDD_N (R487, R489). -/
def offOrder : List Nat := [6, 7, 5, 3, 2, 1, 0]

/-- FAULT_N goes low, and every rail except VDD_N is turned off, behind those in `gone`, which a VRM has turned off itself: nothing on
them works until cold reset, and the PLLs of their tiers and ports lose lock (R489; DEDUCED, log 157). -/
def State.shutdown (s : State) (gone : List Nat) : State :=
  { s with sec := { s.sec with faultLow := true, railsOff := gone ++ offOrder.filter fun r => !gone.contains r }
           power := { s.power with fabLock := 0#2, ddrLock := 0#2, hbmLock := 0#8, hostLock := false }
           host := { s.host with state := 0 }
           fab := { s.fab with ports := (List.range 8).foldl (fun m p => store Port.reset m p ((lookup Port.reset m p).leaves 0 s.sclk)) s.fab.ports } }

def State.faultShutdown (s : State) (rail : Nat) : State :=
  if s.sec.off then s
  else ((s.raiseOtp 1023 Otp.faultShutdowns fun o v => { o with faultShutdowns := v }).event 3 (leBytes 1 rail)).shutdown [rail]

def State.thermalShutdown (s : State) : State :=
  if s.sec.off then s
  else ((s.raiseOtp 1023 Otp.thermalShutdowns fun o v => { o with thermalShutdowns := v }).event 4 []).shutdown []

/-! ### Energy (R423, R424) -/

def State.liveJobs (s : State) : List Nat := (List.range 4).filter fun k => (s.job k).isSome
def State.liveCtxs (s : State) : List Nat := (List.range 16).filter fun c => (s.ctx c).isSome

def State.memEnergy (s : State) (c n : Nat) : State :=
  match s.ctx c with
  | some k => (s.modCtx c fun k => { k with nj := k.nj + n }).modJob k.job fun j => { j with memNj := j.memNj + n }
  | none => s

def State.setCarry (s : State) (key n : Nat) : State := { s with power := { s.power with carryNj := store 0 s.power.carryNj key n } }

def State.addOverhead (s : State) (n : Nat) : State := { s with power := { s.power with overheadNj := s.power.overheadNj + n } }

/-- Divides an amount, and what the last division under the key left, in proportion to weights; the remainder is carried into the
next period. Without any weight it goes to device overhead. Keys 0-7 are the rails, 8 + p the contexts of paddock p. -/
def State.divideBy (s : State) (key amount : Nat) (ws : List (Nat × (State → Nat → State))) : State :=
  let all := amount + lookup 0 s.power.carryNj key
  let total := ws.foldl (fun a w => a + w.1) 0
  if total = 0 then (s.addOverhead all).setCarry key 0
  else
    let given := ws.foldl (fun a w => a + all * w.1 / total) 0
    (ws.foldl (fun s w => w.2 s (all * w.1 / total)) s).setCarry key (all - given)

/-- The energy that the events of a paddock stand for under one context, before its V². -/
def State.eventEnergy (s : State) (p ctx : Nat) : Nat :=
  (List.range 9).foldl (fun a e => a + lookup 0 s.power.activity (activityKey p ctx e) * Config.energyOf e) 0

/-- The voltage of the array rail of a paddock in mV, as measured. -/
def State.railMv (s : State) (p : Nat) : Nat := (lookup (⟨0, 0, 0⟩ : Rail) s.power.rails (p / 5)).mv

/-- The weight of one context's activity in a paddock, and that of the paddock's leakage: `Eest` of R423 times (0.90 V)². -/
def State.activityWeight (s : State) (p ctx : Nat) : Nat := s.eventEnergy p ctx * s.railMv p ^ 2
def State.leakageWeight (s : State) (p : Nat) : Nat := Config.leakage p (s.railMv p) (s.paddock p).tempQc * 900 ^ 2

/-- The energy of a paddock goes to the job that holds it; its activity share to the job's contexts, its leakage share, and the
activity of no context, to no context. That of a gated paddock is device overhead. -/
def State.paddockEnergy (s : State) (p n : Nat) : State :=
  match s.holder p with
  | none => s.addOverhead n
  | some jn =>
    let own (c : Nat) : Bool := match s.ctx c with | some k => k.job == jn | none => false
    let rest := s.leakageWeight p + (((List.range 17).filter fun c => !own c).map (s.activityWeight p)).foldl (· + ·) 0
    let ctxs : List (Nat × (State → Nat → State)) := ((List.range 16).filter own).map fun c =>
      (s.activityWeight p c, fun (s : State) m => s.modCtx c fun k => { k with nj := k.nj + m })
    (s.modJob jn fun j => { j with paddockNj := j.paddockNj + n }).divideBy (8 + p) n ((rest + b2n (rest == 0), fun s _ => s) :: ctxs)

/-- The weights of the paddocks of a quarter: a gated one counts at its leakage alone. -/
def State.paddockWeights (s : State) (q : Nat) : List (Nat × (State → Nat → State)) :=
  (paddocksOf q).map fun p =>
    (s.leakageWeight p + (if s.held p then ((List.range 17).map (s.activityWeight p)).foldl (· + ·) 0 else 0),
     fun (s : State) n => s.paddockEnergy p n)

/-- A period ends: what was counted in it has been divided. -/
def State.clearActivity (s : State) : State :=
  { s with power := { s.power with moved := [], linkBytes := [], activity := [], meshFlits := [] } }

/-- Energy of one period: 10 nJ for each mW of a rail. -/
def State.countEnergy (s : State) : State :=
  let e (r : Nat) : Nat := 10 * (lookup ⟨0, 0, 0⟩ s.power.rails r).mw
  let total := (List.range 8).foldl (fun a r => a + e r) 0
  let s := { s with power := { s.power with energyNj := s.power.energyNj + total } }
  let s := (List.range 4).foldl (fun s q => s.divideBy q (e q) (s.paddockWeights q)) s
  let ctxs (tier : Nat) : List (Nat × (State → Nat → State)) :=
    s.liveCtxs.map fun c => (lookup 0 s.power.moved (16 * tier + c), fun (s : State) n => s.memEnergy c n)
  let host : List (Nat × (State → Nat → State)) := s.liveJobs.map fun jn =>
    (lookup 0 s.power.linkBytes jn, fun (s : State) n => s.modJob jn fun j => { j with hostNj := j.hostNj + n })
  let fabric : List (Nat × (State → Nat → State)) := s.liveJobs.map fun jn =>
    (lookup 0 s.power.linkBytes (4 + jn), fun (s : State) n => s.modJob jn fun j => { j with fabricNj := j.fabricNj + n })
  let mesh : List (Nat × (State → Nat → State)) := s.liveJobs.map fun jn =>
    (lookup 0 s.power.meshFlits jn, fun (s : State) n => s.modJob jn fun j => { j with fabricNj := j.fabricNj + n })
  ((((s.divideBy 5 (e 5) (ctxs 0)).divideBy 7 (e 7) (ctxs 1)).divideBy 6 (e 6) (host ++ fabric)).divideBy 4 (e 4) mesh).clearActivity

/-! ### The cap loop (R410, R411, R418) -/

def Power.packageMw (w : Power) : Nat := (List.range 8).foldl (fun a r => a + (lookup ⟨0, 0, 0⟩ w.rails r).mw) 0

/-- The next ceiling level. -/
def nextLevel (c capW mw : Nat) : Nat :=
  if capW * 1100 < mw then c - 16
  else
    let d : Int := Int.fdiv ((capW * 1000 : Nat) - (mw : Int)) 20000
    (min 64 (max 0 ((c : Int) + min 4 (max (-16) d)))).toNat

/-- The cap ceiling of a paddock in a period. -/
def capCeiling (c period p : Nat) : Nat :=
  let base := 4 - c / 16
  if (period + 7 * p) % 16 < c % 16 then base - 1 else base

/-- Takes in the telemetry of a period: which rails were renewed, and each paddock's sensor. -/
def State.readTelemetry (s : State) (t : Telemetry) : State :=
  let rails := (List.range 8).foldl (fun m r =>
    let old := lookup (⟨0, 0, 0⟩ : Rail) m r
    store ⟨0, 0, 0⟩ m r (if t.renewed.getLsbD r then ⟨(t.railMw[r]?).getD 0, (t.railMv[r]?).getD 0, 0⟩ else { old with age := old.age + 1 })) s.power.rails
  let lost := s.power.telemLost && t.renewed != 0xFF#8
  let s := { s with power := { s.power with rails := rails, telemLost := lost } }
  (List.range 20).foldl (fun s p =>
    let v := (t.tempQc[p]?).getD 0
    s.modPaddock p fun x => { x with tempQc := v, tempMaxQc := max x.tempMaxQc v }) s

/-- The temperature bins of R478 by their lower bounds in quarter degrees. -/
def tempBin (qc : Int) : Nat := if qc < 180 then 0 else if qc < 260 then 1 else if qc < 340 then 2 else if qc < 380 then 3 else if qc < 420 then 4 else 5

/-- The current of a rail in mA, as its telemetry gives it. -/
def Rail.currentMa (x : Rail) : Nat := if x.mv = 0 then 0 else x.mw * 1000 / x.mv

def addLists (a b : List Nat) : List Nat := (a.zip b).map fun p => p.1 + p.2

/-- The readings of a period count toward the next hourly record, and a fall below 40 °C after a reading above 80 °C is a thermal cycle
(R478, R479). -/
def State.readHour (s : State) : State :=
  let temps := (List.range 20).map fun p => (s.paddock p).tempQc
  let hot := temps.foldl max ((temps.head?).getD 0)
  let h := s.life.hour
  let falls := h.above80 && decide (hot < 160)
  { s with life := { s.life with
    cycles := s.life.cycles + b2n falls
    hour := { h with
      periods := h.periods + 1
      bins := h.bins.set (tempBin hot) ((h.bins[tempBin hot]?).getD 0 + 1)
      temps := (h.temps.zip temps).map fun e => e.1 + e.2
      currents := addLists h.currents ((List.range 8).map fun r => (lookup (⟨0, 0, 0⟩ : Rail) s.power.rails r).currentMa)
      above80 := (h.above80 && !falls) || decide (320 < hot) } } }

def State.limitQc (s : State) : Int := 4 * s.power.thermalC

/-- The thermal rule of a period: counts to the next step of the ceiling, and the response at 105 °C. -/
def State.thermalPeriod (s : State) (p : Nat) : State :=
  let c := s.limitQc
  s.modPaddock p fun x =>
    let x := if c ≤ x.tempQc then { x with hot := x.hot - 1, cool := 100 }
             else if x.tempQc < c - 12 then { x with hot := 0, cool := x.cool - 1 }
             else { x with hot := 0, cool := 100 }
    if 420 ≤ x.tempQc then { x with thermal := some 4, hotStretch := true }
    else if x.tempQc < 412 then { x with hotStretch := false } else x

/-- Values that `POWER_CAP_SET` left for this period (R425). -/
def State.takeCap (s : State) : State :=
  match s.power.pendingCap with
  | some (w, m, c) => { s with power := { s.power with capW := w, maxPoint := m, thermalC := c, pendingCap := none } }
  | none => s

def Power.stale (w : Power) : Bool := (List.range 8).any fun r => decide (3 ≤ (lookup (⟨0, 0, 0⟩ : Rail) w.rails r).age)

/-- A period in which no paddock is at its shutdown temperature (R410): the capping level, the ceilings, the grants and the energy. -/
def State.capPeriod (s : State) : State :=
  let n := s.power.period
  let lvl := if s.power.telemLost || s.power.stale then s.power.level else nextLevel s.power.level s.power.capW s.power.packageMw
  let s := { s with power := { s.power with level := lvl, period := n + 1 } }
  let s := s.heldPaddocks.foldl (fun s p =>
    let req := match s.holder p with
      | some jn => (match s.job jn with | some j => s.requestOf jn j p | none => 4)
      | none => 4
    let mx := s.power.maxPoint
    let br := s.power.brakeLow
    let s := (s.thermalPeriod p).stepOc p
    s.modPaddock p fun x => { x with requested := req, cap := some (capCeiling lvl n p), host := some mx, brake := if br then some 4 else none }) s
  (s.vrmCeilings.regrant).countEnergy

/-- A paddock is at its shutdown temperature of 110 °C (R418). -/
def State.tooHot (s : State) : Bool := (List.range 20).any fun p => decide (440 ≤ (s.paddock p).tempQc)

/-- The standing disturbances of R421. -/
def Power.standing (w : Power) : List Disturbance :=
  (if w.feedSag then [.feedSag] else []) ++ (if w.brownOut then [.brownOut] else []) ++ (if w.powerFail then [.powerFail] else []) ++
  w.overcurrent.map .overcurrent

/-- A status of the VRMs shows a disturbance standing, or cleared (R421). -/
def State.noteVrm (s : State) (d : Disturbance) (standing : Bool) : State :=
  let w := s.power
  match d with
  | .feedSag => { s with power := { w with feedSag := standing, sagCeiling := standing || w.sagCeiling } }
  | .brownOut => { s with power := { w with brownOut := standing, brownCeiling := standing || w.brownCeiling } }
  | .overcurrent r =>
    let others := w.overcurrent.filter (· != r)
    { s with power := { w with overcurrent := if standing then others ++ [r] else others } }
  | .powerFail =>
    let s := { s with power := { w with powerFail := standing, handOutStopped := standing || w.handOutStopped } }
    if standing && !w.powerFail then s.event 2 [] else s
  | .railFault r => if standing then s.faultShutdown r else s

/-- The VRMs' status of a period: what it lists stands, and what stood and is not listed has cleared. -/
def State.readVrms (s : State) (status : Option (List Disturbance)) : State :=
  match status with
  | none => s
  | some ds =>
    let s := (s.power.standing.filter fun d => !ds.contains d).foldl (fun s d => s.noteVrm d false) s
    ds.foldl (fun s d => s.noteVrm d true) s

/-- One period of the cap loop. -/
def State.capLoop (s : State) (t : Telemetry) : State :=
  if s.sec.off ∨ s.sec.resetLow then s
  else
    let s := (((s.takeCap).readTelemetry t).readHour).readVrms t.vrmStatus
    if s.sec.off then s
    else if s.tooHot then s.thermalShutdown
    else
      s.capPeriod

/-- Telemetry of a rail has not been renewed for 3 periods. -/
def State.telemetryIsLost (s : State) : State :=
  if s.power.stale then (({ s with power := { s.power with telemLost := true } }).vrmCeilings).regrant else s

/-- The thermal ceiling moves by one point when its count is over; a ceiling faster than P0 is none. An absent ceiling
counts as P0 (DEDUCED, log 40). -/
def State.thermalStep (s : State) (p : Nat) : State :=
  let x := s.paddock p
  let c := s.limitQc
  if !s.held p then s
  else if c ≤ x.tempQc ∧ x.hot = 0 then
    (s.modPaddock p fun x => { x with thermal := some (min 4 (x.thermal.getD 0 + 1)), hot := 10 }).regrant
  else if x.tempQc < c - 12 ∧ x.cool = 0 then
    (s.modPaddock p fun x => { x with thermal := (match x.thermal with | some (n + 1) => some n | _ => none), cool := 100 }).regrant
  else s

/-! ### VRM reports and droop (R413-R417, R421) -/

/-- The VRM of a quarter reports its target: the pending faster switches follow a raise, and a downward ramp is over. -/
def State.vrmReached (s : State) (q : Nat) : State :=
  if s.railTo q < s.railAt q then ((s.setRail q (s.railTo q)).runQuarter q).throttleNow
  else if s.ramp q = .down then s.setRamp q .still
  else s

/-- `PWR_DROOP_CTL.THRESH` in mV. -/
def State.threshMv (s : State) : Nat := 5 * s.power.thresh

/-- The stretch level that a supply asks for at a paddock's detector: 1 below the voltage in force less the threshold, 2 below it less
twice the threshold (R415). -/
def State.droopLevel (s : State) (p supplyMv : Nat) : Nat :=
  let v := s.inForceMv (p / 5)
  b2n (decide (supplyMv + s.threshMv < v)) + b2n (decide (supplyMv + 2 * s.threshMv < v))

/-- A detector sees its supply: the highest level entered stays. -/
def State.droop (s : State) (p supplyMv : Nat) : State :=
  let x := s.paddock p
  let level := s.droopLevel p supplyMv
  if !s.held p ∨ level ≤ x.stretch then s
  else
    ((s.setPaddock p { x with stretch := level, stretchSince := s.sclk, stretchCycles := sat32 (x.stretchCycles + x.stretchCount s.sclk),
                              stretchEvents := if x.stretch = 0 then sat32 (x.stretchEvents + 1) else x.stretchEvents }).holdRamp
      (p / 5)).throttleNow

/-- The supply has stayed above the threshold plus 10 mV for `PWR_DROOP_CTL.HOLD`, in units of 10 ns (R416). -/
def State.steady (s : State) (h : Steady) : Bool :=
  decide (s.inForceMv (h.paddock / 5) + 10 < h.lowestMv + s.threshMv) && decide (10 * s.power.hold ≤ h.ns)

/-- The stretch ends at an edge, and a held switch takes effect at that edge. -/
def State.droopEnds (s : State) (h : Steady) : State :=
  let p := h.paddock
  let x := s.paddock p
  if x.stretch = 0 ∨ !s.steady h then s
  else
    ((s.setPaddock p { x with stretch := 0, stretchCycles := sat32 (x.stretchCycles + x.stretchCount s.sclk) }).runQuarter (p / 5)).throttleNow

/-- BRAKE_N is low (R419); during a shutdown it has no effect. -/
def State.brake (s : State) : State :=
  if s.sec.off then s
  else
    let s := { s with power := { s.power with brakeLow := true } }
    (s.heldPaddocks.foldl (fun s p => s.modPaddock p fun x => { x with brake := some 4 }) s).regrant

def State.brakeEnds (s : State) : State :=
  let s := { s with power := { s.power with brakeLow := false } }
  (s.heldPaddocks.foldl (fun s p => s.modPaddock p fun x => { x with brake := none }) s).regrant

/-- An alert is read: a disturbance stands, or its warning has cleared; the ceilings that it imposes hold at once. -/
def State.vrmAlert (s : State) (d : Disturbance) (standing : Bool) : State :=
  if s.sec.off ∨ s.sec.resetLow then s
  else
    let was := s.power.overcurrent
    let s := s.noteVrm d standing
    match d, standing with
    | .feedSag, true | .brownOut, true => (s.vrmCeilings).regrant
    | .overcurrent r, true =>
      let s := if was.contains r then s else ((paddocksOf r).filter s.held).foldl State.stepOc s
      (s.vrmCeilings).regrant
    | _, _ => s

/-- The delay after a cleared disturbance is over: its ceiling is removed, or handing out resumes. -/
def State.vrmRecovered (s : State) (d : Disturbance) : State :=
  let w := s.power
  match d with
  | .feedSag => if w.feedSag then s else (({ s with power := { w with sagCeiling := false } }).vrmCeilings).regrant
  | .brownOut => if w.brownOut then s else (({ s with power := { w with brownCeiling := false } }).vrmCeilings).regrant
  | .powerFail =>
    if w.powerFail then s
    else (List.range 4).foldl State.signal { s with power := { w with handOutStopped := false } }
  | .overcurrent _ | .railFault _ => s

/-! ### Power commands (R425-R429) -/

def capStatus (p : List Byte) : Nat :=
  let w := le p 0 2
  let c := le p 3 1
  firstBad [(decide (900 ≤ w ∧ w ≤ 2400) && decide (le p 2 1 ≤ 4) && decide (85 ≤ c ∧ c ≤ 100), St.paramRange)]

def State.setCap (s : State) (p : List Byte) : State :=
  { s with power := { s.power with pendingCap := some (le p 0 2, le p 2 1, le p 3 1) } }

def pointsStatus (p : List Byte) : Nat := firstBad [((List.range 6).all fun i => decide (le p i 1 ≤ 4), St.paramRange)]

def State.setPoints (s : State) (jn : Nat) (p : List Byte) : State :=
  s.modJob jn fun j => { j with points := (List.range 6).map fun i => le p i 1 }

def State.powerReply (s : State) : List Byte :=
  let w := s.power
  let temps := (List.range 20).map fun p => (p, (s.paddock p).tempQc)
  let hot := temps.foldl (fun a x => if a.2 < x.2 then x else a) ((0 : Nat), (s.paddock 0).tempQc)
  leBytes 2 w.capW ++ leBytes 1 w.level ++ leBytes 1 w.maxPoint ++ leBytes 4 w.packageMw ++
  (List.range 8).flatMap (fun r => leBytes 4 (lookup (⟨0, 0, 0⟩ : Rail) w.rails r).mw) ++
  leBytes 2 (BitVec.ofInt 16 hot.2).toNat ++ leBytes 1 hot.1 ++ leBytes 1 0 ++
  (List.range 20).flatMap fun p => leBytes 1 (bif s.held p then (s.paddock p).granted else 0xFF)

def State.energyReply (s : State) (jn : Nat) (j : Job) : List Byte :=
  leBytes 8 (j.paddockNj / 1000 + j.memNj / 1000 + j.fabricNj / 1000 + j.hostNj / 1000) ++ leBytes 8 (j.paddockNj / 1000) ++ leBytes 8 (j.memNj / 1000) ++
  leBytes 8 (j.fabricNj / 1000) ++ leBytes 8 (j.hostNj / 1000) ++
  (List.range 16).flatMap (fun c => leBytes 8 (match s.ctx c with | some k => if k.job = jn then k.nj / 1000 else 0 | none => 0)) ++
  leBytes 8 j.since

/-- A record as it reads now. -/
def State.throttleBytes (s : State) (r : Nat) : List Byte :=
  let t := s.throttleOne r |>.throttle r
  leBytes 8 t.accUs ++ leBytes 8 t.lastStart ++ leBytes 4 (sat32 t.lastUs) ++ leBytes 4 t.paddocks.toNat ++ leBytes 1 t.depth ++
  leBytes 1 (b2n t.active) ++ leBytes 6 0

def State.throttleReply (s : State) : List Byte := (List.range 6).flatMap s.throttleBytes

end Sys2Proof.Machine
end

