-- ==== Sys2Proof/Machine/Signatures.lean ====
section
/-! DEFINITION. The signatures of R469, which the spec names and does not define: RSASSA-PSS of PKCS #1 v2.2 with SHA-384, and pure
SLH-DSA of FIPS 205 with the parameter set SLH-DSA-SHA2-192s and an empty context, both as their standards give them; and the
HMAC-SHA-384 of R473 (PRESUMED, log 41). -/

namespace Sys2Proof.Machine

/-! ### SHA-512 and SHA-256 (FIPS 180-4) -/

def sha512Init : List U64 :=
  [0x6a09e667f3bcc908#64, 0xbb67ae8584caa73b#64, 0x3c6ef372fe94f82b#64, 0xa54ff53a5f1d36f1#64,
   0x510e527fade682d1#64, 0x9b05688c2b3e6c1f#64, 0x1f83d9abfb41bd6b#64, 0x5be0cd19137e2179#64]

def sha512 (m : List Byte) : List Byte :=
  let p := shaPad m
  (shaBlocks (p.length / 128) p sha512Init).flatMap fun x => beBytes 8 x.toNat

/-- The round constants of SHA-256 are the upper halves of the first 64 of SHA-512. -/
def sha256K : List U32 := (shaK.take 64).map fun k => BitVec.ofNat 32 (k.toNat / 2 ^ 32)

/-- The initial hash value of SHA-256: the upper halves of that of SHA-512. -/
def sha256Init : List U32 := sha512Init.map fun x => BitVec.ofNat 32 (x.toNat / 2 ^ 32)

/-- Runs the rounds of SHA-256; `w` holds the next sixteen words of the schedule. -/
def sha256Rounds : List U32 → List U32 → List U32 → List U32
  | [], _, v => v
  | k :: ks, w, v =>
    let g (l : List U32) (i : Nat) : U32 := (l[i]?).getD 0#32
    let r (x : U32) (n : Nat) : U32 := x.rotateRight n
    let a := g v 0
    let e := g v 4
    let t1 := g v 7 + (r e 6 ^^^ r e 11 ^^^ r e 25) + ((e &&& g v 5) ^^^ (~~~e &&& g v 6)) + k + g w 0
    let t2 := (r a 2 ^^^ r a 13 ^^^ r a 22) + ((a &&& g v 1) ^^^ (a &&& g v 2) ^^^ (g v 1 &&& g v 2))
    let s0 := r (g w 1) 7 ^^^ r (g w 1) 18 ^^^ (g w 1 >>> 3)
    let s1 := r (g w 14) 17 ^^^ r (g w 14) 19 ^^^ (g w 14 >>> 10)
    sha256Rounds ks (w.drop 1 ++ [s1 + g w 9 + s0 + g w 0]) [t1 + t2, a, g v 1, g v 2, g v 3 + t1, e, g v 5, g v 6]

def sha256Block (h : List U32) (b : List Byte) : List U32 :=
  let w := (List.range 16).map fun i => BitVec.ofNat 32 (beNat ((b.drop (4 * i)).take 4))
  (h.zip (sha256Rounds sha256K w h)).map fun p => p.1 + p.2

def sha256Pad (m : List Byte) : List Byte :=
  m ++ [0x80#8] ++ List.replicate ((119 - m.length % 64) % 64) 0#8 ++ beBytes 8 (8 * m.length)

def sha256Blocks : Nat → List Byte → List U32 → List U32
  | 0, _, h => h
  | n + 1, m, h => sha256Blocks n (m.drop 64) (sha256Block h (m.take 64))

def sha256 (m : List Byte) : List Byte :=
  let p := sha256Pad m
  (sha256Blocks (p.length / 64) p sha256Init).flatMap fun x => beBytes 4 x.toNat

def xorBytes (a b : List Byte) : List Byte := (a.zip b).map fun p => p.1 ^^^ p.2

/-- HMAC-SHA-384, with blocks of 128 bytes. -/
def hmac384 (key m : List Byte) : List Byte :=
  let k0 := if 128 < key.length then sha384 key else key
  let k := k0 ++ List.replicate (128 - k0.length) 0#8
  sha384 (k.map (· ^^^ 0x5C#8) ++ sha384 (k.map (· ^^^ 0x36#8) ++ m))

/-- MGF1 over a hash of `h` bytes: the first `n` bytes of the mask. -/
def mgf1 (hash : List Byte → List Byte) (h : Nat) (seed : List Byte) (n : Nat) : List Byte :=
  ((List.range ((n + h - 1) / h)).flatMap fun i => hash (seed ++ beBytes 4 i)).take n

/-! ### RSASSA-PSS (PKCS #1 v2.2) -/

/-- The power of an exponent of at most `fuel` bits. -/
def powMod (n : Nat) : Nat → Nat → Nat → Nat
  | 0, _, _ => 1 % n
  | fuel + 1, b, e =>
    let r := powMod n fuel (b * b % n) (e / 2)
    if e % 2 = 1 then r * b % n else r

/-- EMSA-PSS verification of an encoded message of `bits` bits, with SHA-384 and a salt of 48 bytes. -/
def pssOk (m em : List Byte) (bits : Nat) : Bool :=
  let len := (bits + 7) / 8
  let free := 8 * len - bits
  let masked := em.take (len - 49)
  let h := (em.drop (len - 49)).take 48
  let x := xorBytes masked (mgf1 sha384 48 h (len - 49))
  let db := match x with
    | b :: r => (b &&& (0xFF#8 >>> free)) :: r
    | [] => []
  let salt := db.drop (len - 97)
  decide (98 ≤ len) && em.getLast? == some 0xBC#8 && (match masked with | b :: _ => b &&& ~~~(0xFF#8 >>> free) == 0#8 | [] => false) &&
  db.take (len - 97) == List.replicate (len - 98) 0#8 ++ [0x01#8] &&
  h == sha384 (List.replicate 8 0#8 ++ sha384 m ++ salt)

/-- A signature verifies under an RSA key: modulus, big-endian, then exponent, 4 bytes (R469). -/
def rsaVerifies (key m sig : List Byte) : Bool :=
  let n := beNat (key.take 384)
  let e := leNat (key.drop 384)
  let s := beNat sig
  if n = 0 ∨ n ≤ s then false
  else
    let bits := n.log2
    let v := powMod n 32 s e
    let len := (bits + 7) / 8
    decide (v < 2 ^ (8 * len)) && pssOk m (beBytes len v) bits

/-! ### SLH-DSA-SHA2-192s (FIPS 205): n 24, h 63, d 7, h' 9, a 14, k 17, w 16, m 39 -/

/-- An address of FIPS 205 in its compressed form: layer, tree, type and the three words behind them. -/
structure SlhAddr where
  layer : Nat
  tree : Nat
  kind : Nat
  w1 : Nat
  w2 : Nat
  w3 : Nat
deriving DecidableEq, Repr

def SlhAddr.bytes (x : SlhAddr) : List Byte :=
  beBytes 1 x.layer ++ beBytes 8 x.tree ++ beBytes 1 x.kind ++ beBytes 4 x.w1 ++ beBytes 4 x.w2 ++ beBytes 4 x.w3

/-- F of FIPS 205, over SHA-256; H and T over SHA-512. -/
def slhF (seed : List Byte) (x : SlhAddr) (m : List Byte) : List Byte := (sha256 (seed ++ List.replicate 40 0#8 ++ x.bytes ++ m)).take 24
def slhT (seed : List Byte) (x : SlhAddr) (m : List Byte) : List Byte := (sha512 (seed ++ List.replicate 104 0#8 ++ x.bytes ++ m)).take 24

/-- The `i`-th part of 24 bytes. -/
def part24 (l : List Byte) (i : Nat) : List Byte := (l.drop (24 * i)).take 24

/-- The numbers of `b` bits that bytes hold, from the highest bits on. -/
def base2b (l : List Byte) (b count : Nat) : List Nat :=
  (List.range count).map fun i => beNat l / 2 ^ (8 * l.length - b * (i + 1)) % 2 ^ b

/-- `n` steps of a hash chain from position `i`. -/
def slhChain (seed : List Byte) (x : SlhAddr) : Nat → Nat → List Byte → List Byte
  | 0, _, m => m
  | n + 1, i, m => slhChain seed x n (i + 1) (slhF seed { x with w3 := i } m)

/-- Climbs a Merkle tree: from a node at height `j` and index `i` with the authentication path. -/
def slhClimb (seed : List Byte) (x : SlhAddr) : List (List Byte) → Nat → Nat → List Byte → List Byte
  | [], _, _, node => node
  | sib :: rest, j, i, node =>
    let y := { x with w2 := j + 1, w3 := i / 2 }
    slhClimb seed x rest (j + 1) (i / 2) (slhT seed y (if i % 2 = 0 then node ++ sib else sib ++ node))

/-- The one-time public key that a WOTS+ signature of 51 parts stands for. -/
def wotsKey (seed : List Byte) (layer tree leaf : Nat) (sig m : List Byte) : List Byte :=
  let ds := base2b m 4 48
  let sum := ds.foldl (fun a d => a + (15 - d)) 0
  let all := ds ++ base2b (beBytes 2 (sum * 16)) 4 3
  let parts := all.zipIdx.flatMap fun e =>
    slhChain seed { layer := layer, tree := tree, kind := 0, w1 := leaf, w2 := e.2, w3 := 0 } (15 - e.1) e.1 (part24 sig e.2)
  slhT seed { layer := layer, tree := tree, kind := 1, w1 := leaf, w2 := 0, w3 := 0 } parts

/-- The root of a tree that an XMSS signature of 60 parts stands for. -/
def xmssRoot (seed : List Byte) (layer tree leaf : Nat) (sig m : List Byte) : List Byte :=
  slhClimb seed { layer := layer, tree := tree, kind := 2, w1 := 0, w2 := 0, w3 := 0 } ((List.range 9).map fun i => part24 sig (51 + i)) 0 leaf
    (wotsKey seed layer tree leaf sig m)

/-- The root of the hypertree, layer by layer; each turn of the fuel takes one. -/
def htRoot (seed : List Byte) : Nat → Nat → Nat → Nat → List Byte → List Byte → List Byte
  | 0, _, _, _, _, m => m
  | n + 1, layer, tree, leaf, sig, m =>
    htRoot seed n (layer + 1) (tree / 2 ^ 9) (tree % 2 ^ 9) (sig.drop 1440) (xmssRoot seed layer tree leaf (sig.take 1440) m)

/-- The public key of the few-time signature: 17 trees of height 14. -/
def forsKey (seed : List Byte) (tree leaf : Nat) (sig md : List Byte) : List Byte :=
  let roots := (base2b md 14 17).zipIdx.flatMap fun e =>
    let x : SlhAddr := { layer := 0, tree := tree, kind := 3, w1 := leaf, w2 := 0, w3 := e.2 * 2 ^ 14 + e.1 }
    slhClimb seed x ((List.range 14).map fun j => part24 sig (15 * e.2 + 1 + j)) 0 x.w3 (slhF seed x (part24 sig (15 * e.2)))
  slhT seed { layer := 0, tree := tree, kind := 4, w1 := leaf, w2 := 0, w3 := 0 } roots

/-- A signature of 16224 bytes verifies under an SLH-DSA key of 48 bytes, with an empty context. -/
def slhVerifies (key m sig : List Byte) : Bool :=
  let seed := key.take 24
  let root := key.drop 24
  let r := sig.take 24
  let msg := 0#8 :: 0#8 :: m
  let digest := mgf1 sha512 64 (r ++ seed ++ sha512 (r ++ seed ++ root ++ msg)) 39
  let tree := beNat ((digest.drop 30).take 7) % 2 ^ 54
  let leaf := beNat ((digest.drop 37).take 2) % 2 ^ 9
  let fors := forsKey seed tree leaf ((sig.drop 24).take 6120) (digest.take 30)
  decide (sig.length = 16224) && htRoot seed 7 0 tree leaf (sig.drop 6144) fors == root

end Sys2Proof.Machine
end

