-- ==== Sys2Proof/Machine/Boot.lean ====
section
/-! DEFINITION. Reset levels (R462, R463, R390, R391), boot stages and PLLs (R435, R465, R466), firmware banks and image
checks (R467-R471), measurement, identity and attestation (R472-R476), hourly records (R478, R479). -/

namespace Sys2Proof.Machine

/-! ### Images (R467-R470) -/

def bankBytes : Nat := 64 * 2 ^ 20
/-- Where the image of a kind lies in its bank: 1 stage 1, 2 main, 3 revocation. -/
def imageAt (kind : Nat) : Nat := if kind = 2 then 0x40_0000 else 0
def imageRoom (kind : Nat) : Nat := match kind with | 1 => 0x40_0000 | 2 => bankBytes - 0x40_0000 | _ => bankBytes

def Security.rd (x : Security) (bank : Bool) (off n : Nat) : List Byte := loadRun 0#8 (if bank then x.bankB else x.bankA) off n

/-- Reserved fields of an image header are zero. -/
def imageReserved (h : List Byte) : Bool := zeroAt h 5 1 && zeroAt h 10 2 && zeroAt h 73 7 && zeroAt h 952 72

/-- The checks of R470 on an image: 0, or the code of the first that fails. -/
def State.verifyImage (s : State) (bank : Bool) (kind : Nat) : Nat :=
  let at_ := imageAt kind
  let h := s.sec.rd bank at_ 1024
  let sig (o n : Nat) : List Byte := s.sec.rd bank (at_ + o) n
  let part (o n : Nat) : List Byte := (h.drop o).take n
  let len := le h 16 8
  let slot := le h 72 1
  firstBad
    [ (le h 0 4 == 0x48574B46 && le h 4 1 == kind && imageReserved h && decide (34240 + len ≤ imageRoom kind), 1),
      ((match s.otp.roots[slot]? with | some (some r) => r == sha384 (part 80 436) | _ => false) && !s.otp.revoked.getLsbD slot, 2),
      (rsaVerifies (part 80 388) (part 516 436) (sig 1024 384), 3),
      (slhVerifies (part 468 48) (part 516 436) (sig 1408 16224), 4),
      (rsaVerifies (part 516 388) h (sig 17632 384), 5),
      (slhVerifies (part 904 48) h (sig 18016 16224), 6),
      (sha384 (sig 34240 len) == part 24 48, 7),
      (decide (s.otp.svn ≤ le h 12 4), 8) ]

/-- SHA-384 over an image's header and payload (R472). -/
def State.imageHash (s : State) (bank : Bool) (kind : Nat) : List Byte :=
  let h := s.sec.rd bank (imageAt kind) 1024
  sha384 (h ++ s.sec.rd bank (imageAt kind + 34240) (le h 16 8))

/-- Extends a measurement. -/
def extend (m h : List Byte) : List Byte := sha384 (m ++ h)

def zero48 : List Byte := List.replicate 48 0#8

/-! ### Boot header (R467, R468) -/

/-- Writes the other copy of the header with the generation plus 1. -/
def State.putHeader (s : State) (f : BootHeader → BootHeader) : State :=
  let x := s.sec
  let b := (f { x.header with generation := (x.header.generation + 1) % 2 ^ 32 }).bytes
  { s with sec := { x with copy0 := if x.second then b else x.copy0, copy1 := if x.second then x.copy1 else b }
           life := { s.life with flashAt := some (s.sclk, true) } }

def State.halt (s : State) : State := { s with sec := { s.sec with stage := 15, faultLow := true } }

/-- Records that a bank failed a check; a pending bank is given up. -/
def State.bankFailed (s : State) (bank : Bool) (code : Nat) : State :=
  let s := { s with sec := { s.sec with failCode := code } }
  let s := s.event 11 (leBytes 1 (b2n bank) ++ leBytes 1 code)
  if s.sec.header.pending = some bank then
    let s := s.putHeader fun h => { h with pending := none }
    { s with sec := { s.sec with fallback := 1 } }
  else { s with sec := { s.sec with fallback := 2 } }

/-- The stage-1 image of a bank runs. M0 starts at 48 zero bytes and takes every verified image in boot order, that of a
stage 1 whose main image then failed too (R472). -/
def State.runStage1 (s : State) (bank : Bool) : State :=
  let h := s.imageHash bank 1
  { s with sec := { s.sec with bank := bank, stage := 2, m0 := extend s.sec.m0 h, log := s.sec.log ++ [(1, h)], identityHeld := true } }

/-- The main image of the booted bank runs: measured, with the alias keys that HMAC-SHA-384(secret, M0) gives and their certificates; the
identity private keys are erased, and the secret is locked until cold reset (R472-R474). -/
def State.runMain (s : State) : State :=
  let x := s.sec
  let hd := x.rd x.bank (imageAt 2) 1024
  let h := s.imageHash x.bank 2
  let m0 := extend x.m0 h
  let seed := hmac384 s.otp.secret m0
  let cert (slh : Bool) : List Byte := Config.aliasCert slh s.otp.secret seed m0
  { s with sec := { x with
      stage := 3, m0 := m0, log := x.log ++ [(2, h)], mainHash := h, fwMajor := le hd 6 2, fwMinor := le hd 8 2
      imageSvn := le hd 12 4, rootSlot := le hd 72 1, deviceId := (sha384 (Config.identityKeys s.otp.secret)).take 16
      certs := place (place x.certs 4 (cert false)) 5 (cert true), aliasSeed := seed, identityHeld := false, secretLocked := true } }

/-! ### PLLs (R435, R466) -/

def pllOrder : List Pll :=
  [.root] ++ (List.range 8).map Pll.hbm ++ [.ddr false, .ddr true, .fab false, .fab true, .host]

def sideBit (east v : Bool) (b : BitVec 2) : BitVec 2 :=
  let m : BitVec 2 := if east then 2#2 else 1#2
  if v then b ||| m else b &&& ~~~m

def State.setLock (s : State) (p : Pll) (v : Bool) : State :=
  let w := s.power
  let w := match p with
    | .root => { w with rootLock := v }
    | .hbm h => { w with hbmLock := if v then w.hbmLock ||| BitVec.ofNat 8 (2 ^ h) else w.hbmLock &&& ~~~(BitVec.ofNat 8 (2 ^ h)) }
    | .ddr e => { w with ddrLock := sideBit e v w.ddrLock }
    | .fab e => { w with fabLock := sideBit e v w.fabLock }
    | .host => { w with hostLock := v }
  { s with power := w }

def State.locked (s : State) (p : Pll) : Bool :=
  match p with
  | .root => s.power.rootLock
  | .hbm h => s.power.hbmLock.getLsbD h
  | .ddr e => s.power.ddrLock.getLsbD (b2n e)
  | .fab e => s.power.fabLock.getLsbD (b2n e)
  | .host => s.power.hostLock

/-- The fabric ports of an edge (R33). -/
def portsOf (east : Bool) : List Nat := (List.range 4).map fun i => 4 * b2n east + i

/-- The next PLL of the lock order; after the last the boot goes on, at a warm reset with the main image (R462, R468). -/
def State.nextPll (s : State) : State :=
  let n := s.sec.pllNext + 1
  let s := { s with sec := { s.sec with pllNext := n } }
  if n = 14 ∧ s.sec.stage = 0 then { s with sec := { s.sec with stage := if s.sec.reloading then 2 else 1 } } else s

def State.starting (s : State) (p : Pll) : Bool := s.sec.stage == 0 && !s.sec.resetLow && pllOrder[s.sec.pllNext]? == some p

/-- A PLL locks: the next of the start-up order, or one that had lost its lock. -/
def State.pllLocks (s : State) (p : Pll) : State :=
  if s.starting p then (s.setLock p true).nextPll
  else if s.sec.relocking.contains p then
    let s := s.setLock p true
    let s := { s with sec := { s.sec with relocking := s.sec.relocking.filter (· != p) } }
    match p with
    | .fab e => (portsOf e).foldl (fun s p => s.retrain p false) s
    | .host => s.hostRetrain
    | _ => s
  else s

/-- A PLL has not locked in its 1 ms. -/
def State.pllFails (s : State) (p : Pll) : State :=
  if !s.starting p then s
  else match p with
    | .root => { s with sec := { s.sec with faultLow := true, pllNext := 15 } }
    | .fab e => ((portsOf e).foldl (fun s p => s.modPort p fun x => { x with state := 0 }) s).nextPll
    | .host => ({ s with host := { s.host with state := 0 } }).nextPll
    | _ => s.nextPll

def State.warmAsked (s : State) (c : WarmCause) : State :=
  if s.sec.warmPending.isSome then s else { s with sec := { s.sec with warmPending := some c } }

def pllCode : Pll → Nat
  | .root => 0 | .hbm h => 1 + h | .ddr e => 9 + b2n e | .fab e => 11 + b2n e | .host => 13

/-- A PLL loses lock while the device runs. -/
def State.pllLost (s : State) (p : Pll) : State :=
  if !s.locked p then s
  else
    let s := s.setLock p false
    let s := ({ s with power := { s.power with loss := sat32 (s.power.loss + 1) } }).event 12 (leBytes 1 (pllCode p))
    match p with
    | .root => s.warmAsked .rootPll
    | p => { s with sec := { s.sec with relocking := s.sec.relocking ++ [p] } }

def State.relockFails (s : State) (p : Pll) : State := if s.sec.relocking.contains p then s.warmAsked .relock else s

/-! ### Cold reset and cold boot (R462, R465) -/

/-- The last write to flash was made in this SCLK cycle, and may be torn: whether it is the header's. -/
def State.flashBusy (s : State) : Option Bool :=
  match s.life.flashAt with
  | some (t, header) => if t = s.sclk then some header else none
  | none => none

/-- A reset may tear the write that is under way; whether it does is a free value (R467, R478; DESIGN CHOICE, log 112). -/
def State.tears (s : State) (header : Bool) : Bool := s.flashBusy == some header && (Config.freeValue s.freeCtr).getLsbD 0

/-- The copies of the boot header that a reset leaves: a torn one fails its CRC. -/
def State.headerLeft (s : State) : List Byte × List Byte :=
  let x := s.sec
  if s.tears true then (if x.second then (x.copy0, x.copy1.take 5) else (x.copy0.take 5, x.copy1)) else (x.copy0, x.copy1)

/-- The ring that a reset leaves: a torn record fails its CRC. -/
def State.ringLeft (s : State) : List LifeRecord :=
  if s.tears false then s.life.ring.dropLast ++ (s.life.ring.getLast?.toList.map fun r => { r with torn := true }) else s.life.ring

/-- RESET_N low: what remains is OTP and flash. What the device has sent and the commands that wait stand outside it. After a shutdown
the rails stay off, and FAULT_N low, for as long as VDD_N is up (R489). -/
def State.coldReset (s : State) : State :=
  { State.reset with
    otp := s.otp
    sec := { Security.reset with copy0 := s.headerLeft.1, copy1 := s.headerLeft.2, bankA := s.sec.bankA, bankB := s.sec.bankB
                                 certs := s.sec.certs.filter fun e => decide (e.1 < 4), railsOff := s.sec.railsOff
                                 faultLow := s.sec.off }
    life := { s.life with ring := s.ringLeft, flashErr := false, bootRec := false, date := none, warmResets := 0, errAtLast := [0, 0, 0]
                          hour := HourSums.reset, flashAt := none }
    memInfo := { State.reset.memInfo with soft := s.memInfo.soft }
    out := s.out, freeCtr := s.freeCtr + b2n s.flashBusy.isSome, pending := s.pending }

/-- RESET_N rises, which the board allows only with every rail up (R487, R489): straps are sampled, and stage 0 begins (R491). -/
def State.resetRises (s : State) (t : Straps) : State :=
  if !s.sec.resetLow then s
  else
    let s := { s with
      sec := { s.sec with resetLow := false, feedId := t.feedId.toNat, sbAddr := t.sbAddr.toNat, railsOff := [], faultLow := false },
      power := { s.power with refclkOk := true } }
    if t.testEnN then s else s.halt

/-- A recorded retirement takes effect (R27). -/
def RowMap.settle (m : RowMap) : RowMap :=
  match m.pending with
  | some r => { m with unmapped := r, amended := true, spareAvail := false, pending := none }
  | none => m

/-- What the ROM stage does before it looks for an image (R468, R481): it counts the cold boot, settles the row maps and loads the MAC
address. -/
def State.romStarts (s : State) : State :=
  let s := s.raiseOtp 65535 Otp.coldBoots fun o v => { o with coldBoots := v }
  { s with otp := { s.otp with rows := s.otp.rows.map RowMap.settle }, host := { s.host with mac := s.otp.mac } }

/-- The ROM has loaded OTP and chosen a bank whose stage-1 image passes (R465, R468). -/
def State.romEnds (s : State) : State :=
  if s.sec.stage ≠ 1 then s
  else
    let s := s.romStarts
    let first := s.sec.header.pending.getD s.sec.header.active
    match s.verifyImage first 1 with
    | 0 => s.runStage1 first
    | code =>
      let s := s.bankFailed first code
      match s.verifyImage (!first) 1 with
      | 0 => s.runStage1 (!first)
      | code => (s.bankFailed (!first) code).halt

/-- Stage 2 ends: the main image is verified, the other bank being tried once; at a warm reset it must be the image measured
at cold reset (R468, R473). -/
def State.stage1Ends (s : State) : State :=
  if s.sec.stage ≠ 2 then s
  else
    let b := s.sec.bank
    match s.verifyImage b 2, s.sec.reloading with
    | 0, true =>
      if s.imageHash b 2 = s.sec.mainHash then { s with sec := { s.sec with stage := 3 } }
      else ({ s with sec := { s.sec with failCode := 9 } }).halt
    | 0, false => s.runMain
    | code, true => ({ s with sec := { s.sec with failCode := code } }).halt
    | code, false =>
      if s.sec.fallback ≠ 0 then (s.bankFailed b code).halt
      else
        let s := s.bankFailed b code
        match firstBad [(s.verifyImage (!b) 1 == 0, s.verifyImage (!b) 1), (s.verifyImage (!b) 2 == 0, s.verifyImage (!b) 2)] with
        | 0 => (s.runStage1 (!b)).runMain
        | code => (s.bankFailed (!b) code).halt

/-- The population is valid: twelve channels, or exactly the six even ones, all alike, of a listed type and capacity, and every DIMM
trains (R212); `ch` are the channels that have trained. -/
def popOk (ch : BitVec 12) (t : Training) : Bool :=
  (t.populated == 0xFFF#12 || t.populated == 0x555#12) && ch == t.populated && t.uniform &&
  decide (1 ≤ t.dimmSize.toNat ∧ t.dimmSize.toNat ≤ 6) && decide (1 ≤ t.ddrType.toNat ∧ t.ddrType.toNat ≤ 2)

/-- Channels and stacks whose PLL is locked (R33, R466). -/
def State.trainedMemory (s : State) (t : Training) : MemInfo :=
  let west : BitVec 12 := if s.power.ddrLock.getLsbD 0 then 0x03F#12 else 0#12
  let east : BitVec 12 := if s.power.ddrLock.getLsbD 1 then 0xFC0#12 else 0#12
  let ch := t.ddrCh &&& t.populated &&& (west ||| east)
  let hbm := t.hbmOk &&& s.power.hbmLock
  let pop := popOk ch t
  { s.memInfo with
    hbmOk := hbm, ddrCh := ch, dimmSize := if pop then t.dimmSize.toNat else 0, ddrType := if ch = 0#12 ∨ t.ddrType = 3#2 then 0 else t.ddrType.toNat
    valid := pop && hbm == 0xFF#8, hardRepairs := s.life.hardRepairs + s.memInfo.soft.length, pendingRepairs := 0, soft := [] }

/-- The tiles of a row recorded without a spare (R433). -/
def State.quarantineRow (s : State) (q phys : Nat) : State :=
  ((List.range 25).filter fun y => physRow s q y == phys).foldl
    (fun s y => (rowTilesOf q y).foldl (fun s n => s.modTile n fun t => { t with quarantined := true, cause := 6 }) s) s

/-- The record that M1 is extended with (R472): 4 bytes each, 128 in all (DESIGN CHOICE, log 37). -/
def State.m1Record (s : State) : List Byte :=
  ((List.range 4).flatMap (fun q => leBytes 4 (s.rowMapReg q)) ++ leBytes 4 s.otp.svn ++ leBytes 4 s.sec.rootSlot ++
    leBytes 4 s.otp.revoked.toNat ++ leBytes 4 s.sec.feedId ++ leBytes 4 s.memInfo.cfgReg ++ leBytes 4 (b2n s.sec.bank) ++
    List.replicate 128 0#8).take 128

/-- A booted bank reaches stage 4 (R468). -/
def State.bankReady (s : State) : State :=
  let h := s.sec.header
  let b := s.sec.bank
  if h.pending = some b then
    let s := if h.raiseSvn then
        { s with otp := { s.otp with svn := max s.otp.svn (min 63 s.sec.imageSvn), saturated := s.otp.saturated || decide (63 ≤ s.sec.imageSvn) } } else s
    s.putHeader fun h => { h with active := b, pending := none, raiseSvn := false }
  else if h.active ≠ b then s.putHeader fun h => { h with active := b, pending := none }
  else s

/-- Memory is trained and zeroed but for retired units; the permanent tables hold what is retired; the ports train. -/
def State.memoryUp (s : State) (t : Training) : State :=
  let m := s.trainedMemory t
  let gone : SMap Bool := (s.life.rows.flatMap fun r => r.das.map unitOf).foldl (fun k u => store false k u true) []
  { s with
    memInfo := m, mem := [], poison := gone, retired := gone
    life := { s.life with hardRepairs := m.hardRepairs, barJobs := s.life.permFull }
    journal := { Journal.reset with mirrorOk := m.valid }
    fab := { s.fab with ports := (List.range 8).foldl (fun k p =>
      if s.power.fabLock.getLsbD (p / 4) then k else store Port.reset k p { Port.reset with state := 0 }) s.fab.ports } }

/-- The M1 record is measured; an invalid memory sets its fault. -/
def State.measureMain (s : State) (valid : Bool) : State :=
  let h := sha384 s.m1Record
  { s with sec := { s.sec with m1 := extend zero48 h, log := s.sec.log ++ [(3, h)], memFault := !valid } }

/-- The device is ready: sequences start at 0 and the boot stage is 4. -/
def State.mainReady (s : State) : State :=
  let s := { s with host := { s.host with next := 0#32, state := if s.power.hostLock then 1 else 0 } }
  ({ s with sec := { s.sec with stage := 4 } }).bankReady

/-- The tiers as training leaves them, the rows of the tile table quarantined, and the repairs recorded (R465, R478). -/
def State.memoryFound (s : State) (t : Training) : State :=
  let s1 := s.memoryUp t
  let s2 := s1.life.tileRows.foldl (fun s r => s.quarantineRow r.1 r.2) s1
  s.memInfo.soft.foldl (fun s _ => s.event 6 []) s2

/-- Stage 3 ends: memory is trained and zeroed but for retired units, the permanent tables are read, the ports train, the
BOOT record is written, and the device is ready (R465, R217, R480, R390). -/
def State.mainEnds (s : State) (t : Training) : State :=
  if s.sec.stage ≠ 3 ∨ s.sec.reloading then s
  else
    ((s.memoryFound t).measureMain (s.trainedMemory t).valid).bootRecord.mainReady

/-! ### Warm reset (R391, R462, R463) -/

/-- The watermark of an entry that the reset makes final (R391). -/
def State.resetMark (s : State) (x : Slot) : Nat :=
  if x.state = 1 then 0
  else if x.opcode = opcSTREAM_ARM then
    match (s.job x.job).bind fun j => j.streams.findSome? fun e => match e.2.body with
      | some b => if b.seq = x.seq.toNat then some b.params else none
      | none => none with
    | some p =>
      let h := StreamHdr.parse p
      x.aux * (h.count * h.width) + ((x.bits.filter fun e => e.2).map fun e => h.segBytes e.1).foldl (· + ·) 0
    | none => x.watermark
  else if x.opcode = opcOP_ISSUE ∨ x.opcode = opcROW then countWhere id x.bits
  else x.watermark

/-- The final reply parameters of an entry that the reset makes final, in the layout of its command (R373, R374, R391; DESIGN CHOICE,
log 132): what its slot holds of its progress, and zeros for the rest. -/
def State.resetReply (s : State) (x : Slot) (wm : Nat) : List Byte :=
  match x.opcode with
  | 0x0401 | 0x0316 =>
    let b := match (s.work x.seq.toNat).bind Work.op with
      | some o => o.plainBlock (x.opcode == opcROW)
      | none => x.reply
    b.take 4 ++ leBytes 4 (countWhere id x.bits) ++ (b.drop 8).take 40 ++ leBytes 8 wm ++ leBytes 8 0
  | 0x0210 => armReply wm x.aux
  | 0x0211 | 0x0320 => zeroBlock
  | 0x0221 => xferReply St.partEnd wm
  | 0x0310 | 0x0704 => leBytes 8 0
  | 0x0501 => collReply wm 0 0xFFFF_FFFF 0
  | 0x0503 => leBytes 16 0
  | _ => []

/-- A slot as the reloaded ring holds it: the mirror decides, and the completion bitmap stands in the reserve. -/
def State.reloadSlot (s : State) (i : Nat) (m : Slot) : Slot :=
  let l := s.slot i
  let x := if l.seq = m.seq ∧ l.state ≠ 0 then { m with bits := l.bits, nbits := l.nbits, aux := l.aux, back := none } else { m with back := none }
  if x.state = 1 ∨ x.state = 2 then
    { x with state := 3, status := St.partEnd, reset := true, finish := s.sclk, watermark := s.resetMark x,
             reply := s.resetReply x (s.resetMark x),
             bitmap := decide (x.nbits ≠ 0) }
  else x

/-- The slots that the ring holds after a warm reset: those of the mirror, which decides where they differ (R390); without a mirror
those of the ring itself (R400; DEDUCED, log 155). -/
def State.reloaded (s : State) : SMap Slot :=
  (if s.journal.mirrorOk then s.journal.mirror else s.journal.slots).map fun e => (e.1, s.reloadSlot e.1 e.2)

def Tile.warm (t : Tile) : Tile :=
  { t.clear with next := none, asked := none }

/-- A stream descriptor that waits or runs becomes FAULTED, keeps its generation and loses its shadow. -/
def Stream.warm (x : Stream) : Stream :=
  let x := { x with shadow := none, segLeft := [], cancelBy := [], moving := false, badElems := [], ordered := false, doneXfers := 0 }
  match x.state with
  | .waiting | .running | .cancelling => { x with state := .faulted }
  | _ => x

/-- What a job loses. Registers that take their reset value at every reset level take it. -/
def Job.warm (j : Job) (ended : List Nat) : Job :=
  { j with
    streams := (j.streams.map fun e => (e.1, e.2.warm)), sets := [], early := [], leaving := 0#20, modifying := [], releasing := none
    checkpoint := none, restore := none, bad := j.bad ++ ended
    pair := j.pair.map fun q => { q with sending := none, outbox := [], gone := false, ready := false, receiving := none, got := [], applying := false }
    truncGroups := 0, lastSparse := none, indexOps := 0, abortOps := 0, gmeSteps := 0, gmeDense := 0, jigWritten := 0, jigEscape := 0
    jigZero := 0, assaySkipped := 0, scatterPartials := 0, captureRecords := 0, maskGenLast := 0, itemsTaken := 0, itemsDone := 0
    itemsReturned := 0, takeEmpty := 0, lastProduct := 0, lastOp := 0, lastTiling := .none, barFailed := 0, shownStep := 0, records := 0, setsLost := 0, discards := 0, lastCtx := 15 }

def Ctx.warm (s : State) (k : Ctx) : Ctx :=
  { k with
    queue := [], bad := k.bad ++ k.queue.map (fun q => (q, none)), hay := [], pushes := 0, hlHigh := 0, spillOut := 0, refill := 0, pushWait := 0, popWait := 0
    pushSince := none, popSince := none, phase := 0, markPhase := none, stage := 0, microBatch := 0, spanStart := s.sclk, spanItems := 0
    spanCyc := 0 }

/-- Ports retrain with what their RWS fields and counters hold; flits in flight are lost. -/
def Port.warm (x : Port) (now : Nat) : Port :=
  { x.leaves (if x.enable then 1 else 4) now with
    lanes := 0#4, txSeq := 0, replay := [], txBytes := [], rxSeq := 4095, nakOut := false, sinceAck := 0, replaysInRow := 0
    carrying := [], owed := 0, credit := 0, laneCorr := [], exceeded := 0#4, trainAt := none, barren := [], peerFid := 0xFFF
    peerPort := 0, peerValid := false, margins := 0#32 }

def HostPort.warm (h : HostPort) (now : Nat) : HostPort :=
  { h with
    state := 1, locked := 0#8, held := [], pausedUntil := 0, txHeld := [], rxHigh := false, queued := 0, qps := []
    xfers := h.xfers.map fun e =>
      if e.2.open_ then (e.1, { e.2.stopped with state := 4, status := St.partEnd, lastPacket := none }) else e
    icmpAt := now / sclkSecond }

/-- What a paddock keeps: its counters, to which a stretch that ends here adds, and its readings; it is gated (R430). -/
def Paddock.warm (x : Paddock) (now : Nat) : Paddock :=
  { Paddock.reset with
    tempQc := x.tempQc, tempMaxQc := x.tempMaxQc, stretchEvents := x.stretchEvents
    stretchCycles := sat32 (x.stretchCycles + x.stretchCount now), gated := true }

def Power.warm (w : Power) (now : Nat) : Power :=
  { w with
    level := 64, telemLost := false, rails := [], railPoint := [], railTarget := [], ramps := []
    paddocks := (List.range 20).foldl (fun m p => store Paddock.reset m p ((lookup Paddock.reset w.paddocks p).warm now)) []
    rootLock := false, fabLock := 0#2, ddrLock := 0#2, hbmLock := 0#8, hostLock := false }

def warmCode : WarmCause → Nat
  | .command => 0 | .watchdog _ => 1 | .rootPll => 2 | .relock => 3

/-- The cause of a warm reset stands, and the reply of a `RESET_WARM` has left (R464). -/
def State.warmReady (s : State) (c : WarmCause) : Bool :=
  s.sec.warmPending == some c && !s.sec.resetLow && !s.sec.off &&
  (c != .command || !(s.journal.heldReplies.any fun r => (s.slot r.1).opcode == 0x0805))

/-- What a warm reset leaves of a state in which its event is recorded; `slots` are the journal's and `ended j` the entries of job
`j` that it ends. The next sequence number stays (R354, R366). -/
def State.warmed (s : State) (ended : Nat → List Nat) (slots : SMap Slot) : State :=
  { s with
    jobs := s.jobs.map fun e => (e.1, e.2.map fun j => j.warm (ended e.1))
    ctxs := s.ctxs.map fun e => (e.1, e.2.map fun k => Ctx.warm s k)
    lastJobs := s.lastJobs.map fun e => (e.1, e.2.map fun j => { j.warm [] with truncate := false }), lastCtxs := []
    works := []
    journal := { s.journal with slots := slots, heldReplies := [] }
    tiles := s.tiles.map fun e => (e.1, e.2.warm)
    skips := s.skips.map fun e => (e.1, { Skip.reset with readsCount := e.2.readsCount, drops := e.2.drops, limits := e.2.limits })
    host := s.host.warm s.sclk
    fab := { s.fab with conflict := false, clashing := [], ports := s.fab.ports.map fun e => (e.1, e.2.warm s.sclk), unacked := [], waiting := [] }
    power := s.power.warm s.sclk
    memInfo := { s.memInfo with test := none, writeBack := [], hbmHours := 24, ddrHours := 24 }
    lease := if s.lease.state = 0 then s.lease else
      { s.lease with state := 2, expiry := 0, active := 0#4, lapses := if s.lease.state = 1 then sat32 (s.lease.lapses + 1) else s.lease.lapses }
    latches := [], sbLatches := []
    restricted := true, restrictReason := 1
    life := { s.life with warmResets := sat16 (s.life.warmResets + 1) }
    sec := { s.sec with stage := 0, pllNext := 0, relocking := [], warmPending := none, reloading := true, attesting := [] } }

/-- What a warm reset leaves (R462, R463). -/
def State.doWarm (s : State) (c : WarmCause) : State :=
  let ended (jn : Nat) : List Nat := (s.works.filter fun w => w.job == jn && w.ctx.isSome).map Work.seq
  let slots := s.reloaded
  let paired := (List.range 4).filter fun jn => match (s.job jn).bind Job.pair with | some q => q.state == 1 | none => false
  paired.foldl State.pairTimesOut
    ((List.range 800).foldl State.zeroTile ((s.event 1 (leBytes 1 (warmCode c))).warmed ended slots)).throttleNow

/-- A warm reset: unfinished entries end, tile memories are zeroed, jobs stay. -/
def State.warmReset (s : State) (c : WarmCause) : State :=
  if !s.warmReady c then s
  else
    s.doWarm c

/-- The job table is reloaded: commands are accepted (R463). -/
def State.tableReloaded (s : State) : State :=
  if s.sec.stage ≠ 3 ∨ !s.sec.reloading then s
  else { s with restricted := false, restrictReason := 0, sec := { s.sec with stage := 4, reloading := false }
                power := { s.power with paddocks := s.power.paddocks.map fun e => (e.1, { e.2 with gated := false }) } }

/-! ### Firmware commands (R471) -/

def stageStatus (p : List Byte) : Nat :=
  let o := le p 0 4
  let n := le p 4 4
  firstBad [(o % 256 == 0 && n % 256 == 0 && decide (256 ≤ n ∧ n ≤ 65280) && decide (o + n ≤ bankBytes), St.paramRange)]

def State.stageWrite (s : State) (p : List Byte) : State :=
  let b := !s.sec.header.active
  let o := le p 0 4
  let s := if o ≠ 0 then s
    else
      let s := { s with sec := if b then { s.sec with bankB := [] } else { s.sec with bankA := [] } }
      if s.sec.header.pending = some b then s.putHeader fun h => { h with pending := none } else s
  let d := p.drop 8
  { s with sec := if b then { s.sec with bankB := storeRun 0#8 s.sec.bankB o d } else { s.sec with bankA := storeRun 0#8 s.sec.bankA o d } }

/-- The status that a failed check of R470 gives. -/
def checkStatus (code : Nat) : Nat := if code = 0 then St.done else if code = 8 then St.secRollback else St.secSignature

def State.activateCode (s : State) (revoke : Bool) : Nat :=
  let b := !s.sec.header.active
  if revoke then s.verifyImage b 3 else orElse0 (s.verifyImage b 1) (s.verifyImage b 2)

/-- `FW_ACTIVATE`; `seq` becomes final. -/
def State.activate (s : State) (seq : Nat) (p : List Byte) : State :=
  let b := !s.sec.header.active
  let revoke := bit (le p 0 1) 1
  match s.activateCode revoke with
  | 0 =>
    let s := (s.raiseOtp 1023 Otp.activations fun o v => { o with activations := v }).event 10 (leBytes 1 (b2n b))
    if revoke then
      let slot := le (s.sec.rd b 0 1024) 72 1
      let mask := BitVec.ofNat 4 (le (s.sec.rd b 34240 1) 0 1) &&& ~~~(BitVec.ofNat 4 (2 ^ slot))
      ({ s with otp := { s.otp with revoked := s.otp.revoked ||| mask } }).finish seq St.done []
    else (s.putHeader fun h => { h with pending := some b, raiseSvn := bit (le p 0 1) 0 }).finish seq St.done []
  | code => ({ s with sec := { s.sec with failCode := code } }).finish seq (checkStatus code) []

/-! ### Attestation and identity (R475, R476) -/

def padTo (n : Nat) (l : List Byte) : List Byte := (l ++ List.replicate n 0#8).take n

def State.reportBody (s : State) (nonce : List Byte) : List Byte :=
  let x := s.sec
  padTo 512 (leBytes 4 0x48544154 ++ leBytes 2 1 ++ leBytes 2 x.fwMajor ++ leBytes 2 x.fwMinor ++ leBytes 2 s.otp.svn ++
    leBytes 4 0x4B380001 ++ padTo 16 x.deviceId ++ padTo 48 nonce ++ padTo 48 x.m0 ++ padTo 48 x.m1 ++ leBytes 4 s.otp.coldBoots ++
    leBytes 4 s.life.warmResets ++ leBytes 8 s.poweredS ++ leBytes 8 (s.life.date.getD 0) ++
    (List.range 4).flatMap (fun q => leBytes 4 (s.rowMapReg q)) ++ leBytes 4 s.memInfo.cfgReg ++ leBytes 1 x.feedId ++
    leBytes 1 x.rootSlot ++ leBytes 1 (b2n x.bank) ++ leBytes 1 0 ++ leBytes 4 s.healthReg ++ leBytes 2 s.fab.fid)

def State.startAttest (s : State) (seq : Nat) (p : List Byte) : State :=
  let first := s.sec.attesting.isEmpty
  let s := { s with sec := { s.sec with attesting := s.sec.attesting ++ [(seq, p.take 48)] } }
  if first then s.startEntry seq else s

/-- An attestation report: its body and the two signatures over it (R475). -/
def State.reportOf (s : State) (nonce : List Byte) : List Byte :=
  let body := s.reportBody nonce
  body ++ padTo 384 (Config.aliasSign false s.sec.aliasSeed body) ++ padTo 16224 (Config.aliasSign true s.sec.aliasSeed body)

/-- The oldest report in the making is complete. -/
def State.reportDone (s : State) : State :=
  match s.sec.attesting with
  | [] => s
  | (seq, nonce) :: r =>
    let s := ({ s with sec := { s.sec with report := s.reportOf nonce, attesting := r } }).finish seq St.done []
    match r with
    | (q, _) :: _ => s.startEntry q
    | [] => s

def State.identityObject (s : State) (o : Nat) : List Byte :=
  match o with
  | 6 => s.sec.report
  | 7 => s.sec.log.zipIdx.flatMap fun e => leBytes 8 e.2 ++ leBytes 8 e.1.1 ++ padTo 48 e.1.2
  | o => lookup [] s.sec.certs o

def identityStatus (s : State) (p : List Byte) : Nat :=
  firstBad [(decide (le p 0 1 ≤ 7), St.paramRange), (decide (le p 4 4 ≤ (s.identityObject (le p 0 1)).length), St.paramRange)]

def State.identityReply (s : State) (p : List Byte) : List Byte :=
  let o := s.identityObject (le p 0 1)
  let d := (o.drop (le p 4 4)).take 384
  leBytes 4 o.length ++ leBytes 2 d.length ++ leBytes 2 0 ++ d

/-! ### Hourly records (R478, R479) -/

/-- The largest n below 2^k, from `n` upward in steps of falling powers of two, with n^10 · 1000^10 · lo ≤ i^20 · hi. -/
def rootSearch (i hi lo : Nat) : Nat → Nat → Nat
  | 0, n => n
  | k + 1, n =>
    let m := n + 2 ^ k
    rootSearch i hi lo k (if m ^ 10 * 1000 ^ 10 * lo ≤ i ^ 20 * hi then m else n)

/-- Thousandths of rated-hours of one hour: 1000 · (i / 1000)^2 · 2^((Tj - 85) / 10), rounded down (DESIGN CHOICE, log 37);
`i` is the rail's mean current in thousandths of its rating. -/
def wearHour (i tj : Nat) : Nat := rootSearch i (2 ^ (tj - 85)) (2 ^ (85 - tj)) 40 0

/-- The maximum current of each rail in A, which is its rating (R484). -/
def ratedA : List Nat := [560, 560, 560, 560, 320, 260, 190, 70]

/-- The mean current of a rail over the hour, in thousandths of its rating. -/
def HourSums.load (h : HourSums) (r : Nat) : Nat := (h.currents[r]?).getD 0 / max 1 h.periods / max 1 ((ratedA[r]?).getD 0)

/-- The hottest paddock mean of the hour in °C. -/
def HourSums.hottest (h : HourSums) : Nat := (h.temps.foldl max 0 / (4 * (max 1 h.periods : Nat) : Int)).toNat

/-- The lowest eye margin of a fabric port over the hour: what it holds, and what trainings in the hour have given. -/
def State.lowMargin (s : State) (p : Nat) : Nat :=
  let ms := (s.port p).margin.toList ++ (s.life.hour.margins.filter fun e => e.1 == p).map Prod.snd
  ms.foldl min (ms.head?.getD 0)

/-- Cap-loop periods of 10 µs in a minute. -/
def minutePeriods : Nat := 6000000

/-- One more powered hour is recorded, from what has been read in it. -/
def State.hourly (s : State) (d : HourlyData) : State :=
  if s.sec.resetLow then s
  else
    let sum (l : List Nat) : Nat := l.foldl (· + ·) 0
    let now := [sum (s.memInfo.hbmEcc.map fun e => e.2.corr), sum (s.memInfo.onDie.map Prod.snd), sum (s.memInfo.ddrEcc.map fun e => e.2.corr)]
    let h := s.life.hour
    let l := s.life
    let l := { l with
      minutes := addLists l.minutes (h.bins.map fun n => n / minutePeriods)
      wear := l.wear.zipIdx.map fun w => w.1 + wearHour (h.load w.2) h.hottest
      errTotals := (l.errTotals.zip (now.zip l.errAtLast)).map fun p => p.1 + (if p.2.2 ≤ p.2.1 then p.2.1 - p.2.2 else p.2.1)
      errAtLast := now, poweredH := sat32 (l.poweredH + 1)
      hour := { HourSums.reset with bins := h.bins.map fun n => n % minutePeriods, above80 := h.above80 } }
    let margins := (List.range 8).map s.lowMargin ++ d.hostMargins
    ({ s with life := l }).record 2 (l.minutes.flatMap (leBytes 8) ++ leBytes 8 l.cycles ++ l.errTotals.flatMap (leBytes 8) ++
      margins.flatMap (leBytes 1) ++ l.wear.flatMap (leBytes 8) ++ leBytes 8 l.poweredH)

end Sys2Proof.Machine
end

