-- ==== Sys2Proof/Machine/Csr.lean ====
section
/-! DEFINITION. The registers: what a 32-bit read of each returns (R26, R74, R110, R140, R176, R207, R234, R270, R271, R301,
R302, R342, R366, R400, R430, R461, R483), the capture latches of low and high words, the writes that do something (R16,
R18, R209, R214, R215, R378), and the sideband (R493). -/

namespace Sys2Proof.Machine

/-! ### Addresses -/

/-- The group and the offset in it of a table of `n` groups, `stride` apart. -/
def inGroup (off base stride n : Nat) : Option (Nat × Nat) :=
  if base ≤ off ∧ off < base + stride * n then some ((off - base) / stride, (off - base) % stride) else none

/-- Low and high words of a 64-bit value. -/
def lo32 (v : Nat) : Nat := v % 2 ^ 32
def hi32 (v : Nat) : Nat := v / 2 ^ 32 % 2 ^ 32

/-- The first group that the offset falls in. -/
def orReg (a : Option Nat) (b : Option Nat) : Option Nat := match a with | some v => some v | none => b

/-- Where a register word lies: a block of R214 by its number 1-11 with an offset, or a tile with a window offset. -/
inductive CsrPlace where
  | block (b off : Nat)
  | tileCtl (n off : Nat)
deriving DecidableEq, Repr

def csrPlace (s : State) (da : Nat) : Option CsrPlace :=
  match s.regionOf da with
  | .csr => some (.block ((da - 3 * 2 ^ 48) / 0x1_0000) (da % 0x1_0000))
  | .tile n off => if 0x1F_0000 ≤ off then some (.tileCtl n off) else none
  | _ => none

/-! ### Tiles (R74, R110) -/

def unitCode : ResUnit → Nat
  | .arrayMod3 => 1 | .arrayMod7 => 2 | .vector => 3 | .conversion => 4
  | .parityArray | .parityVector | .parityConversion => 5

def phaseBits : Phase → Nat
  | .idle => 0 | .load => 1 | .compute => 2 | .store => 3

/-- Bit f is set when frame f's header is in a state that `p` admits. -/
def State.frameBits (s : State) (n : Nat) (p : Nat → Bool) : Nat :=
  (List.range 7).foldl (fun a f => a + b2n (p (s.byte (windowDA n (0x11_F810 + 64 * f))).toNat) * 2 ^ f) 0

def Tile.cycles (t : Tile) (i : Nat) : Nat := [t.cycLoad, t.cycCompute, t.cycStore, t.cycIdle].getD i 0

def State.tileReg (s : State) (n off : Nat) : Nat :=
  let t := s.tile n
  let q := quarterOf n
  let jn := if s.sec.reloading then none else s.holder (paddockOf n)
  let job := jn.bind s.job
  let e (i : Nat) : Nat := let c := t.ecc.getD i ⟨0, 0⟩; c.uncorr * 2 ^ 16 + c.corr
  match off - 0x1F_0000 with
  | 0x00 => physRow s q (tileY n) * 2 ^ 27 + paddockOf n * 2 ^ 22 + q * 2 ^ 20 + tileY n * 2 ^ 15 + tileX n * 2 ^ 10 + n
  | 0x04 =>
    ((t.item.bind fun i => (s.work i.op).bind Work.ctx).getD 0) * 2 ^ 20 + jn.getD 0 * 2 ^ 18 + b2n jn.isSome * 2 ^ 17 +
    b2n ((job.map Job.compat).getD false) * 2 ^ 16 + phaseBits t.phase * 2 ^ 14 + min 63 t.round * 2 ^ 8 + min 63 t.slotsUsed
  | 0x08 => match t.item with | some i => i.item | none => 0xFFFF_FFFF
  | 0x0C => (List.range 32).foldl (fun a k => a + b2n (lookup SlotState.free t.slots k != .free) * 2 ^ k) 0
  | 0x10 => t.ftqHigh * 16 + t.ftq.length
  | 0x14 => t.ftqStall
  | 0x18 => t.veStall
  | 0x20 => t.pconfOwn
  | 0x24 => t.pconfAtom
  | 0x28 => t.pconfHost
  | 0x2C => t.pconfMgmt
  | 0x30 => t.pconfWait
  | 0x40 => t.accConf
  | 0x44 => t.accQmax * 2 ^ 16 + t.accFullStall
  | 0x60 => e 0
  | 0x64 => e 1
  | 0x68 => e 2
  | 0x6C => e 3
  | 0x70 => t.eccLastUnit * 2 ^ 28 + b2n t.eccLastUncorr * 2 ^ 27 + t.eccLastOffset
  | 0xC0 => s.frameBits n (· == 2) * 2 ^ 7 + s.frameBits n (· != 0)
  | 0x180 => t.mod7 * 2 ^ 16 + t.mod3
  | 0x184 => t.recovered * 2 ^ 16 + t.retries
  | 0x188 => t.lastUnit * 2 ^ 8 + t.cause * 2 ^ 4 + b2n t.quarantined
  | o =>
    match inGroup o 0xA0 8 4 with
    | some (i, r) => if r = 0 then lo32 (t.cycles i) else if r = 4 then hi32 (t.cycles i) else 0
    | none => 0

/-! ### SEQ (R140, R176, R207, R301, R302) -/

/-- The job whose registers show: the one that exists, or the last released one (R140). -/
def State.shownJob (s : State) (j : Nat) : Job :=
  match s.job j with
  | some x => x
  | none => match lookup none s.lastJobs j with
    | some x => x
    | none => Job.fresh s []

def State.shownCtx (s : State) (c : Nat) : Ctx :=
  match s.ctx c with
  | some x => x
  | none => match lookup none s.lastCtxs c with
    | some x => x
    | none => Ctx.fresh s 0 []

def mib (n : Nat) : Nat := sat32 (ceilDiv n (2 ^ 20))

def sparseReg (j : Job) (off : Nat) : Nat :=
  match off with
  | 0x00 => lo32 (sat 64 j.truncGroups)
  | 0x04 => hi32 (sat 64 j.truncGroups)
  | 0x08 => match j.lastSparse with | some o => lo32 o.da | none => 0
  | 0x0C => match j.lastSparse with | some o => hi32 o.da | none => 0
  | 0x10 =>
    (match j.lastSparse with
     | some o => o.status * 2 ^ 16 + o.bit * 2 ^ 6 + o.operand * 2 ^ 2 + 2
     | none => 0) + b2n j.truncate
  | 0x14 => sat16 j.indexOps * 2 ^ 16 + sat16 j.abortOps
  | _ => 0

def engineReg (j : Job) (off : Nat) : Nat :=
  match off with
  | 0x00 => lo32 (sat 64 j.gmeSteps)
  | 0x04 => hi32 (sat 64 j.gmeSteps)
  | 0x08 => lo32 (sat 64 j.gmeDense)
  | 0x0C => hi32 (sat 64 j.gmeDense)
  | 0x10 => sat32 j.jigWritten
  | 0x14 => sat32 j.jigEscape
  | 0x18 => sat32 j.jigZero
  | 0x1C => sat32 j.assaySkipped
  | 0x20 => sat32 j.scatterPartials
  | 0x24 => sat32 j.captureRecords
  | 0x28 => j.maskGenLast % 2 ^ 32
  | _ => 0

def State.laneReg (s : State) (jn off : Nat) : Nat :=
  let j := s.shownJob jn
  let t := j.lastTiling
  match off with
  | 0x00 =>
    min 255 (s.works.filter fun w => w.job == jn && w.isOp).length * 2 ^ 8 + b2n (((s.job jn).map Job.compat).getD false) * 2 +
    b2n (s.job jn).isSome
  | 0x04 => sat32 j.itemsTaken
  | 0x08 => sat32 j.itemsDone
  | 0x0C => sat32 j.itemsReturned
  | 0x10 => sat32 j.takeEmpty
  | 0x14 => t.mt / 48 % 256 * 2 ^ 24 + t.nt / 48 % 256 * 2 ^ 16 + t.f % 256 * 2 ^ 8 + t.slots % 256
  | 0x18 => t.granule % 2 ^ 16 * 2 ^ 16 + t.kr % 2 ^ 16
  | 0x1C => t.items % 2 ^ 32
  | _ => 0

def State.hlReg (s : State) (c off : Nat) : Nat :=
  let k := s.shownCtx c
  let held (p : HayEntry → Bool) : Nat := mib ((k.hay.filter p).foldl (fun a e => a + e.bytes) 0)
  match off with
  | 0x00 =>
    match s.ctx c with
    | some k => if k.hlBytes = 0 then k.job * 2 ^ 10 else
        k.hay.length * 2 ^ 19 + (k.hay.filter fun e => e.state == 2).length * 2 ^ 14 + k.job * 2 ^ 10 + 1
    | none => 0
  | 0x04 => held fun e => e.placed && !e.spilled
  | 0x08 => held fun e => e.placed && e.spilled
  | 0x0C => mib k.hlHigh
  | 0x10 => mib k.spillOut
  | 0x14 => mib k.refill
  | 0x18 => sat32 k.pushWait
  | 0x1C => sat32 k.popWait
  | _ => 0

def trainReg (j : Job) (off : Nat) : Nat :=
  match off with
  | 0x00 => j.shownStep % 2 ^ 32
  | 0x04 => (j.sets.foldl (fun a g => g.pins.foldl (fun a p => a + p.2.length) a) 0) * 2 ^ 16 + j.sets.length
  | 0x08 => j.records
  | 0x0C => sat32 j.setsLost
  | 0x10 => sat32 j.discards
  | _ => 0

def State.seqReg (s : State) (off : Nat) : Nat :=
  match inGroup off 0x0800 0x20 4, inGroup off 0x0900 0x40 4, inGroup off 0x0A00 0x40 4, inGroup off 0x0C00 0x20 16, inGroup off 0x0E00 0x20 4 with
  | some (j, o), _, _, _, _ => sparseReg (s.shownJob j) o
  | _, some (j, o), _, _, _ => engineReg (s.shownJob j) o
  | _, _, some (j, o), _, _ => s.laneReg j o
  | _, _, _, some (c, o), _ => s.hlReg c o
  | _, _, _, _, some (j, o) => trainReg (s.shownJob j) o
  | _, _, _, _, _ => if off = 0x0F00 then lo32 s.sclk else if off = 0x0F04 then hi32 s.sclk else 0

/-! ### SKIP and STP (R270, R271) -/

def State.skipReg (s : State) (off : Nat) : Nat :=
  let st (k : Nat) : Nat := (s.skip k).staged.foldl (fun a g => a + g.bytes.length) 0
  if off = 0 then s.restrictReason * 2 + b2n s.restricted
  else match inGroup off 0x0100 4 48, inGroup off 0x0200 4 48, inGroup off 0x0300 4 48, inGroup off 0x0400 4 48 with
  | some (k, 0), _, _, _ =>
    let b := if k < 32 then st (k / 2 * 2) + st (k / 2 * 2 + 1) else st k
    min 512 (ceilDiv b 4096) * 2 ^ 21 + (s.skip k).issued.length * 2 ^ 11 + (s.skip k).reads.length
  | _, some (k, 0), _, _ => (s.skip k).readsCount
  | _, _, some (k, 0), _ => (s.skip k).drops
  | _, _, _, some (k, 0) => (s.skip k).limits
  | _, _, _, _ =>
    match inGroup off 0x1000 0x200 4, inGroup off 0x1800 4 4 with
    | some (j, o), _ =>
      let x := (s.shownJob j).stream (o / 8)
      if o % 8 = 0 then x.gen % 2 ^ 16 * 2 ^ 16 + b2n x.ordered * 2 ^ 5 + b2n x.shadow.isSome * 2 ^ 4 + streamCode x.state
      else if o % 8 = 4 then sat32 x.doneXfers else 0
    | _, some (j, 0) =>
      sat16 (s.shownJob j).barFailed * 2 ^ 16 + sat16 (s.works.filter fun w => w.job == j && w.opcode == opcBARRIER).length
    | _, _ => 0

def State.stpReg (s : State) (off : Nat) : Nat :=
  match off with
  | 0x00 => lo32 (sat 64 s.stpMessages)
  | 0x04 => hi32 (sat 64 s.stpMessages)
  | 0x08 => sat32 s.stpWaitMax
  | 0x0C => sat32 s.stpYield
  | _ => 0

/-! ### FAB and HOSTP (R342, R366) -/

def portReg (x : Port) (off : Nat) : Nat :=
  match off with
  | 0x00 => x.limitExp * 2 ^ 8 + x.minLanes * 2 ^ 4 + b2n x.enable
  | 0x04 =>
    x.peerFid * 2 ^ 20 + x.peerPort * 2 ^ 17 + b2n x.peerValid * 2 ^ 16 + x.lanes.toNat * 2 ^ 12 + x.dropped.toNat * 2 ^ 8 + x.state
  | 0x08 => sat32 x.fecCorr
  | 0x0C => sat32 x.fecUncorr
  | 0x10 => sat32 x.crcErr
  | 0x14 => sat32 x.replayCount
  | 0x18 => sat16 x.retrains * 2 ^ 16 + sat16 x.laneDrops
  | 0x1C => x.margins.toNat
  | _ => 0

def Route.reg (r : Route) : Nat := b2n r.valid * 2 ^ 7 + r.primary * 2 ^ 4 + b2n r.altValid * 2 ^ 3 + r.alt

def mapReg (j : Job) (off : Nat) : Nat :=
  match off with
  | 0x00 => j.mapping.epoch % 2 ^ 16 * 2 ^ 16 + j.attempt % 2 ^ 16
  | 0x04 => sat32 j.collDone
  | 0x08 => sat32 j.collFailed
  | 0x0C => sat32 j.collAborts
  | 0x10 => sat32 j.collWaitMax
  | _ => 0

def State.fabReg (s : State) (off : Nat) : Nat :=
  match inGroup off 0x0100 0x40 8, inGroup off 0x1000 4 4095, inGroup off 0x6000 0x20 4 with
  | some (p, o), _, _ => portReg (s.port p) o
  | _, some (f, 0), _ => (s.route f).reg
  | _, _, some (j, o) => mapReg (s.shownJob j) o
  | _, _, _ =>
    match off with
    | 0x00 => b2n s.fab.conflict * 2 ^ 12 + s.fab.fid
    | 0x04 => s.fab.drop
    | 0x08 => s.fab.noRoute
    | _ => 0

def HostPort.ctlReg (h : HostPort) : Nat :=
  h.pfcPrio * 2 ^ 12 + b2n h.pfcEn * 2 ^ 11 + b2n h.vlanEn * 2 ^ 10 + h.mtu * 2 ^ 8 + b2n h.mode

def State.hostpReg (s : State) (off : Nat) : Nat :=
  let h := s.host
  match inGroup off 0x0100 4 21, inGroup off 0x0400 4 64, inGroup off 0x0800 4 256 with
  | some (i, 0), _, _ => lookup 0 h.counts i
  | _, some (i, 0), _ => let q := s.qp i; q.state * 2 ^ 30 + q.job * 2 ^ 24 + q.epsn
  | _, _, some (k, 0) => let x := s.xfer k; x.gen * 2 ^ 8 + x.job * 2 ^ 4 + b2n x.read * 2 ^ 3 + x.state
  | _, _, _ =>
    match off with
    | 0x00 => h.ctlReg
    | 0x04 => h.locked.toNat * 2 ^ 16 + b2n h.modeActive * 2 ^ 3 + h.state
    | 0x08 => lo32 h.mac.toNat
    | 0x0C => hi32 h.mac.toNat
    | 0x10 => h.next.toNat
    | 0x14 => h.pcp * 2 ^ 12 + h.vid
    | _ => 0

/-! ### PWR and CLK (R430) -/

def tempBits (t : Int) : Nat := (BitVec.ofInt 16 t).toNat

def State.pwrReg (s : State) (off : Nat) : Nat :=
  let w := s.power
  match inGroup off 0x0010 4 8, inGroup off 0x0100 8 6, inGroup off 0x0200 8 20, inGroup off 0x0300 4 20 with
  | some (r, 0), _, _, _ => let x := lookup (⟨0, 0, 0⟩ : Rail) w.rails r; sat16 x.mv * 2 ^ 16 + sat16 (x.mw / 125)
  | _, some (r, o), _, _ =>
    let v := ((s.throttleOne r).throttle r).accUs
    if o = 0 then lo32 v else if o = 4 then hi32 v else 0
  | _, _, some (p, o), _ =>
    let x := s.paddock p
    if o = 0 then x.stretchEvents else if o = 4 then sat32 (x.stretchCycles + x.stretchCount s.sclk) else 0
  | _, _, _, some (p, 0) => let x := s.paddock p; tempBits x.tempMaxQc * 2 ^ 16 + tempBits x.tempQc
  | _, _, _, _ =>
    match off with
    | 0x000 => w.thermalC * 2 ^ 16 + w.maxPoint * 2 ^ 12 + w.capW
    | 0x004 => b2n w.telemLost * 2 ^ 7 + w.level
    | 0x008 => sat16 (w.packageMw / 125)
    | 0x040 => w.hold * 2 ^ 8 + w.thresh
    | 0x044 => w.freqChanges
    | 0x048 => w.heldCount
    | 0x04C => sat32 w.heldMax
    | 0x050 => w.replaced
    | 0x400 => lo32 (sat 64 (w.energyNj / 1000))
    | 0x404 => hi32 (sat 64 (w.energyNj / 1000))
    | 0x408 => lo32 (sat 64 (w.overheadNj / 1000))
    | 0x40C => hi32 (sat 64 (w.overheadNj / 1000))
    | _ => 0

def State.clkReg (s : State) (off : Nat) : Nat :=
  let w := s.power
  match inGroup off 0x0100 4 20 with
  | some (p, 0) =>
    let x := s.paddock p
    x.div * 2 ^ 16 + x.granted * 2 ^ 13 + x.requested * 2 ^ 10 + x.level * 2 ^ 8 + b2n x.heldSince.isSome * 2 ^ 7 +
    b2n (!s.held p || x.gated) * 2 ^ 6 + x.limitBits
  | _ =>
    match off with
    | 0x0 =>
      b2n w.hostLock * 2 ^ 14 + b2n w.refclkOk * 2 ^ 13 + w.hbmLock.toNat * 2 ^ 5 + w.ddrLock.toNat * 2 ^ 3 + w.fabLock.toNat * 2 + b2n w.rootLock
    | 0x4 => w.loss
    | _ => 0

/-! ### RES (R26, R234, R461) -/

def eccReg (c : EccCount) : Nat := sat16 c.uncorr * 2 ^ 16 + sat16 c.corr

/-- `RES_JOBj_STATE` (R441, R460). -/
def State.jobStateReg (s : State) (jn : Nat) : Nat :=
  let j := s.shownJob jn
  let live := (s.job jn).isSome
  let cover := match j.pair with | some q => q.state != 0 && s.pairCovered j q | none => false
  let pairSt := match j.pair with | some q => q.state | none => 0
  let role := match j.pair with | some q => q.secondary | none => false
  let copy := j.checkpoint.isSome || (match j.pair with | some q => q.sending.isSome || q.receiving.isSome | none => false)
  ((j.stateSet.map StateSet.newest).getD 0) * 2 ^ 12 + b2n copy * 2 ^ 11 + b2n cover * 2 ^ 10 + pairSt * 2 ^ 8 + b2n role * 2 ^ 7 +
  j.peerState * 2 ^ 5 + b2n (!j.touched && !j.poisonState) * 2 ^ 4 + b2n j.poisonState * 2 ^ 3 + b2n j.touched * 2 ^ 2 +
  b2n (live && s.fenced jn)

/-- The step of the newest valid checkpoint slot. -/
def StateSet.newestStep (t : StateSet) : Nat := match t.newest with | 1 => t.stepA | 2 => t.stepB | _ => 0

def State.jobReg (s : State) (jn off : Nat) : Nat :=
  let j := s.shownJob jn
  match off with
  | 0x00 => s.jobStateReg jn
  | 0x04 => j.committed % 2 ^ 32
  | 0x08 => ((j.stateSet.map StateSet.newestStep).getD 0) % 2 ^ 32
  | 0x0C => sat32 j.intervalMs
  | 0x10 => sat32 j.costMs
  | 0x14 => sat32 j.mtbfS
  | 0x18 => match j.stateSet with | some t => sat32 (s.eventCount j t.history) | none => 0
  | 0x1C => match j.pair with
    | some q => if q.secondary then (match q.newestImage with | some i => i.2 % 2 ^ 32 | none => 0) else q.sentStep % 2 ^ 32
    | none => 0
  | 0x20 => sat16 j.lost.length * 2 ^ 16 + (match j.lost with | [] => 0xFFFF | d :: r => r.foldl min d)
  | 0x24 => sat32 j.holdCycles
  | 0x28 => if j.policy = 2 ∧ j.peerState = 1 then ceilDiv (j.lostAt + j.waitS * sclkSecond - s.sclk) sclkSecond else 0
  | _ => 0

def State.resReg (s : State) (off : Nat) : Nat :=
  let m := s.memInfo
  match inGroup off 0x0040 4 4, inGroup off 0x0110 4 8, inGroup off 0x0130 4 12, inGroup off 0x0160 4 8, inGroup off 0x0200 4 25,
      inGroup off 0x0400 0x40 4 with
  | some (q, 0), _, _, _, _, _ => s.rowMapReg q
  | _, some (h, 0), _, _, _, _ => eccReg (lookup ⟨0, 0⟩ m.hbmEcc h)
  | _, _, some (c, 0), _, _, _ => eccReg (lookup ⟨0, 0⟩ m.ddrEcc c)
  | _, _, _, some (h, 0), _, _ => sat32 (lookup 0 m.onDie h)
  | _, _, _, _, some (w, 0), _ => (List.range 32).foldl (fun a b => a + b2n (s.tile (32 * w + b)).quarantined * 2 ^ b) 0
  | _, _, _, _, _, some (j, o) => s.jobReg j o
  | _, _, _, _, _, _ =>
    match off with
    | 0x100 => m.cfgReg
    | 0x104 => m.hbmHours * 2 ^ 8 + m.ddrHours
    | 0x180 => m.poisonUsed
    | 0x184 => lo32 m.lastDa
    | 0x188 => hi32 m.lastDa
    | 0x18C => m.lastTier * 2 ^ 30 + m.lastUnit * 2 ^ 26 + m.lastPc * 2 ^ 20 + m.lastKind * 2 ^ 18 + b2n (m.lastTier != 0)
    | 0x190 => sat 12 s.retired.length * 2 ^ 20 + sat 10 m.hardRepairs * 2 ^ 10 + m.pendingRepairs
    | 0x280 => s.healthReg
    | 0x284 => s.sec.feedId
    | 0x288 =>
      (if s.lease.state = 1 then sat 24 ((s.lease.expiry - s.sclk) / msCycles) else 0) * 2 ^ 8 + s.lease.active.toNat * 2 ^ 4 + s.lease.state
    | 0x28C => lo32 s.lease.nonce.toNat
    | 0x290 => s.lease.lapses
    | 0x294 => hi32 s.lease.nonce.toNat
    | _ => 0

/-! ### SEC, LIFE, JRNL (R483, R400) -/

def word4 (b : List Byte) (w : Nat) : Nat := le b (4 * w) 4

def State.secReg (s : State) (off : Nat) : Nat :=
  let x := s.sec
  match inGroup off 0x0100 4 12, inGroup off 0x0140 4 12, inGroup off 0x0180 4 4 with
  | some (w, 0), _, _ => word4 x.m0 w
  | _, some (w, 0), _ => word4 x.m1 w
  | _, _, some (w, 0) => word4 x.deviceId w
  | _, _, _ =>
    match off with
    | 0x0 => x.bootReg
    | 0x4 => x.imageSvn * 2 ^ 8 + s.otp.svn
    | 0x8 =>
      (List.range 4).foldl (fun a k => a + b2n (match s.otp.roots[k]? with | some (some _) => true | _ => false) * 2 ^ (8 + k)) 0 +
      s.otp.revoked.toNat * 2 ^ 4 + x.rootSlot
    | _ => 0

def State.lifeReg (s : State) (off : Nat) : Nat :=
  let l := s.life
  match off with
  | 0x00 => b2n l.permFull * 16 + b2n s.otp.saturated * 8 + b2n l.flashErr * 4 + b2n l.bootRec * 2 + b2n l.date.isSome
  | 0x04 => l.warmResets * 2 ^ 16 + s.otp.coldBoots
  | 0x08 => lo32 (l.date.getD 0)
  | 0x0C => hi32 (l.date.getD 0)
  | 0x10 => l.poweredH
  | 0x14 => l.ringTotal
  | 0x18 => s.otp.thermalShutdowns * 2 ^ 20 + s.otp.faultShutdowns * 2 ^ 10 + s.otp.activations
  | _ => 0

/-- `OLDEST_SEQ` of R395. -/
def State.oldestSeq (s : State) : Nat := if s.journal.accepted < 65536 then 0 else (s.host.next - 65536#32).toNat

def State.inState (s : State) (n : Nat) : Nat := countWhere (fun x : Slot => x.state == n) s.journal.slots

def State.jrnlReg (s : State) (off : Nat) : Nat :=
  let j := s.journal
  match off with
  | 0x00 => s.oldestSeq
  | 0x04 => s.inState 2 * 2 ^ 16 + s.inState 1
  | 0x08 => j.accepted
  | 0x0C => j.full
  | 0x10 => j.dupReplies
  | 0x14 => sat16 j.lagMaxUs * 2 ^ 16 + b2n j.mirrorOk
  | 0x18 => j.poolHighMib * 2 ^ 16 + ceilDiv s.poolUsed (2 ^ 20)
  | _ => 0

/-! ### Reading -/

/-- The current value of a register word; a word that no table lists reads as 0 (R215). -/
def State.regNow (s : State) (p : CsrPlace) : Nat :=
  (match p with
   | .tileCtl n off => s.tileReg n off
   | .block 1 off => s.seqReg off
   | .block 2 off => s.skipReg off
   | .block 3 off => s.stpReg off
   | .block 4 off => s.fabReg off
   | .block 5 off => s.hostpReg off
   | .block 6 off => s.pwrReg off
   | .block 7 off => s.clkReg off
   | .block 8 off => s.resReg off
   | .block 9 off => s.secReg off
   | .block 10 off => s.lifeReg off
   | .block 11 off => s.jrnlReg off
   | .block _ _ => 0) % 2 ^ 32

/-- How far above a low word its captured high word lies: 0 for every other register. -/
def pairGap (p : CsrPlace) : Nat :=
  match p with
  | .tileCtl _ off => match inGroup off 0x1F_00A0 8 4 with | some (_, 0) => 4 | _ => 0
  | .block 1 off =>
    if off = 0x0F00 then 4
    else match inGroup off 0x0800 0x20 4, inGroup off 0x0900 0x40 4 with
      | some (_, 0), _ => 4
      | _, some (_, 0) => 4
      | _, some (_, 8) => 4
      | _, _ => 0
  | .block 3 off => if off = 0 then 4 else 0
  | .block 6 off =>
    if off = 0x400 ∨ off = 0x408 then 4 else match inGroup off 0x0100 8 6 with | some (_, 0) => 4 | _ => 0
  | .block 8 off => if off = 0x28C then 8 else 0
  | _ => 0

def CsrPlace.up (p : CsrPlace) (n : Nat) : CsrPlace :=
  match p with
  | .block b off => .block b (off + n)
  | .tileCtl t off => .tileCtl t (off + n)

/-- Reads a word through a set of capture latches: a low word captures the value of its high word, and the next read of the
high word returns the captured value. A captured value v is kept as v + 1. -/
def State.readReg (s : State) (latches : SMap Nat) (da : Nat) : Nat × SMap Nat :=
  match csrPlace s da with
  | none => (0, latches)
  | some p =>
    let gap := pairGap p
    if gap ≠ 0 then (s.regNow p, store 0 latches (da + gap) (s.regNow (p.up gap) + 1))
    else match lookup 0 latches da with
      | 0 => (s.regNow p, latches)
      | v + 1 => (v, store 0 latches da 0)

/-- Consecutive words. -/
def State.readRegs (s : State) (latches : SMap Nat) (da : Nat) : Nat → List Nat × SMap Nat
  | 0 => ([], latches)
  | n + 1 =>
    let r := s.readReg latches da
    let q := s.readRegs r.2 (da + 4) n
    (r.1 :: q.1, q.2)

/-- The checks of R18 and R209 on `n` register words. -/
def csrStatus (s : State) (da n : Nat) : Nat :=
  firstBad
    [ (da % 4 == 0, St.paramAlign),
      ((List.range n).all fun i => (csrPlace s (da + 4 * i)).isSome, St.paramTarget) ]

/-- `CSR_READ` of words that exist (R378). -/
def State.csrRead (s : State) (da n : Nat) : State × List Byte :=
  let r := s.readRegs s.latches da n
  ({ s with latches := r.2 }, r.1.flatMap (leBytes 4))

/-! ### Writing -/

def Tile.clrPhase (t : Tile) : Tile := { t with cycLoad := 0, cycCompute := 0, cycStore := 0, cycIdle := 0 }
def Tile.clrFtq (t : Tile) : Tile := { t with ftqHigh := 0, ftqStall := 0, veStall := 0 }
def Tile.clrAcc (t : Tile) : Tile := { t with accConf := 0, accQmax := 0, accFullStall := 0 }
def Tile.clrPort (t : Tile) : Tile := { t with pconfOwn := 0, pconfAtom := 0, pconfHost := 0, pconfMgmt := 0, pconfWait := 0 }

def State.stpClear (s : State) : State := { s with stpMessages := 0, stpWaitMax := 0, stpYield := 0 }

/-- A field of a written word, and whether the mask touches it. -/
structure FieldWrite where
  value : Nat
  hit : Bool

/-- The field [hi:lo] after a write of `v` under a mask onto the current word. -/
def fieldWrite (cur v mask hi lo : Nat) : FieldWrite :=
  let m := field mask hi lo
  let all := 2 ^ (hi + 1 - lo) - 1
  { value := (field v hi lo &&& m) ||| (field cur hi lo &&& (all ^^^ m)), hit := m != 0 }

/-- Puts a field whose range is [lo, hi]: a value outside it leaves the field unchanged. -/
def ranged (f : FieldWrite) (old lo hi : Nat) : Nat := if lo ≤ f.value ∧ f.value ≤ hi then f.value else old
def inRange (f : FieldWrite) (lo hi : Nat) : Bool := !f.hit || decide (lo ≤ f.value ∧ f.value ≤ hi)

/-- Runs `f` when a condition holds. -/
def State.onlyIf (s : State) (c : Bool) (f : State → State) : State := if c then f s else s

/-- A write of `FAB_PORTp_CTL`. -/
def State.writePortCtl (s : State) (p cur v m : Nat) : State × Nat :=
  let lim := fieldWrite cur v m 11 8
  let min_ := fieldWrite cur v m 5 4
  let en := fieldWrite cur v m 0 0
  let s := s.modPort p fun x => { x with limitExp := lim.value, minLanes := ranged min_ x.minLanes 0 2 }
  let s := s.onlyIf en.hit fun s => s.enablePort p (en.value == 1)
  let s := s.onlyIf (bit (v &&& m) 1) fun s => s.retrain p true
  (s, if inRange min_ 0 2 then St.done else St.paramRange)

def State.writeRoute (s : State) (f cur v m : Nat) : State :=
  let r : Route := { valid := (fieldWrite cur v m 7 7).value == 1, primary := (fieldWrite cur v m 6 4).value,
                     altValid := (fieldWrite cur v m 3 3).value == 1, alt := (fieldWrite cur v m 2 0).value }
  let was := (s.portFor f).isSome
  ({ s with fab := { s.fab with routes := store Route.none s.fab.routes f r,
                                routedAt := if was then store 0 s.fab.routedAt f s.sclk else s.fab.routedAt } }).retryWaiting

/-- A write of `HOSTP_CTL`; `MODE` takes effect at the next retrain. -/
def State.writeHostCtl (s : State) (cur v m : Nat) : State × Nat :=
  let mtu := fieldWrite cur v m 9 8
  let s := { s with host := { s.host with
    pfcPrio := (fieldWrite cur v m 14 12).value, pfcEn := (fieldWrite cur v m 11 11).value == 1
    vlanEn := (fieldWrite cur v m 10 10).value == 1, mtu := ranged mtu s.host.mtu 0 2, mode := (fieldWrite cur v m 0 0).value == 1 } }
  (s.onlyIf (bit (v &&& m) 1) State.hostRetrain, if inRange mtu 0 2 then St.done else St.paramRange)

/-- A write of the bits that the mask sets to a register word, and its status; a write of a read-only field, or of a word
that no table lists, is ignored (R16, R215). -/
def State.writeReg (s : State) (p : CsrPlace) (v m : Nat) : State × Nat :=
  let cur := s.regNow p
  let w := v &&& m
  match p with
  | .tileCtl n 0x1F_00F0 =>
    let s := s.onlyIf (bit w 3) fun s => s.modTile n Tile.clrPhase
    let s := s.onlyIf (bit w 2) fun s => s.modTile n Tile.clrFtq
    let s := s.onlyIf (bit w 1) fun s => s.modTile n Tile.clrAcc
    (s.onlyIf (bit w 0) fun s => s.modTile n Tile.clrPort, St.done)
  | .block 3 0x10 => (s.onlyIf (bit w 0) State.stpClear, St.done)
  | .block 4 0 =>
    let f := fieldWrite cur v m 11 0
    (s.onlyIf f.hit fun s => s.writeFid f.value, St.done)
  | .block 4 off =>
    (match inGroup off 0x0100 0x40 8, inGroup off 0x1000 4 4095 with
     | some (p, 0), _ => s.writePortCtl p cur v m
     | _, some (f, 0) => (s.writeRoute f cur v m, St.done)
     | _, _ => (s, St.done))
  | .block 5 0 => s.writeHostCtl cur v m
  | .block 5 0x14 =>
    ({ s with host := { s.host with pcp := (fieldWrite cur v m 14 12).value, vid := (fieldWrite cur v m 11 0).value } }, St.done)
  | .block 6 0x40 =>
    let h := fieldWrite cur v m 15 8
    let t := fieldWrite cur v m 3 0
    ({ s with power := { s.power with hold := ranged h s.power.hold 2 255, thresh := ranged t s.power.thresh 4 15 } },
     if inRange h 2 255 && inRange t 4 15 then St.done else St.paramRange)
  | .block 8 0x104 =>
    let h := fieldWrite cur v m 15 8
    let d := fieldWrite cur v m 7 0
    ({ s with memInfo := { s.memInfo with hbmHours := ranged h s.memInfo.hbmHours 1 168, ddrHours := ranged d s.memInfo.ddrHours 1 168 } },
     if inRange h 1 168 && inRange d 1 168 then St.done else St.paramRange)
  | _ => (s, St.done)

/-- `CSR_WRITE` of a word that exists (R378). -/
def State.csrWrite (s : State) (da v m : Nat) : State × Nat :=
  match csrPlace s da with
  | some p => s.writeReg p v m
  | none => (s, St.paramTarget)

/-! ### The sideband (R493) -/

/-- The sideband answers from stage 1 onward, while RESET_N is high. -/
def State.sidebandUp (s : State) : Bool := !s.sec.resetLow && s.sec.stage != 0

/-- The device acknowledges an address: its own, and it answers. -/
def State.sidebandHears (s : State) (address : BitVec 7) : Bool := s.sidebandUp && address.toNat == 0x58 + s.sec.sbAddr

/-- A private write of exactly 8 bytes sets the pointer; every other write is not acknowledged. -/
def State.sidebandWrite (s : State) (w : SbWrite) : State :=
  if s.sidebandHears w.address && w.bytes.length == 8 then { s with sbPointer := leNat w.bytes / 4 * 4 }.send (.sidebandAck true)
  else s.send (.sidebandAck false)

/-- A private read of up to 64 words. -/
def State.sidebandRead (s : State) (q : SbRead) : State :=
  if !s.sidebandHears q.address then s.send (.sidebandAck false)
  else
    let k := min 64 q.words
    let r := s.readRegs s.sbLatches s.sbPointer k
    ({ s with sbLatches := r.2, sbPointer := s.sbPointer + 4 * k }).send (.sideband (r.1.map (BitVec.ofNat 32)))

end Sys2Proof.Machine
end

