-- ==== Sys2Proof/Machine/Journal.lean ====
section
/-! DEFINITION. The journal as bytes and on its way to the host: entries and mirror records (R387, R389), replies (R351,
R354, R372), and the commands that read the journal and the device (R375, R395-R397). -/

namespace Sys2Proof.Machine

/-! ### Entries as bytes (R387) -/

def Slot.flags (x : Slot) : Nat := b2n x.notify + 2 * b2n x.shadowed + 4 * b2n x.bitmap + 8 * b2n x.reset

def Slot.bytes (x : Slot) : List Byte :=
  leBytes 4 x.seq.toNat ++ leBytes 2 x.opcode ++ leBytes 1 x.job ++ leBytes 1 x.ctx ++ leBytes 1 x.state ++ leBytes 1 x.flags ++
  leBytes 2 x.status ++ leBytes 4 x.object ++ leBytes 8 x.accept ++ leBytes 8 x.start ++ leBytes 8 x.finish ++ leBytes 8 x.watermark

/-- The mirror record of a slot (R389). -/
def Slot.record (x : Slot) : List Byte := padTo 512 (x.bytes ++ leBytes 2 x.reply.length ++ leBytes 14 0 ++ x.reply)

/-! ### Replies -/

/-- The 32-byte header of a reply, big-endian, with `crc` in its last field (R15, R351). Of `WFLAGS` it carries REPLY, FINAL and
DUP (DEDUCED, log 44: the bits by which a command asks are clear in its reply). -/
def Reply.header (r : Reply) (crc : Nat) : List Byte :=
  beBytes 2 0x574F ++ [0x01#8] ++ leBytes 1 (1 + 8 * b2n r.final + 16 * b2n r.dup) ++ beBytes 2 r.opcode ++ [r.job, r.ctx] ++
  beBytes 4 r.seq.toNat ++ beBytes 4 r.params.length ++ beBytes 8 r.tag.toNat ++ beBytes 2 r.status ++ beBytes 2 0 ++ beBytes 4 crc

/-- The reply on the wire: its header and its parameters, which stay little-endian. -/
def Reply.bytes (r : Reply) : List Byte := r.header (crc32c (r.header 0 ++ r.params)).toNat ++ r.params

/-- A frame that the port sends; while it is DOWN or TRAINING nothing is sent, and the frame is lost (R344). -/
def State.sendReply (s : State) (r : Reply) : State := if s.hostUp then s.tx (.woror r r.bytes) else s

/-- The reply to a packet: to where it came from, with its own header fields. -/
def answerTo (p : Packet) (opcode : Nat) : Reply :=
  { src := p.dst, dst := p.src, mac := p.srcMac, port := p.srcPort, opcode := opcode, job := p.job, ctx := p.ctx, seq := p.seq, tag := p.tag,
    status := 0, final := true, dup := false, params := [] }

/-- A reply that no journal entry stands behind leaves at once (R352, R353, R355, R388). -/
def State.refuse (s : State) (opcode : Nat) (p : Packet) (status : Nat) : State :=
  s.sendReply { answerTo p opcode with status := status }

/-- What a slot reports: the final status with its parameters, or `ACCEPTED` with the acceptance parameters. -/
def Slot.report (x : Slot) (r : Reply) : Reply :=
  if x.state = 3 then { r with status := x.status, final := true, params := x.reply }
  else { r with status := St.accepted, final := false, params := x.reply }

/-- The mirror record holds what the slot reports. -/
def State.mirrored (s : State) (i : Nat) : Bool :=
  let x := s.slot i
  let m := lookup Slot.empty s.journal.mirror i
  m.seq == x.seq && m.state == x.state && m.status == x.status && m.reply == x.reply

/-- A reply leaves when its mirror record is written; at once when it is, or when no mirror is in use (R389, R400). -/
def State.replyFor (s : State) (i : Nat) (r : Reply) : State :=
  if !s.journal.mirrorOk ∨ s.mirrored i then s.sendReply r
  else { s with journal := { s.journal with heldReplies := s.journal.heldReplies ++ [(i, s.sclk, r)] } }

/-- Without a mirror no reply is held. -/
def State.flushReplies (s : State) : State :=
  if s.journal.mirrorOk then s
  else (s.journal.heldReplies.map fun h => h.2.2).foldl State.sendReply { s with journal := { s.journal with heldReplies := [] } }

/-- The mirror record of a slot is written; the replies that it holds back leave (R389). -/
def State.mirrorWrite (s : State) (i : Nat) : State :=
  if !s.journal.mirrorOk then s
  else
    let x := s.slot i
    let s := s.write (s.reserveBase + 512 * i) x.record
    let mine := s.journal.heldReplies.filter fun h => h.1 == i
    let lag := mine.foldl (fun a h => max a (ceilDiv (s.sclk - h.2.1) 700)) s.journal.lagMaxUs
    let s := { s with journal := { s.journal with
      mirror := store Slot.empty s.journal.mirror i x, heldReplies := s.journal.heldReplies.filter fun h => h.1 != i, lagMaxUs := lag } }
    (mine.map fun h => h.2.2).foldl State.sendReply s

/-! ### Reading commands (R375, R395-R397) -/

def boolBits (l : List Bool) : Nat := l.foldr (fun b a => b2n b + 2 * a) 0

def State.deviceInfo (s : State) : List Byte :=
  let free := (List.range 20).map fun p => (s.holder p).isNone
  padTo 64 (leBytes 4 0x4B38_0001 ++ leBytes 2 Config.siliconRev.toNat ++ leBytes 2 s.sec.fwMajor ++ leBytes 2 s.sec.fwMinor ++
    leBytes 2 s.fab.fid ++ leBytes 2 s.workingTiles ++ leBytes 2 0 ++ leBytes 4 (boolBits free) ++
    leBytes 1 (boolBits ((List.range 4).map fun j => (s.job j).isSome)) ++ leBytes 1 0 ++
    leBytes 2 (boolBits ((List.range 16).map fun c => (s.ctx c).isSome)) ++ leBytes 4 s.memInfo.cfgReg ++
    leBytes 4 s.memInfo.ddrGiB ++ leBytes 4 s.otp.coldBoots ++ leBytes 4 s.life.warmResets)

def State.journalInfo (s : State) : List Byte :=
  leBytes 4 s.host.next.toNat ++ leBytes 4 s.oldestSeq ++ leBytes 2 (s.inState 1) ++ leBytes 2 (s.inState 2) ++
  leBytes 4 s.otp.coldBoots ++ leBytes 4 s.life.warmResets ++ leBytes 4 ((poolBytes - s.poolUsed) / 1024) ++ leBytes 8 0

def journalReadStatus (p : List Byte) : Nat :=
  firstBad
    [ (decide (1 ≤ le p 4 2 ∧ le p 4 2 ≤ 16), St.paramRange),
      (!bit (le p 6 2) 0 || le p 4 2 == 1, St.paramRange) ]

def State.journalRead (s : State) (p : List Byte) : List Byte :=
  let at_ (k : Nat) : Nat := slotIx (le p 0 4 + k)
  let slots := (List.range (le p 4 2)).flatMap fun k => (s.slot (at_ k)).bytes
  if bit (le p 6 2) 0 then
    let r := (if s.journal.mirrorOk then lookup Slot.empty s.journal.mirror (at_ 0) else s.slot (at_ 0)).reply
    slots ++ leBytes 2 r.length ++ r
  else slots

/-- The entry's kind has a completion bitmap (R392). -/
def hasBitmap (opcode : Nat) : Bool := opcode == opcOP_ISSUE || opcode == opcROW || opcode == opcSTREAM_ARM

def State.bitmapStatus (s : State) (p : List Byte) : Nat :=
  match s.entry (le p 0 4) with
  | none => St.stateSeqStale
  | some x =>
    firstBad
      [ (hasBitmap x.opcode, St.stateNoBitmap),
        (le p 4 4 % 8 == 0, St.paramAlign),
        (decide (le p 4 4 < x.nbits), St.paramRange) ]

/-- An entry that ended with `DONE` reports every bit as set (R394). -/
def Slot.bitAt (x : Slot) (i : Nat) : Bool := if x.state = 3 ∧ x.status = St.done then decide (i < x.nbits) else lookup false x.bits i

def State.bitmapRead (s : State) (p : List Byte) : List Byte :=
  let x := s.slot (slotIx (le p 0 4))
  let first := le p 4 4
  let n := min 8064 (x.nbits - first)
  leBytes 4 (le p 0 4) ++ leBytes 4 first ++ leBytes 4 n ++ leBytes 4 x.aux ++
  (List.range (ceilDiv n 8)).map fun b =>
    BitVec.ofNat 8 (boolBits ((List.range 8).map fun i => decide (8 * b + i < n) && x.bitAt (first + 8 * b + i)))

end Sys2Proof.Machine
end

