-- ==== Sys2Proof/Machine/HostCommands.lean ====
section
/-! DEFINITION. Woror commands (R351-R355, R367-R386): the checks of R371 in order, what each opcode does at acceptance,
acceptance into the journal, and the order of sequence numbers. -/

namespace Sys2Proof.Machine

/-! ### Opcodes (R370) -/

inductive Scope where
  | device | job | queue
deriving DecidableEq, Repr

/-- The scope of an assigned opcode. -/
def scopeOf (opcode : Nat) : Option Scope :=
  if [0x0101, 0x0110, 0x0203, 0x0220, 0x0601, 0x0603, 0x0605, 0x0708, 0x0801, 0x0802, 0x0803, 0x0804, 0x0805, 0x0901, 0x0902,
      0x0903, 0x0904, 0x0905, 0x0910, 0x0A01, 0x0A02].contains opcode then some .device
  else if [0x0201, 0x0202, 0x0210, 0x0211, 0x0212, 0x0221, 0x0222, 0x0223, 0x0301, 0x0302, 0x0303, 0x0320, 0x0602, 0x0604,
      0x0702, 0x0703, 0x0704, 0x0705, 0x0706, 0x0707].contains opcode then some .job
  else if [0x0304, 0x0305, 0x0310, 0x0311, 0x0312, 0x0313, 0x0314, 0x0315, 0x0316, 0x0401, 0x0501, 0x0502, 0x0503,
      0x0701].contains opcode then some .queue
  else none

/-- The opcodes that may carry `UNSEQ` (R355). -/
def mayUnseq (opcode : Nat) : Bool := [0x0101, 0x0901, 0x0902, 0x0903, 0x0904, 0x0905].contains opcode

/-- Check 2: the fields fit the scope (R367). -/
def scopeFits (sc : Scope) (job ctx : Nat) : Bool :=
  match sc with
  | .device => job == 0xFF && ctx == 0xFF
  | .job => decide (job ≤ 3) && ctx == 0xFF
  | .queue => decide (job ≤ 3 ∧ ctx ≤ 15)

/-- Check 5: the length that the layout gives, from the counts and kinds that the parameters state; none for a kind of
collective that is not listed. -/
def layoutLen (opcode : Nat) (p : List Byte) : Option Nat :=
  match opcode with
  | 0x0101 | 0x0303 | 0x0305 | 0x0603 | 0x0604 | 0x0605 | 0x0705 | 0x0901 => some 0
  | 0x0211 | 0x0212 | 0x0222 | 0x0223 | 0x0310 | 0x0313 | 0x0315 | 0x0320 | 0x0602 | 0x0701 | 0x0703 | 0x0706 | 0x0801 | 0x0804
  | 0x0805 | 0x0902 | 0x0903 | 0x0905 | 0x0A02 => some 8
  | 0x0201 | 0x0203 | 0x0312 | 0x0601 | 0x0707 | 0x0708 | 0x0904 | 0x0A01 => some 16
  | 0x0910 => some 24
  | 0x0221 | 0x0304 | 0x0314 | 0x0704 => some 32
  | 0x0311 => some 40
  | 0x0220 | 0x0802 => some 48
  | 0x0110 => some 96
  | 0x0210 => some 384
  | 0x0202 => some (16 + le p 8 4)
  | 0x0301 => some (64 + 16 * le p 52 1 + 16 + 8 * le (jobMapping p) 4 2)
  | 0x0302 => some (16 + 16 * le p 8 1)
  | 0x0316 => some (32 + 160 * le p 3 1)
  | 0x0401 => some (208 + 160 * le p 1 1)
  | 0x0501 => if 1 ≤ le p 0 1 ∧ le p 0 1 ≤ 6 then some (32 + 160 * collTensors (le p 0 1)) else none
  | 0x0502 => some (16 + 8 * le p 4 2)
  | 0x0503 => some (16 + 160 * le p 0 1)
  | 0x0702 => some (48 + 16 * le p 0 1)
  | 0x0803 => some (8 + le p 4 4)
  | _ => none

/-- Check 6: reserved fields are zero (R19); those of an operation's and a collective's blocks are the first of its own
checks. -/
def reservedOk (opcode : Nat) (p : List Byte) : Bool :=
  match opcode with
  | 0x0110 => decide (le p 0 1 < 16) && zeroAt p 7 1 && zeroAt p 12 4
  | 0x0201 | 0x0202 | 0x0904 => zeroAt p 12 4
  | 0x0210 => zeroAt p 44 4 && zeroAt p 56 8 && (Tensor.parse ((p.drop 64).take 160)).reservedOk && (Tensor.parse ((p.drop 224).take 160)).reservedOk
  | 0x0211 | 0x0212 | 0x0703 => zeroAt p 1 7
  | 0x0220 => zeroAt p 3 1 && zeroAt p 7 1 && zeroAt p 11 5 && zeroAt p 40 8
  | 0x0221 => zeroAt p 6 2 && zeroAt p 24 8
  | 0x0222 | 0x0223 | 0x0310 | 0x0313 | 0x0320 | 0x0905 => zeroAt p 4 4
  | 0x0301 => createReserved p
  | 0x0302 => decide (le p 0 4 < 2 ^ 20 ∧ le p 4 4 < 2 ^ 20) && zeroAt p 9 7
  | 0x0311 => decide (le p 1 1 < 16) && zeroAt p 2 2
  | 0x0312 => decide (le p 8 1 < 2) && zeroAt p 9 7
  | 0x0314 => zeroAt p 22 10
  | 0x0315 => zeroAt p 2 2
  | 0x0502 => mappingReserved p
  | 0x0601 => zeroAt p 4 12
  | 0x0602 => zeroAt p 6 2
  | 0x0701 => decide (le p 4 1 < 4) && zeroAt p 5 3
  | 0x0702 => zeroAt p 1 7
  | 0x0704 => decide (le p 3 1 < 2) && zeroAt p 24 8
  | 0x0706 | 0x0805 => zeroAt p 0 8
  | 0x0707 => zeroAt p 2 2 && zeroAt p 12 4
  | 0x0708 => decide (le p 12 1 < 16 ∧ le p 13 1 < 2) && zeroAt p 14 2
  | 0x0801 | 0x0A02 => zeroAt p 1 3
  | 0x0804 => decide (le p 0 1 < 4) && zeroAt p 1 7
  | 0x0902 => decide (le p 6 2 < 2)
  | 0x0910 => zeroAt p 1 7
  | 0x0A01 => zeroAt p 8 8
  | _ => true

/-! ### The opcode's own checks (check 7) -/

/-- `NET_CONFIG` (R376). -/
def netStatus (s : State) (p : List Byte) : Nat :=
  let f := le p 0 1
  let vid := le p 4 2
  let n := le p 6 1
  firstBad
    [ (decide (le p 1 1 ≤ 2 ∧ le p 2 1 ≤ 7 ∧ le p 3 1 ≤ 7 ∧ n ≤ 4) && (if bit f 2 then decide (1 ≤ vid ∧ vid ≤ 4094) else vid == 0) &&
        (bit f 0 || zeroAt p 8 4) && (bit f 1 || zeroAt p 16 16) && zeroAt p (32 + 16 * n) (64 - 16 * n), St.paramRange),
      ((List.range 64).all fun i => let q := s.qp i; q.state != 1 || decide (q.pmtuBytes + 82 ≤ mtuBytes (le p 1 1)), St.paramRange) ]

/-! #### Memory commands (R377, R209, R79, R87, R88) -/

/-- The part of a tile's accumulator memory and weight-gradient buffer that a range meets: tile, first and last offset; none
for a range that lies wholly elsewhere. -/
def State.pairsMet (s : State) (da n : Nat) : Option (Nat × Nat × Nat) :=
  match s.regionOf da with
  | .tile t off => if 0xC_0000 < off + n then some (t, off, off + n) else none
  | _ => none

/-- The range lies in the memories of a tile of the job's paddocks; the host reads accumulator memory and weight-gradient buffer
through their own ports (R87). -/
def Job.inTiles (s : State) (j : Job) (da n : Nat) : Bool :=
  match s.regionOf da with
  | .tile t off => decide (off + n ≤ 0x12_0000) && j.paddocks.getLsbD (paddockOf t)
  | _ => false

/-- Places that no host write may meet: the conflict queues (R79) and the headers of the frames (R88). -/
def writeBarred (lo hi : Nat) : Bool := decide ((lo < 0x10_0000 ∧ 0xF_F000 < hi) ∨ (lo < 0x11_F9C0 ∧ 0x11_F800 < hi))

/-- `MEM_READ` and `MEM_WRITE`: the range lies in the job's regions or in the memories of a tile of its paddocks. An access
that meets a slot, a frame or a header is of whole 8-byte units, and a write of one waits for an idle tile (R87; that R377 names
the scratchpad alone, and that `PARAM_ALIGN` answers the others: DESIGN CHOICE, log 72). -/
def memStatus (s : State) (jn : Nat) (j : Job) (p : List Byte) (max : Nat) (write : Bool) : Nat :=
  let da := le p 0 8
  let n := le p 8 4
  if s.fenced jn then St.stateFenced
  else if max < n then St.paramRange
  else if n = 0 then 0
  else
    firstBad
      [ (s.mapped da n && (!write || (match s.pairsMet da n with | some (_, lo, hi) => !writeBarred lo hi | none => true)), St.paramTarget),
        ((j.inRegions da n || j.inTiles s da n) && !s.meetsHay jn da n, St.secWindow),
        ((s.pairsMet da n).isNone || (da % 8 == 0 && n % 8 == 0), St.paramAlign),
        (!write || (match s.pairsMet da n with | some (t, _, _) => (s.tile t).item.isNone | none => true), St.stateTileBusy) ]

/-- `OP_ISSUE`: checks 1 to 13, those of a launch and of a set's settings, and 15 to 18 when no input is sparse (R196,
R288, R434). -/
def opStatus (s : State) (jn : Nat) (j : Job) (k : Ctx) (p : List Byte) : Nat :=
  let d := OpDesc.parse p
  orElse0 (issueStatus s jn j k d) <|
  if d.kind = 6 then
    (if (List.range 800).any fun n => j.paddocks.getLsbD (paddockOf n) && (s.tile n).quarantined then St.stateCompat else 0)
  else match mkView j.mapping d with
    | none => St.paramShard
    | some v =>
      if v.sparseInputs.isEmpty then
        (match tilingOf j v (d.cap.rowsIn s.byte) [] with
         | .ok _ => 0
         | .error e => e)
      else 0

def sdStatus (p : List Byte) : Nat := firstBad [(decide (le p 0 1 ≤ 63), St.paramRange)]

def xferNamed (s : State) (jn : Nat) (p : List Byte) : Nat := firstBad [((s.xferOf jn (le p 0 4)).isSome, St.paramRange)]

/-- The checks of device scope. -/
def deviceStatus (s : State) (opcode : Nat) (p : List Byte) : Nat :=
  match opcode with
  | 0x0110 => netStatus s p
  | 0x0203 => csrStatus s (le p 0 8) 1
  | 0x0220 => qpStatus s p
  | 0x0601 => capStatus p
  | 0x0708 => leaseStatus s p
  | 0x0801 => identityStatus s p
  | 0x0803 => stageStatus p
  | 0x0902 => journalReadStatus p
  | 0x0903 => s.bitmapStatus p
  | 0x0904 => firstBad [(decide (1 ≤ le p 8 4 ∧ le p 8 4 ≤ 255), St.paramRange)] |> (orElse0 · (csrStatus s (le p 0 8) (le p 8 4)))
  | 0x0910 => memTestStatus s p
  | 0x0A01 => dateStatus p
  | 0x0A02 => lifeStatus s p
  | _ => 0

/-- The checks of job scope, `JOB_CREATE` apart. -/
def jobStatus (s : State) (jn : Nat) (j : Job) (opcode : Nat) (p : List Byte) : Nat :=
  match opcode with
  | 0x0201 => memStatus s jn j p 384 false
  | 0x0202 => memStatus s jn j p 65488 true
  | 0x0210 => armStatus s jn j p
  | 0x0211 | 0x0212 => sdStatus p
  | 0x0221 => if s.fenced jn then St.stateFenced else xferStatusOf s jn j p
  | 0x0222 | 0x0223 => xferNamed s jn p
  | 0x0302 => modifyStatus s jn j p
  | 0x0320 => cancelStatus s jn p
  | 0x0602 => pointsStatus p
  | 0x0702 => setStatus s jn j p
  | 0x0703 => restoreStatus s jn j p
  | 0x0704 => pairStatus s jn j p
  | 0x0706 => failoverStatus j
  | 0x0707 => policyStatus p
  | _ => 0

/-- The checks of queue scope, `CONTEXT_CREATE` apart. -/
def queueStatus (s : State) (jn : Nat) (j : Job) (k : Ctx) (opcode : Nat) (p : List Byte) : Nat :=
  match opcode with
  | 0x0311 => barrierStatus s jn j p
  | 0x0314 => gradStatus p
  | 0x0315 => phaseStatus p
  | 0x0316 => rowStatus s jn j k (RowDesc.parse p)
  | 0x0401 => opStatus s jn j k p
  | 0x0501 => collStatus s jn j k p
  | 0x0502 => mappingStatus s jn p
  | 0x0503 => normStatus s jn j p
  | 0x0701 => commitStatus p
  | _ => 0

/-! ### Checks 3, 4, 7 -/

/-- A job that is being released takes no command (R383). -/
def State.liveJob (s : State) (jn : Nat) : Option Job := (s.job jn).bind fun j => if j.releasing.isSome then none else some j

/-- The context, when it is the job's. -/
def State.ctxFor (s : State) (jn c : Nat) : Option Ctx := (s.ctx c).bind fun k => if k.job = jn then some k else none

def existsStatus (s : State) (opcode jn c : Nat) (sc : Scope) : Nat :=
  match sc with
  | .device => 0
  | .job =>
    if opcode = 0x0301 then (if (s.job jn).isSome then St.stateExists else 0)
    else if (s.liveJob jn).isSome then 0 else St.stateNoJob
  | .queue =>
    if (s.liveJob jn).isNone then St.stateNoJob
    else if opcode = 0x0304 then (if (s.ctx c).isSome then St.stateExists else 0)
    else if (s.ctxFor jn c).isSome then 0 else St.stateNoContext

def ownStatus (s : State) (opcode jn c : Nat) (sc : Scope) (p : List Byte) : Nat :=
  match sc, s.job jn, s.ctxFor jn c with
  | .device, _, _ => deviceStatus s opcode p
  | .job, some j, _ => jobStatus s jn j opcode p
  | .job, none, _ => if opcode = 0x0301 then createStatus s jn p else 0
  | .queue, some j, some k => queueStatus s jn j k opcode p
  | .queue, some j, none => if opcode = 0x0304 then ctxStatus s j p else 0
  | .queue, none, _ => 0

/-! ### Checks 8 and 9 (R368, R394) -/

/-- Bits of the completion bitmap that the entry reserves at acceptance. -/
def State.bitsFor (s : State) (opcode jn : Nat) (p : List Byte) : Nat :=
  match s.job jn with
  | none => 0
  | some j =>
    if opcode = opcSTREAM_ARM then let h := StreamHdr.parse p; if h.idle then 0 else h.segments
    else if opcode = opcROW then
      (match mkRowView j.mapping (RowDesc.parse p) with
       | some v => if v.empty then 0 else v.items (v.rb.getD 1)
       | none => 0)
    else if opcode = opcOP_ISSUE ∧ (OpDesc.parse p).kind ≠ 6 then
      (match mkView j.mapping (OpDesc.parse p) with
       | some v =>
         if v.sparseInputs.isEmpty then
           (match tilingOf j v ((OpDesc.parse p).cap.rowsIn s.byte) [] with
            | .ok t => t.items
            | .error _ => 0)
         else 0
       | none => 0)
    else 0

/-- The context queue that a command enters: none for a command that takes effect at acceptance (R367, R369, R384). -/
def enters (opcode ctx : Nat) (sc : Scope) (p : List Byte) : Option Nat :=
  if opcode = opcSTREAM_ARM then (if le p 3 1 < 16 then some (le p 3 1) else none)
  else if sc = .queue ∧ opcode ≠ 0x0304 ∧ opcode ≠ 0x0305 then some ctx
  else none

def roomStatus (s : State) (opcode jn ctx : Nat) (sc : Scope) (p : List Byte) : Nat :=
  firstBad
    [ (decide (s.poolUsed + bitmapBytes (s.bitsFor opcode jn p) ≤ poolBytes), St.resBitmapPool),
      ((match (enters opcode ctx sc p).bind s.ctx with | some k => decide (k.queue.length < 4096) | none => true), St.resQueueFull) ]

/-- The status of the first check of R371 that fails, 0 when none does. -/
def commandStatus (s : State) (opcode jn ctx : Nat) (p : List Byte) : Nat :=
  match scopeOf opcode with
  | none => St.paramOpcode
  | some sc =>
    orElse0 (firstBad [(scopeFits sc jn ctx, St.paramRange)]) <|
    orElse0 (existsStatus s opcode jn ctx sc) <|
    orElse0 (firstBad [(layoutLen opcode p == some p.length, St.paramRange), (reservedOk opcode p, St.paramReserved)]) <|
    orElse0 (ownStatus s opcode jn ctx sc p) (roomStatus s opcode jn ctx sc p)

/-! ### Effects at acceptance -/

/-- A command that is done at acceptance. -/
def State.ends (s : State) (seq : Nat) : State := s.finish seq St.done []

def State.setNet (s : State) (p : List Byte) : State :=
  let f := le p 0 1
  { s with host := { s.host with
    mtu := le p 1 1, pfcPrio := le p 2 1, pcp := le p 3 1, vid := le p 4 2, vlanEn := bit f 2, pfcEn := bit f 3
    ipv4 := if bit f 0 then some (BitVec.ofNat 32 (beNat ((p.drop 8).take 4))) else none
    ipv6 := if bit f 1 then some (BitVec.ofNat 128 (beNat ((p.drop 16).take 16))) else none
    permit := (List.range (le p 6 1)).map fun i => BitVec.ofNat 128 (beNat ((p.drop (32 + 16 * i)).take 16)) } }

/-- What the host reads in a tile's reserved bytes and conflict queues in place of memory: zeros in 0x11_F9C0-0x11_FFFF (R88), and
in the conflict queues values whose layout the spec does not give (R79; free values, log 72). -/
def State.windowBytes (s : State) (da : Nat) (bs : List Byte) : List Byte :=
  bs.zipIdx.map fun e => match s.regionOf (da + e.2) with
    | .tile _ off =>
      if 0x11_F9C0 ≤ off ∧ off < 0x12_0000 then 0#8
      else if 0xF_F000 ≤ off ∧ off < 0x10_0000 then (Config.freeValue (s.freeCtr + e.2)).setWidth 8
      else e.1
    | _ => e.1

/-- The read met conflict queues: it took free values. -/
def State.windowTook (s : State) (da n : Nat) : State :=
  match s.pairsMet da n with
  | some (_, lo, hi) => if lo < 0x10_0000 ∧ 0xF_F000 < hi then { s with freeCtr := s.freeCtr + n } else s
  | none => s

def State.memRead (s : State) (seq : Nat) (p : List Byte) : State :=
  let da := le p 0 8
  let n := le p 8 4
  if n = 0 then s.ends seq
  else if s.tierWaits da n then s
  else
    let d := s.hostRead da n
    let bs := s.windowBytes da d.1
    let s := ((s.windowTook da n).remotePort .host da n).hostOut da bs
    match d.2 with
    | some u => (s.hostPoison u).finish seq St.intPoison bs
    | none => s.finish seq St.done bs

/-- Reserved bytes of a weight-gradient buffer keep nothing (R88). -/
def State.memWrite (s : State) (jn seq : Nat) (p : List Byte) : State :=
  let da := le p 0 8
  let n := le p 8 4
  if n = 0 then s.ends seq
  else if s.tierWaits da n then s
  else
    let m := match s.regionOf da with
      | .tile _ off => if off < 0x11_F9C0 then min n (0x11_F9C0 - off) else 0
      | _ => n
    (((s.remotePort .host da n).hostIn da ((p.drop 16).take n)).devWrite jn da ((p.drop 16).take m)).ends seq

/-- Accesses of accepted commands that waited for a tier are performed in the order of acceptance (R435). -/
def State.hostGoesOn (s : State) : State :=
  s.works.foldl (fun s w =>
    match w.opcode with
    | 0x0201 => s.memRead w.seq w.params
    | 0x0202 => s.memWrite w.job w.seq w.params
    | _ => s) s

def State.createJob (s : State) (jn seq : Nat) (p : List Byte) : State :=
  let s := (s.setJob jn (some (Job.fresh s p))).forgetJob jn
  let s := if s.restricted ∧ s.restrictReason = 1 then ({ s with restrictReason := 0 }).unrestrict else s
  s.ends seq

/-- The commands that only read: their reply (R375, R378, R395-R398). -/
def State.readReply (s : State) (opcode : Nat) (p : List Byte) : State × List Byte :=
  match opcode with
  | 0x0101 => (s, s.deviceInfo)
  | 0x0901 => (s, s.journalInfo)
  | 0x0902 => (s, s.journalRead p)
  | 0x0903 => (s, s.bitmapRead p)
  | 0x0904 =>
    let r := (s.carry .host (s.agentOf (le p 0 8)) 6 (leBytes 8 (le p 0 8))).csrRead (le p 0 8) (le p 8 4)
    (r.1.carry (r.1.agentOf (le p 0 8)) .host 6 r.2, r.2)
  | 0x0905 => (s, s.retiredReply p)
  | _ => (s, [])

/-- A sequenced reply holds at most 448 bytes (R372); a longer one ends there (DESIGN CHOICE, log 42). -/
def State.readEnds (s : State) (seq opcode : Nat) (p : List Byte) : State :=
  let r := s.readReply opcode p
  r.1.finish seq St.done (r.2.take 448)

/-- Commands of device scope at acceptance. -/
def State.deviceEffect (s : State) (opcode seq : Nat) (p : List Byte) : State :=
  match opcode with
  | 0x0110 => (s.setNet p).ends seq
  | 0x0203 =>
    let r := (s.carry .host (s.agentOf (le p 0 8)) 6 (p.take 16)).csrWrite (le p 0 8) (le p 8 4) (le p 12 4)
    r.1.finish seq r.2 []
  | 0x0220 => ((s.cutMessage (le p 0 1)).setQp (le p 0 1) (qpOfParams p)).ends seq
  | 0x0601 => (s.setCap p).ends seq
  | 0x0603 => s.finish seq St.done s.powerReply
  | 0x0605 => s.finish seq St.done s.throttleReply
  | 0x0708 => let r := s.grant p; r.1.finish seq St.done r.2
  | 0x0801 => s.finish seq St.done (s.identityReply p)
  | 0x0802 => s.startAttest seq p
  | 0x0803 => (s.stageWrite p).ends seq
  | 0x0804 => s.activate seq p
  | 0x0805 => (s.ends seq).warmAsked .command
  | 0x0910 => s.startMemTest seq p
  | 0x0A01 => (s.setDate p).ends seq
  | 0x0A02 => s.finish seq St.done (s.lifeReply p)
  | _ => s.readEnds seq opcode p

/-- Acceptance parameters of an arm and of a shadowed one (R374). -/
def State.armEffect (s : State) (jn seq step : Nat) (p : List Byte) : State × List Byte :=
  let s := s.modEntry seq fun x => { x with nbits := s.bitsFor opcSTREAM_ARM jn p }
  let s := s.arm jn seq step p
  (s, leBytes 4 (match s.entry seq with | some x => b2n x.shadowed | none => 0))

/-- Commands of job scope at acceptance, with their acceptance parameters. -/
def State.jobEffect (s : State) (opcode jn seq step : Nat) (p : List Byte) : State × List Byte :=
  match opcode with
  | 0x0201 => (s.memRead seq p, [])
  | 0x0202 => (s.memWrite jn seq p, [])
  | 0x0210 => s.armEffect jn seq step p
  | 0x0211 => (s.streamCancelled jn (le p 0 1) seq, [])
  | 0x0212 => (s.finish seq St.done (s.stream jn (le p 0 1)).report, [])
  | 0x0221 => s.openXfer jn seq p
  | 0x0222 =>
    ((match s.xferOf jn (le p 0 4) with | some e => s.closeXfer e.1 | none => s).ends seq, [])
  | 0x0223 =>
    (s.finish seq St.done (match s.xferOf jn (le p 0 4) with | some e => e.2.report e.1 | none => []), [])
  | 0x0301 => (s.createJob jn seq p, [])
  | 0x0302 => (s.modifyJob jn seq p, [])
  | 0x0303 => (s.releaseJob jn seq, [])
  | 0x0320 => (s.opCancelled seq p, [])
  | 0x0602 => ((s.setPoints jn p).ends seq, [])
  | 0x0604 => (s.finish seq St.done (match s.job jn with | some j => s.energyReply jn j | none => []), [])
  | 0x0702 => ((s.setState jn p).ends seq, [])
  | 0x0703 => (s.startRestore jn seq p, [])
  | 0x0704 => (s.startPair jn seq p, [])
  | 0x0705 => ((s.unpair jn).ends seq, [])
  | 0x0706 => (s.startFailover jn seq, [])
  | 0x0707 => ((s.setPolicy jn p).ends seq, [])
  | _ => (s, [])

/-- An empty product of a gradient set takes every block of the set at its micro-batch; the last micro-batch's closes the set
(R289). -/
def State.emptyMicroBatch (s : State) (w : Work) (o : OpRun) : State :=
  match (s.job w.job).bind fun j => j.setOf o with
  | none => s
  | some g =>
    let mb := (OpDesc.parse w.params).microBatch
    let s := s.modJob w.job fun j => { j with sets := j.sets.map fun h =>
      if h.tensorId == g.tensorId then { h with taken := (List.range g.pins.length).map (fun b => (b, mb)) ++ h.taken } else h }
    if g.lastMb mb then s.closeSet w.job g.tensorId else s

/-- An operation of zero length reaches its final status at once (R183, R268). -/
def State.endEmpty (s : State) (seq : Nat) (empty : Bool) : State :=
  if !empty then s
  else match s.work seq with
    | some w => (match w.op with
      | some o => ((s.startEntry seq).emptyMicroBatch w o).endOp w o St.done (o.plainBlock (w.opcode == opcROW))
      | none => s)
    | none => s

/-- The run of an accepted operation before it starts: tiling when no input is sparse, entry of the hayloft, gradient set. -/
def State.acceptOp (s : State) (jn c seq : Nat) (p : List Byte) : State × List Byte :=
  let d := OpDesc.parse p
  match s.job jn, s.ctx c with
  | some j, some k =>
    match (if d.kind = 6 then none else mkView j.mapping d) with
    | none =>
      let o := OpRun.fresh Tiling.none false none none []
      ((s.modWork seq fun w => { w with op := some o }).noteAccepted seq jn false, o.plainBlock false)
    | some v =>
      let rows := d.cap.rowsIn s.byte
      let dense := v.sparseInputs.isEmpty
      let t := if dense then (match tilingOf j v rows [] with | .ok t => t | .error _ => Tiling.none) else Tiling.none
      let wgb := if d.wgb then some v.dHeld.t.id else none
      let o := OpRun.fresh t (v.ordered && !v.empty) wgb (if d.hay then some k.pushes else none) rows
      let s := s.modWork seq fun w => { w with op := some o }
      let s := s.modEntry seq fun x => { x with nbits := t.items }
      let s := s.noteAccepted seq jn (d.kind == 1)
      let s := if dense then s.lastTiling seq jn t else s
      let s := match d.hay, s.work seq with
        | true, some w => s.reserve c w v.dHeld d.microBatch
        | _, _ => s
      let lost := (match wgb.bind fun id => j.sets.find? fun g => g.tensorId == id with | some g => g.lost | none => false)
      let s := match wgb with
        | some id => s.modJob jn fun j => { j with sets := j.sets.map fun (g : GradSet) =>
            if g.tensorId == id then
              { g with settings := if g.accepted.isEmpty then d.settings else g.settings, accepted := g.accepted ++ [d.microBatch] }
            else g }
        | none => s
      if lost then
        (match s.work seq with
         | some w => (s.endOp w o St.intWgbLost (o.plainBlock false), [])
         | none => (s, []))
      else (s.endEmpty seq v.empty, o.plainBlock false)
  | _, _ => (s, [])

/-- The run of an accepted row operation. -/
def State.acceptRow (s : State) (jn seq : Nat) (p : List Byte) : State × List Byte :=
  match (s.job jn).bind fun j => mkRowView j.mapping (RowDesc.parse p) with
  | none => (s, [])
  | some v =>
    let t : Tiling := if v.empty then Tiling.none
      else let rb := v.rb.getD 1; { Tiling.none with mt := rb, f := 1, blocks := v.rowItems rb, items := v.items rb }
    let o := OpRun.fresh t false none none []
    let s := s.modWork seq fun w => { w with op := some o }
    let s := ((s.modEntry seq fun x => { x with nbits := t.items }).noteAccepted seq jn false).lastTiling seq jn t
    (s.endEmpty seq v.empty, o.plainBlock true)

/-- A collective accepted into an attempt that has been aborted ends at once (R339). -/
def State.acceptColl (s : State) (seq : Nat) : State :=
  match s.work seq with
  | none => s
  | some w =>
    match s.job w.job with
    | some j => if j.aborted ∧ w.step = j.step ∧ w.attempt = j.attempt then s.failColl w St.intStepAbort else s
    | none => s

/-- A barrier that waits for a host transfer learns how one that has already ended did (R266, R364). -/
def State.acceptBarrier (s : State) (jn seq : Nat) (p : List Byte) : State :=
  let h := BarrierHdr.parse p
  if h.waitHost then s.modWork seq fun w => { w with host := (s.xferOf jn h.hostXfer).bind fun e => e.2.outcome } else s

/-- Commands of queue scope at acceptance, with their acceptance parameters; most wait for their turn. -/
def State.queueEffect (s : State) (opcode jn c seq : Nat) (p : List Byte) : State × List Byte :=
  match opcode with
  | 0x0304 => (((s.setCtx c (some (Ctx.fresh s jn p))).forgetCtx c).ends seq, [])
  | 0x0305 => (s.releaseCtx c seq, [])
  | 0x0311 => (s.acceptBarrier jn seq p, [])
  | 0x0316 => s.acceptRow jn seq p
  | 0x0401 => s.acceptOp jn c seq p
  | 0x0501 | 0x0503 => (s.acceptColl seq, [])
  | _ => (s, [])

def State.effect (s : State) (opcode jn c seq step : Nat) (p : List Byte) : State × List Byte :=
  match scopeOf opcode with
  | some .device => (s.deviceEffect opcode seq p, [])
  | some .job => s.jobEffect opcode jn seq step p
  | some .queue => s.queueEffect opcode jn c seq p
  | none => (s, [])

/-! ### Acceptance (R353, R354, R371, R387, R388) -/

/-- The final reply parameters of a command that a check refuses: zero counts (R373, R374). -/
def refusedReply (opcode status : Nat) : List Byte :=
  match opcode with
  | 0x0210 => armReply 0 0
  | 0x0211 | 0x0320 => zeroBlock
  | 0x0221 => xferReply status 0
  | 0x0310 => leBytes 8 0
  | 0x0316 | 0x0401 => leBytes 64 0
  | 0x0501 => collReply 0 0 0xFFFF_FFFF 0
  | 0x0503 => leBytes 16 0
  | 0x0704 => leBytes 8 0
  | _ => []

def freshSlot (s : State) (opcode : Nat) (p : Packet) (ctx : Nat) : Slot :=
  { Slot.empty with seq := p.seq, opcode := opcode, job := p.job.toNat, ctx := ctx, state := 1, notify := bit p.wflags.toNat 2,
                    status := St.accepted, accept := s.sclk }

def freshWork (s : State) (opcode : Nat) (p : Packet) (ctx : Option Nat) : Work :=
  let at_ := s.stepAt p.job.toNat
  { seq := p.seq.toNat, opcode := opcode, job := p.job.toNat, ctx := ctx, params := p.params, step := at_.1, attempt := at_.2,
    running := false, cancelling := false, cancelBy := [], counts := [], host := none, op := none, coll := none }

/-- The entry of an accepted command, in its context queue if it enters one. -/
def State.enter (s : State) (opcode : Nat) (p : Packet) (ctx : Option Nat) : State :=
  let s := { s with works := (s.works.filter fun w => w.seq != p.seq.toNat) ++ [freshWork s opcode p ctx] }
  match ctx with
  | some c => (s.modCtx c fun k => { k with queue := k.queue ++ [p.seq.toNat] }).settle c
  | none => s

/-- The journal holds the entry; the number that is expected next moves on. -/
def State.journalled (s : State) (x : Slot) : State :=
  let s := s.setSlot (slotIx x.seq.toNat) x
  { s with host := { s.host with next := x.seq + 1#32 }, journal := { s.journal with accepted := sat32 (s.journal.accepted + 1) } }

/-- The reply to an entry that has just been journalled, and the place of the second one. -/
def State.firstReply (s : State) (opcode : Nat) (p : Packet) (acc : List Byte) : State :=
  let i := slotIx p.seq.toNat
  let s := s.modEntry p.seq.toNat fun x =>
    if x.state = 3 then x else { x with reply := acc, back := if x.notify then some (answerTo p opcode) else none }
  s.replyFor i ((s.slot i).report (answerTo p opcode))

/-- The context queue that an accepted command enters, if any (R368, R369). -/
def queueOf (opcode : Nat) (p : Packet) : Option Nat :=
  match scopeOf opcode with
  | some sc => enters opcode p.ctx.toNat sc p.params
  | none => none

/-- The step number that the entry of `seq` carries (R273). -/
def State.stepOf (s : State) (seq : Nat) : Nat :=
  match s.work seq with
  | some w => w.step
  | none => 0

/-- What error correction finds in the units that a MEM_READ reads (R221, R227). -/
def State.readChecks (s : State) (opcode : Nat) (p : Packet) : State :=
  if opcode = 0x0201 then s.hostEcc (le p.params 0 8) (le p.params 8 4) p.found else s

/-- The journal entry of a command that is taken. -/
def takenSlot (s : State) (opcode : Nat) (p : Packet) : Slot :=
  freshSlot s opcode p (if opcode = opcSTREAM_ARM then le p.params 3 1 else p.ctx.toNat)

/-- A command that a check refuses is journalled as final; as an entry of a job's attempt that ended badly it bars the commit
(R439; DEDUCED, log 133). -/
def State.journalRefusal (s : State) (opcode : Nat) (p : Packet) (st : Nat) : State :=
  let x := { takenSlot s opcode p with state := 3, status := st, finish := s.sclk, reply := refusedReply opcode st }
  let s := if (scopeOf opcode).any (· != .device) then s.endedBad p.job.toNat p.seq.toNat else s
  s.journalled x

/-- MC0 takes the command whose number it expects: it is journalled in every case, and performed when no check fails. -/
def State.take (s : State) (opcode : Nat) (p : Packet) : State :=
  let jn := p.job.toNat
  let seq := p.seq.toNat
  let st := commandStatus s opcode jn p.ctx.toNat p.params
  if st ≠ 0 then (s.journalRefusal opcode p st).firstReply opcode p []
  else
    let s := ((s.journalled (takenSlot s opcode p)).enter opcode p (queueOf opcode p)).readChecks opcode p
    let r := s.effect opcode jn p.ctx.toNat seq (s.stepOf seq) p.params
    (r.1.firstReply opcode p r.2).poolMark

/-- The command's slot holds an entry that is not final: it is not accepted (R388). -/
def State.slotBusy (s : State) (seq : Nat) : Bool := let x := s.slot (slotIx seq); x.state == 1 || x.state == 2

/-- The command with the expected number: the state, and whether the command was accepted. -/
def State.next (s : State) (opcode : Nat) (p : Packet) : State × Bool :=
  if s.slotBusy p.seq.toNat then
    (({ s with journal := { s.journal with full := sat32 (s.journal.full + 1) } }).refuse opcode p St.resJournalFull, false)
  else (s.take opcode p, true)

/-- Held commands that now follow in sequence are accepted in order. -/
def State.drain (s : State) : Nat → State
  | 0 => s
  | n + 1 =>
    match s.host.held.find? fun h => h.pkt.seq == s.host.next with
    | none => s
    | some h =>
      let s := { s with host := { s.host with held := s.host.held.filter fun g => g.pkt.seq != h.pkt.seq } }
      let r := s.next h.opcode h.pkt
      if r.2 then r.1.drain n else r.1

/-- A duplicate: nothing is performed, and the journal answers, with the opcode, job and context of the command that it holds,
since no other byte of the packet is compared with it (R353; DEDUCED, log 44). -/
def State.duplicate (s : State) (p : Packet) : State :=
  let i := slotIx p.seq.toNat
  let s := s.hostCount hcWOROR_DUP
  let s := { s with journal := { s.journal with dupReplies := sat32 (s.journal.dupReplies + 1) } }
  let x := s.slot i
  s.replyFor i { x.report { answerTo p x.opcode with job := BitVec.ofNat 8 x.job, ctx := BitVec.ofNat 8 x.ctx } with dup := true }

/-- The command of a packet whose number is sequenced (R353). -/
def State.sequenced (s : State) (opcode : Nat) (p : Packet) : State :=
  let d := ahead p.seq s.host.next
  if d = 0 then
    let r := s.next opcode p
    if r.2 then r.1.drain 65 else r.1
  else if d ≤ 64 then
    if s.host.held.any fun h => h.pkt.seq == p.seq then s
    else { s with host := { s.host with held := s.host.held ++ [{ opcode := opcode, pkt := p }] } }
  else if d ≤ 2 ^ 31 then s.hostCount hcWOROR_WINDOW_DROP
  else if (s.entry p.seq.toNat).isSome then s.duplicate p
  else (s.hostCount hcWOROR_STALE).refuse opcode p St.stateSeqStale

/-- The command of a packet with `UNSEQ`: performed on receipt, outside the journal (R355). -/
def State.unsequenced (s : State) (opcode : Nat) (p : Packet) : State :=
  if !mayUnseq opcode then s.refuse opcode p St.paramRange
  else
    let st := commandStatus s opcode p.job.toNat p.ctx.toNat p.params
    if st ≠ 0 then s.refuse opcode p st
    else
      let r := s.readReply opcode p.params
      r.1.sendReply { answerTo p opcode with params := r.2.take 1024 }

/-- MC0 has taken commands from its queue since the last arrival; one that is accepted now joins it (R352). The model performs a
command as it joins, in the order of the queue (DESIGN CHOICE, log 153). -/
def State.queueUp (s : State) (taken : Nat) : State := { s with host := { s.host with queued := s.host.queued - taken + 1 } }

/-- A Woror command whose packet is whole: the flags of R352, the room in the queue, then R353 or R355. -/
def State.woror (s : State) (opcode : Nat) (p : Packet) : State :=
  let s := s.hostCount hcWOROR_RX
  let f := p.wflags.toNat
  let room := s.host.queued - p.taken < 256
  let s := if f &&& 0xF9 ≠ 0 then s.refuse opcode p St.paramReserved
    else if !room then s.hostCount hcWOROR_QFULL
    else if bit f 1 then (s.queueUp p.taken).unsequenced opcode p
    else (s.queueUp p.taken).sequenced opcode p
  s.flushReplies

/-- What every datagram to the Woror port meets before its command: the frame's checks, MC0 takes commands (R465), the addresses are
accepted (R348). -/
def State.arrives (s : State) (a : Arrival) (src dst : IpAddr) (len : Nat) (f : State → State) : State :=
  s.frameIn a len (s.host.udpRoom dst) fun s => if s.sec.stage ≠ 4 ∨ !s.host.accepts src dst then s else f s

/-! ### Packets as bytes (R351, R352, R356) -/

def beAt (b : List Byte) (o n : Nat) : Nat := beNat ((b.drop o).take n)

/-- A command packet on the wire (R351). -/
def commandBytes (p : Packet) (opcode : Nat) : List Byte :=
  let head (crc : Nat) : List Byte :=
    beBytes 2 0x574F ++ [0x01#8, p.wflags] ++ beBytes 2 opcode ++ [p.job, p.ctx] ++ beBytes 4 p.seq.toNat ++
    beBytes 4 p.params.length ++ beBytes 8 p.tag.toNat ++ beBytes 4 0 ++ beBytes 4 crc
  head (crc32c (head 0 ++ p.params)).toNat ++ p.params

/-- The packet that the bytes of a datagram make; what does not travel in them comes beside. -/
def Packet.ofBytes (d : Datagram) (found : List Ecc) (taken : Nat) : Packet :=
  let b := d.bytes
  { src := d.src, dst := d.dst, srcMac := d.srcMac, srcPort := d.srcPort, viaQp := none, wflags := BitVec.ofNat 8 (beAt b 3 1),
    job := BitVec.ofNat 8 (beAt b 6 1), ctx := BitVec.ofNat 8 (beAt b 7 1), seq := BitVec.ofNat 32 (beAt b 8 4),
    tag := BitVec.ofNat 64 (beAt b 16 8), params := b.drop 32, found := found, taken := taken }

/-- The checks of R352 on the bytes of a packet, in order, and what follows them. -/
def State.parsePacket (s : State) (d : Datagram) (found : List Ecc) (taken : Nat) : State :=
  let b := d.bytes
  let p := Packet.ofBytes d found taken
  let op := beAt b 4 2
  let crc := (crc32c (b.take 28 ++ leBytes 4 0 ++ b.drop 32)).toNat
  if b.length < 32 ∨ beAt b 0 2 ≠ 0x574F ∨ b.length ≠ 32 + beAt b 12 4 ∨ beAt b 28 4 ≠ crc then
    (s.hostCount hcWOROR_RX).hostCount hcWOROR_BAD
  else if beAt b 2 1 ≠ 1 then ((s.hostCount hcWOROR_RX).refuse op p St.paramVersion)
  else if beAt b 3 1 &&& 0xF9 ≠ 0 ∨ beAt b 26 2 ≠ 0 then ((s.hostCount hcWOROR_RX).refuse op p St.paramReserved)
  else s.woror op p

/-- A datagram to the Woror port whose bytes are given. -/
def State.datagram (s : State) (d : Datagram) (taken : Nat) : State :=
  s.arrives d.frame d.src d.dst d.bytes.length fun s => s.parsePacket d [] taken

/-- Queue pairs that hold a receive buffer. -/
def State.sendBuffers (s : State) : Nat := countWhere (fun q : Qp => q.msg == 1) s.host.qps

/-- The message of a SEND is complete: its command follows, answered by UDP at the queue pair's address. -/
def State.sendDone (s : State) (i : Nat) (r : RocePacket) (bytes : List Byte) : State :=
  if s.sec.stage ≠ 4 then s
  else
    let q := s.qp i
    s.parsePacket { src := q.gid, dst := r.dst, srcMac := q.mac, srcPort := 0x5A1C#16, bytes := bytes } r.found r.taken

/-- The bytes of the message of a SEND up to and with this packet. -/
def sendBytes (q : Qp) (r : RocePacket) : List Byte := (if partStarts r.part then [] else q.sendBuf) ++ r.payload

/-- A SEND packet in its place adds its bytes to the message; the last one completes it. -/
def State.sendPart (s : State) (i : Nat) (r : RocePacket) : State :=
  let m := sendBytes (s.qp i) r
  let s := s.modQp i fun q =>
    { q with epsn := psnAdd q.epsn 1, msg := if partEnds r.part then 0 else 1, sendBuf := if partEnds r.part then [] else m }
  let s := s.ackPsn i r.psn.toNat r.ackReq
  if partEnds r.part then s.sendDone i r m else s

/-- A SEND packet (R356, R358). -/
def State.sendIn (s : State) (r : RocePacket) : State :=
  s.roceIn r false (fun s i =>
    let q := s.qp i
    if (partStarts r.part && q.msg != 0) || (!partStarts r.part && q.msg != 1) || !partFits q r then s.fatalNak i 1
    else if partStarts r.part && decide (16 ≤ s.sendBuffers) then s.txQp i (.rnrNak q.epsn 1)
    else if 65536 < (sendBytes q r).length then s.fatalNak i 1
    else s.sendPart i r) (againAck r)

/-- The packets of the SEND that carries a command, of the path MTU of its queue pair. -/
def carrierPackets (p : Packet) (opcode : Nat) (c : Carrier) (pmtu : Nat) : List RocePacket :=
  let bs := commandBytes p opcode
  let n := max 1 (ceilDiv bs.length pmtu)
  (List.range n).map fun k =>
    { src := p.src, srcMac := p.srcMac, dst := p.dst, qpn := BitVec.ofNat 24 (0x100 + c.qpi), psn := c.psn + BitVec.ofNat 24 k,
      part := if n = 1 then .only else if k = 0 then .first else if k + 1 = n then .last else .middle
      ackReq := c.ackReq && k + 1 == n, ecnCe := c.ecnCe, va := 0#64, rkey := 0#32, dmaLen := 0#32
      payload := (bs.drop (k * pmtu)).take pmtu, found := p.found, frame := p.frame, taken := p.taken }

/-- A Woror command arrives over UDP, or is carried by a SEND (R351, R356). -/
def State.submit (s : State) (opcode : Nat) (p : Packet) : State :=
  match p.viaQp with
  | none => s.arrives p.frame p.src p.dst (32 + p.params.length) fun s => s.woror opcode p
  | some c => (carrierPackets p opcode c (s.qp c.qpi).pmtuBytes).foldl State.sendIn s

/-- A held command has waited 100 ms (R353). -/
def State.heldExpires (s : State) (seq : U32) : State :=
  if s.host.held.any fun h => h.pkt.seq == seq then
    ({ s with host := { s.host with held := s.host.held.filter fun h => h.pkt.seq != seq } }).hostCount hcWOROR_REORDER_DROP
  else s

end Sys2Proof.Machine
end

