-- ==== Sys2Proof/Machine/WororRows.lean ====
section
/-! DEFINITION. The Woror commands: each packet goes through the checks of R352, R353 and R371 and then has its
command's effect (`State.submit`). -/

namespace Sys2Proof.Machine

/-- The outcome of an event at unit `n` of `count`: a unit that the device does not have faults. -/
def onUnit (n count : Nat) (t : State) : Host.Outcome State Fault Refusal := if n < count then .next t else .fault .noSuchUnit

/-- The outcome of an event that names two units. -/
def onUnits (n count m countM : Nat) (t : State) : Host.Outcome State Fault Refusal :=
  if n < count ∧ m < countM then .next t else .fault .noSuchUnit

/-- `DEVICE_INFO` (R375). -/
def execDeviceInfo (p : Packet) (s : State) : Host.Outcome State Fault Refusal := .next (s.submit 0x0101 p)

/-- `NET_CONFIG` (R376). -/
def execNetConfig (p : Packet) (s : State) : Host.Outcome State Fault Refusal := .next (s.submit 0x0110 p)

/-- `MEM_READ` (R377). -/
def execMemRead (p : Packet) (s : State) : Host.Outcome State Fault Refusal := .next (s.submit 0x0201 p)

/-- `MEM_WRITE` (R377). -/
def execMemWrite (p : Packet) (s : State) : Host.Outcome State Fault Refusal := .next (s.submit 0x0202 p)

/-- `CSR_WRITE` (R378). -/
def execCsrWrite (p : Packet) (s : State) : Host.Outcome State Fault Refusal := .next (s.submit 0x0203 p)

/-- `STREAM_ARM` (R252). -/
def execStreamArm (p : Packet) (s : State) : Host.Outcome State Fault Refusal := .next (s.submit 0x0210 p)

/-- `STREAM_CANCEL` (R252). -/
def execStreamCancel (p : Packet) (s : State) : Host.Outcome State Fault Refusal := .next (s.submit 0x0211 p)

/-- `STREAM_STATUS` (R379). -/
def execStreamStatus (p : Packet) (s : State) : Host.Outcome State Fault Refusal := .next (s.submit 0x0212 p)

/-- `QP_CONNECT` (R357). -/
def execQpConnect (p : Packet) (s : State) : Host.Outcome State Fault Refusal := .next (s.submit 0x0220 p)

/-- `XFER_OPEN` (R360). -/
def execXferOpen (p : Packet) (s : State) : Host.Outcome State Fault Refusal := .next (s.submit 0x0221 p)

/-- `XFER_CLOSE` (R364). -/
def execXferClose (p : Packet) (s : State) : Host.Outcome State Fault Refusal := .next (s.submit 0x0222 p)

/-- `XFER_STATUS` (R379). -/
def execXferStatus (p : Packet) (s : State) : Host.Outcome State Fault Refusal := .next (s.submit 0x0223 p)

/-- `JOB_CREATE` (R381). -/
def execJobCreate (p : Packet) (s : State) : Host.Outcome State Fault Refusal := .next (s.submit 0x0301 p)

/-- `JOB_MODIFY` (R382). -/
def execJobModify (p : Packet) (s : State) : Host.Outcome State Fault Refusal := .next (s.submit 0x0302 p)

/-- `JOB_RELEASE` (R383). -/
def execJobRelease (p : Packet) (s : State) : Host.Outcome State Fault Refusal := .next (s.submit 0x0303 p)

/-- `CONTEXT_CREATE` (R384). -/
def execContextCreate (p : Packet) (s : State) : Host.Outcome State Fault Refusal := .next (s.submit 0x0304 p)

/-- `CONTEXT_RELEASE` (R384). -/
def execContextRelease (p : Packet) (s : State) : Host.Outcome State Fault Refusal := .next (s.submit 0x0305 p)

/-- `STEP_BEGIN` (R272). -/
def execStepBegin (p : Packet) (s : State) : Host.Outcome State Fault Refusal := .next (s.submit 0x0310 p)

/-- `BARRIER` (R264). -/
def execBarrier (p : Packet) (s : State) : Host.Outcome State Fault Refusal := .next (s.submit 0x0311 p)

/-- `HAYLOFT_POP` (R282). -/
def execHayloftPop (p : Packet) (s : State) : Host.Outcome State Fault Refusal := .next (s.submit 0x0312 p)

/-- `HAYLOFT_FREE` (R284). -/
def execHayloftFree (p : Packet) (s : State) : Host.Outcome State Fault Refusal := .next (s.submit 0x0313 p)

/-- `GRAD_OPEN` (R286). -/
def execGradOpen (p : Packet) (s : State) : Host.Outcome State Fault Refusal := .next (s.submit 0x0314 p)

/-- `PHASE_MARK` (R299). -/
def execPhaseMark (p : Packet) (s : State) : Host.Outcome State Fault Refusal := .next (s.submit 0x0315 p)

/-- `ROW` (R291). -/
def execRow (p : Packet) (s : State) : Host.Outcome State Fault Refusal := .next (s.submit 0x0316 p)

/-- `OP_CANCEL` (R385). -/
def execOpCancel (p : Packet) (s : State) : Host.Outcome State Fault Refusal := .next (s.submit 0x0320 p)

/-- `OP_ISSUE` (R196). -/
def execOpIssue (p : Packet) (s : State) : Host.Outcome State Fault Refusal := .next (s.submit 0x0401 p)

/-- `COLLECTIVE` (R321). -/
def execCollective (p : Packet) (s : State) : Host.Outcome State Fault Refusal := .next (s.submit 0x0501 p)

/-- `MAP_SET` (R317). -/
def execMapSet (p : Packet) (s : State) : Host.Outcome State Fault Refusal := .next (s.submit 0x0502 p)

/-- `GRAD_NORM` (R297). -/
def execGradNorm (p : Packet) (s : State) : Host.Outcome State Fault Refusal := .next (s.submit 0x0503 p)

/-- `POWER_CAP_SET` (R425). -/
def execPowerCapSet (p : Packet) (s : State) : Host.Outcome State Fault Refusal := .next (s.submit 0x0601 p)

/-- `PHASE_POINTS_SET` (R426). -/
def execPhasePointsSet (p : Packet) (s : State) : Host.Outcome State Fault Refusal := .next (s.submit 0x0602 p)

/-- `POWER_READ` (R427). -/
def execPowerRead (p : Packet) (s : State) : Host.Outcome State Fault Refusal := .next (s.submit 0x0603 p)

/-- `ENERGY_READ` (R428). -/
def execEnergyRead (p : Packet) (s : State) : Host.Outcome State Fault Refusal := .next (s.submit 0x0604 p)

/-- `THROTTLE_READ` (R429). -/
def execThrottleRead (p : Packet) (s : State) : Host.Outcome State Fault Refusal := .next (s.submit 0x0605 p)

/-- `STEP_COMMIT` (R439). -/
def execStepCommit (p : Packet) (s : State) : Host.Outcome State Fault Refusal := .next (s.submit 0x0701 p)

/-- `CHECKPOINT_SET` (R442). -/
def execCheckpointSet (p : Packet) (s : State) : Host.Outcome State Fault Refusal := .next (s.submit 0x0702 p)

/-- `RESTORE` (R449). -/
def execRestore (p : Packet) (s : State) : Host.Outcome State Fault Refusal := .next (s.submit 0x0703 p)

/-- `MIRROR_PAIR` (R450). -/
def execMirrorPair (p : Packet) (s : State) : Host.Outcome State Fault Refusal := .next (s.submit 0x0704 p)

/-- `MIRROR_UNPAIR` (R450). -/
def execMirrorUnpair (p : Packet) (s : State) : Host.Outcome State Fault Refusal := .next (s.submit 0x0705 p)

/-- `FAILOVER` (R454). -/
def execFailover (p : Packet) (s : State) : Host.Outcome State Fault Refusal := .next (s.submit 0x0706 p)

/-- `SPARE_POLICY_SET` (R437). -/
def execSparePolicySet (p : Packet) (s : State) : Host.Outcome State Fault Refusal := .next (s.submit 0x0707 p)

/-- `LEASE_GRANT` (R455). -/
def execLeaseGrant (p : Packet) (s : State) : Host.Outcome State Fault Refusal := .next (s.submit 0x0708 p)

/-- `IDENTITY_READ` (R476). -/
def execIdentityRead (p : Packet) (s : State) : Host.Outcome State Fault Refusal := .next (s.submit 0x0801 p)

/-- `ATTEST` (R475). -/
def execAttest (p : Packet) (s : State) : Host.Outcome State Fault Refusal := .next (s.submit 0x0802 p)

/-- `FW_STAGE` (R471). -/
def execFwStage (p : Packet) (s : State) : Host.Outcome State Fault Refusal := .next (s.submit 0x0803 p)

/-- `FW_ACTIVATE` (R471). -/
def execFwActivate (p : Packet) (s : State) : Host.Outcome State Fault Refusal := .next (s.submit 0x0804 p)

/-- `RESET_WARM` (R464). -/
def execResetWarm (p : Packet) (s : State) : Host.Outcome State Fault Refusal := .next (s.submit 0x0805 p)

/-- `JOURNAL_INFO` (R395). -/
def execJournalInfo (p : Packet) (s : State) : Host.Outcome State Fault Refusal := .next (s.submit 0x0901 p)

/-- `JOURNAL_READ` (R396). -/
def execJournalRead (p : Packet) (s : State) : Host.Outcome State Fault Refusal := .next (s.submit 0x0902 p)

/-- `BITMAP_READ` (R397). -/
def execBitmapRead (p : Packet) (s : State) : Host.Outcome State Fault Refusal := .next (s.submit 0x0903 p)

/-- `CSR_READ` (R378). -/
def execCsrRead (p : Packet) (s : State) : Host.Outcome State Fault Refusal := .next (s.submit 0x0904 p)

/-- `RETIRED_LIST` (R398). -/
def execRetiredList (p : Packet) (s : State) : Host.Outcome State Fault Refusal := .next (s.submit 0x0905 p)

/-- `MEM_TEST` (R398). -/
def execMemTest (p : Packet) (s : State) : Host.Outcome State Fault Refusal := .next (s.submit 0x0910 p)

/-- `SET_DATE` (R477). -/
def execSetDate (p : Packet) (s : State) : Host.Outcome State Fault Refusal := .next (s.submit 0x0A01 p)

/-- `LIFE_READ` (R482). -/
def execLifeRead (p : Packet) (s : State) : Host.Outcome State Fault Refusal := .next (s.submit 0x0A02 p)

/-- `UNASSIGNED_OPCODE` (R371). -/
def execUnassignedOpcode (opcode : U16) (p : Packet) (s : State) : Host.Outcome State Fault Refusal :=
  .next (s.submit opcode.toNat p)

/-- `BAD_WOROR_PACKET` (R352). -/
def execBadWororPacket (d : Datagram) (taken : Nat) (s : State) : Host.Outcome State Fault Refusal :=
  .next (s.datagram d taken)

/-- `HELD_COMMAND_EXPIRY` (R353). -/
def execHeldCommandExpiry (seq : U32) (s : State) : Host.Outcome State Fault Refusal := .next (s.heldExpires seq)

/-- `JOURNAL_MIRROR_WRITE` (R389). -/
def execJournalMirrorWrite (slot : Nat) (s : State) : Host.Outcome State Fault Refusal := onUnit slot 65536 (s.mirrorWrite slot)

end Sys2Proof.Machine
end

