-- ==== Sys2Proof/Machine/FabricRows.lean ====
section
/-! DEFINITION. Events of the fabric ports, of the collectives and of mirror pairs (R303-R342, R436-R457). -/

namespace Sys2Proof.Machine

/-- One flit has been replayed 16 times in a row (R307). -/
def State.replayLimit (s : State) (p : Nat) : State :=
  if (s.port p).up ∧ 16 ≤ (s.port p).replaysInRow then s.retrain p false else s

/-- A lane of a port that is up loses lock (R307). -/
def State.laneLost (s : State) (p : Nat) : State := if (s.port p).up then s.retrain p false else s

/-- `DATA_FLIT` (R306). -/
def execDataFlit (port : Nat) (f : Flit) (s : State) : Host.Outcome State Fault Refusal := onUnit port 8 (s.flitIn port f)

/-- `ACK_FLIT` (R306). -/
def execAckFlit (port : Nat) (ackSeq : BitVec 12) (s : State) : Host.Outcome State Fault Refusal :=
  onUnit port 8 (s.ackFlits port ackSeq.toNat)

/-- `NAK_FLIT` (R306). -/
def execNakFlit (port : Nat) (missing : BitVec 12) (s : State) : Host.Outcome State Fault Refusal :=
  onUnit port 8 (s.nakIn port missing.toNat)

/-- `REPLAY_LIMIT` (R307). -/
def execReplayLimit (port : Nat) (s : State) : Host.Outcome State Fault Refusal := onUnit port 8 (s.replayLimit port)

/-- `ACK_FLIT_TIMER` (R306). -/
def execAckFlitTimer (port : Nat) (s : State) : Host.Outcome State Fault Refusal := onUnit port 8 (s.ackTimer port)

/-- `LANE_LOSS_OF_LOCK` (R307). -/
def execLaneLossOfLock (port lane : Nat) (s : State) : Host.Outcome State Fault Refusal :=
  onUnits port 8 lane 4 (s.laneLost port)

/-- `PORT_RETRAIN_COMPLETE` (R307). -/
def execPortRetrainComplete (port : Nat) (r : TrainResult) (s : State) : Host.Outcome State Fault Refusal :=
  onUnit port 8 (s.trained port r)

/-- `PACKET_FORWARD` (R311). -/
def execPacketForward (k : FabPacket) (s : State) : Host.Outcome State Fault Refusal := .next (s.forward k)

/-- `READY` (R323). -/
def execReady (k : FabPacket) (s : State) : Host.Outcome State Fault Refusal :=
  .next (if isPairPacket k then s.mirrorAsked k else s.greetingIn k)

/-- `DATA` (R329). -/
def execData (k : FabPacket) (s : State) : Host.Outcome State Fault Refusal :=
  .next (if isPairPacket k then s.mirrorData k else s.dataIn k)

/-- `JOIN` (R324). -/
def execJoin (k : FabPacket) (s : State) : Host.Outcome State Fault Refusal :=
  .next (if isPairPacket k then s.pairJoin k else s.greetingIn k)

/-- `E2E_ACK` (R312). -/
def execE2eAck (k : FabPacket) (s : State) : Host.Outcome State Fault Refusal :=
  .next (if isPairPacket k then s.mirrorAck k else s.ackIn k)

/-- `E2E_ACK_TIMEOUT` (R312). -/
def execE2eAckTimeout (k : FabPacket) (s : State) : Host.Outcome State Fault Refusal := .next (s.ackTimeout k)

/-- `STEP_ABORT` (R339). -/
def execStepAbort (k : FabPacket) (s : State) : Host.Outcome State Fault Refusal := .next (s.abortIn k)

/-- `PEER_TIMEOUT` (R338). -/
def execPeerTimeout (seq : Nat) (s : State) : Host.Outcome State Fault Refusal := .next (s.peerTimeout seq)

/-- `PEER_LOST` (R436). -/
def execPeerLost (job device : Nat) (s : State) : Host.Outcome State Fault Refusal := onUnit job 4 ((s.lossPasses job device).peerIsLost job device)

/-- `SPARE_DUE` (R437). -/
def execSpareDue (job : Nat) (s : State) : Host.Outcome State Fault Refusal := onUnit job 4 (s.spareIsDue job)

/-- `PAIR_TIMEOUT` (R452). -/
def execPairTimeout (job : Nat) (s : State) : Host.Outcome State Fault Refusal := onUnit job 4 (s.pairTimesOut job)

/-- `HEARTBEAT` (R451). -/
def execHeartbeat (job : Nat) (s : State) : Host.Outcome State Fault Refusal := onUnit job 4 (s.heartbeat job)

/-- `MIRROR_PAIR_TIMEOUT` (R450). -/
def execMirrorPairTimeout (job : Nat) (s : State) : Host.Outcome State Fault Refusal := onUnit job 4 (s.pairLate job)

/-- `MIRROR_COPY_COMPLETE` (R451). -/
def execMirrorCopyComplete (job : Nat) (s : State) : Host.Outcome State Fault Refusal := onUnit job 4 (s.imageReceived job)

/-- `CHECKPOINT_COMPLETE` (R445). -/
def execCheckpointComplete (job : Nat) (s : State) : Host.Outcome State Fault Refusal := onUnit job 4 (s.ckptComplete job)

/-- `RESTORE_COMPLETE` (R449). -/
def execRestoreComplete (job : Nat) (s : State) : Host.Outcome State Fault Refusal := onUnit job 4 (s.restoreEnds job)

/-- `IMAGE_APPLY_COMPLETE` (R454). -/
def execImageApplyComplete (job : Nat) (s : State) : Host.Outcome State Fault Refusal := onUnit job 4 (s.imageApplied job)

/-- `LEASE_LAPSE` (R456). -/
def execLeaseLapse (s : State) : Host.Outcome State Fault Refusal := .next s.leaseLapses

end Sys2Proof.Machine
end

