-- ==== Sys2Proof/Machine/HostRows.lean ====
section
/-! DEFINITION. Events of the host port (R343-R366). -/

namespace Sys2Proof.Machine

/-- `DROPPED_FRAME` (R345). -/
def execDroppedFrame (why : DropReason) (s : State) : Host.Outcome State Fault Refusal := .next (s.dropFrame why)

/-- `ARP_REQUEST` (R349). -/
def execArpRequest (target : U32) (asker : U32) (mac : Asker) (s : State) : Host.Outcome State Fault Refusal :=
  .next (s.arp target asker mac)

/-- `NEIGHBOR_SOLICITATION` (R349). -/
def execNeighborSolicitation (target : IpAddr) (asker : IpAddr) (mac : Asker) (s : State) : Host.Outcome State Fault Refusal :=
  .next (s.neighborAsked target asker mac)

/-- `ECHO_REQUEST` (R349). -/
def execEchoRequest (target : IpAddr) (asker : IpAddr) (mac : Asker) (payload : List Byte) (s : State) : Host.Outcome State Fault Refusal :=
  .next (s.echoAsked target asker mac payload)

/-- `PFC_FRAME` (R347). -/
def execPfcFrame (prio : BitVec 3) (pause : Pause) (s : State) : Host.Outcome State Fault Refusal := .next (s.pfc prio pause)

/-- `SEND` (R356). -/
def execSend (r : RocePacket) (s : State) : Host.Outcome State Fault Refusal := .next (s.sendIn r)

/-- `RDMA_WRITE` (R361). -/
def execRdmaWrite (r : RocePacket) (s : State) : Host.Outcome State Fault Refusal := .next (s.rdmaWrite r)

/-- `RDMA_READ_REQUEST` (R363). -/
def execRdmaReadRequest (r : RocePacket) (s : State) : Host.Outcome State Fault Refusal := .next (s.rdmaRead r)

/-- `ROCE_INVALID_REQUEST` (R356). -/
def execRoceInvalidRequest (r : RocePacket) (s : State) : Host.Outcome State Fault Refusal := .next (s.roceInvalid r)

/-- `CNP` (R359). -/
def execCnp (r : RocePacket) (s : State) : Host.Outcome State Fault Refusal := .next (s.cnpIn r)

/-- `CNP_RATE_RESTORE` (R359). -/
def execCnpRateRestore (qpi : Nat) (s : State) : Host.Outcome State Fault Refusal := onUnit qpi 64 (s.rateRestore qpi)

/-- `HOST_TRANSFER_COMPLETE` (R362). -/
def execHostTransferComplete (slot : Nat) (s : State) : Host.Outcome State Fault Refusal :=
  onUnit slot 256 (s.xferComplete slot)

/-- `HOST_TIMEOUT` (R365). -/
def execHostTimeout (slot : Nat) (s : State) : Host.Outcome State Fault Refusal := onUnit slot 256 (s.hostTimedOut slot)

/-- `HOST_LANE_LOSS_OF_LOCK` (R344). -/
def execHostLaneLossOfLock (lane : Nat) (s : State) : Host.Outcome State Fault Refusal := onUnit lane 8 (s.hostLaneLost lane)

/-- `HOST_PORT_TRAINED` (R344). -/
def execHostPortTrained (locked : BitVec 8) (s : State) : Host.Outcome State Fault Refusal := .next (s.hostTrained locked)

end Sys2Proof.Machine
end

