-- ==== Sys2Proof/Machine/PowerRows.lean ====
section
/-! DEFINITION. Power, clocks, reset, boot and the sideband (R401-R430, R462-R483, R485-R494). -/

namespace Sys2Proof.Machine

/-- `CAP_LOOP_PERIOD` (R410). -/
def execCapLoopPeriod (t : Telemetry) (s : State) : Host.Outcome State Fault Refusal := .next (s.capLoop t)

/-- `TELEMETRY_LOST` (R411). -/
def execTelemetryLost (s : State) : Host.Outcome State Fault Refusal := .next s.telemetryIsLost

/-- `THERMAL_CEILING_STEP` (R418). -/
def execThermalCeilingStep (paddock : Nat) (s : State) : Host.Outcome State Fault Refusal :=
  onUnit paddock 20 (s.thermalStep paddock)

/-- `VRM_AT_TARGET` (R413). -/
def execVrmAtTarget (quarter : Nat) (s : State) : Host.Outcome State Fault Refusal := onUnit quarter 4 (s.vrmReached quarter)

/-- `DROOP_TRIP` (R415). -/
def execDroopTrip (paddock supplyMv : Nat) (s : State) : Host.Outcome State Fault Refusal :=
  onUnit paddock 20 (s.droop paddock supplyMv)

/-- `STRETCH_END` (R416). -/
def execStretchEnd (held : Steady) (s : State) : Host.Outcome State Fault Refusal := onUnit held.paddock 20 (s.droopEnds held)

/-- `BRAKE_N_LOW` (R419). -/
def execBrakeNLow (s : State) : Host.Outcome State Fault Refusal := .next s.brake

/-- `BRAKE_N_RELEASE` (R419). -/
def execBrakeNRelease (s : State) : Host.Outcome State Fault Refusal := .next s.brakeEnds

/-- `VRM_ALERT` (R421). -/
def execVrmAlert (d : Disturbance) (standing : Bool) (s : State) : Host.Outcome State Fault Refusal :=
  .next (s.vrmAlert d standing)

/-- `VRM_RECOVERY_TIMER` (R421). -/
def execVrmRecoveryTimer (d : Disturbance) (s : State) : Host.Outcome State Fault Refusal := .next (s.vrmRecovered d)

/-- `HOURLY_RECORD` (R478). -/
def execHourlyRecord (h : HourlyData) (s : State) : Host.Outcome State Fault Refusal := .next (s.hourly h)

/-- `WATCHDOG_EXPIRY` (R435). -/
def execWatchdogExpiry (core : Nat) (s : State) : Host.Outcome State Fault Refusal :=
  onUnit core 4 (s.warmAsked (.watchdog core))

/-- `PLL_LOSS_OF_LOCK` (R435). -/
def execPllLossOfLock (p : Pll) (s : State) : Host.Outcome State Fault Refusal := .next (s.pllLost p)

/-- `PLL_RELOCK_TIMEOUT` (R435). -/
def execPllRelockTimeout (p : Pll) (s : State) : Host.Outcome State Fault Refusal := .next (s.relockFails p)

/-- `WARM_RESET` (R462). -/
def execWarmReset (c : WarmCause) (s : State) : Host.Outcome State Fault Refusal := .next (s.warmReset c)

/-- `JOB_TABLE_RELOAD` (R463). -/
def execJobTableReload (s : State) : Host.Outcome State Fault Refusal := .next s.tableReloaded

/-- `RESET_N_FALL` (R462). -/
def execResetNFall (s : State) : Host.Outcome State Fault Refusal := .next s.coldReset

/-- `RESET_N_RISE` (R465). -/
def execResetNRise (straps : Straps) (s : State) : Host.Outcome State Fault Refusal := .next (s.resetRises straps)

/-- `PLL_LOCK` (R466); host accesses that waited for it are performed (R435). -/
def execPllLock (p : Pll) (s : State) : Host.Outcome State Fault Refusal := .next (s.pllLocks p).hostGoesOn

/-- `PLL_LOCK_TIMEOUT` (R466). -/
def execPllLockTimeout (p : Pll) (s : State) : Host.Outcome State Fault Refusal := .next (s.pllFails p)

/-- `ROM_STAGE_END` (R468). -/
def execRomStageEnd (s : State) : Host.Outcome State Fault Refusal := .next s.romEnds

/-- `STAGE_1_END` (R473). -/
def execStage1End (s : State) : Host.Outcome State Fault Refusal := .next s.stage1Ends

/-- `MAIN_STAGE_END` (R465). -/
def execMainStageEnd (t : Training) (s : State) : Host.Outcome State Fault Refusal := .next (s.mainEnds t)

end Sys2Proof.Machine
end

