-- ==== Sys2Proof/Machine/QueueRows.lean ====
section
/-! DEFINITION. Entries at the heads of context queues take effect, and releases complete (R196-R204, R264-R300, R314-R337). -/

namespace Sys2Proof.Machine

/-- `STEP_BEGIN_TAKES_EFFECT` (R274). -/
def execStepBeginTakesEffect (seq : Nat) (s : State) : Host.Outcome State Fault Refusal := .next (s.stepTake seq)

/-- `BARRIER_COMPLETE` (R265). -/
def execBarrierComplete (seq : Nat) (s : State) : Host.Outcome State Fault Refusal := .next (s.barrierEnd seq)

/-- `HAYLOFT_POP_TAKES_EFFECT` (R282). -/
def execHayloftPopTakesEffect (seq : Nat) (s : State) : Host.Outcome State Fault Refusal := .next (s.popTake seq)

/-- `HAYLOFT_FREE_TAKES_EFFECT` (R284). -/
def execHayloftFreeTakesEffect (seq : Nat) (s : State) : Host.Outcome State Fault Refusal := .next (s.freeTake seq)

/-- `GRAD_OPEN_TAKES_EFFECT` (R287). -/
def execGradOpenTakesEffect (seq : Nat) (s : State) : Host.Outcome State Fault Refusal := .next (s.gradOpens seq)

/-- `PHASE_MARK_TAKES_EFFECT` (R299). -/
def execPhaseMarkTakesEffect (seq : Nat) (s : State) : Host.Outcome State Fault Refusal := .next (s.phaseMarks seq)

/-- `OPERATION_START` (R196). -/
def execOperationStart (seq : Nat) (s : State) : Host.Outcome State Fault Refusal := .next (s.opStart seq)

/-- `COLLECTIVE_START` (R323). -/
def execCollectiveStart (seq : Nat) (s : State) : Host.Outcome State Fault Refusal := .next (s.startColl seq)

/-- `GRAD_NORM_START` (R297). -/
def execGradNormStart (seq : Nat) (s : State) : Host.Outcome State Fault Refusal := .next (s.startColl seq)

/-- `COLLECTIVE_COMPLETE` (R324). -/
def execCollectiveComplete (seq : Nat) (s : State) : Host.Outcome State Fault Refusal := .next (s.collTake seq)

/-- `MAP_SET_TAKES_EFFECT` (R317). -/
def execMapSetTakesEffect (seq : Nat) (s : State) : Host.Outcome State Fault Refusal := .next (s.mapTake seq)

/-- `STEP_COMMIT_TAKES_EFFECT` (R439). -/
def execStepCommitTakesEffect (seq : Nat) (s : State) : Host.Outcome State Fault Refusal := .next (s.commitTake seq)

/-- `APPLY_PASS_END` (R257). -/
def execApplyPassEnd (seq : Nat) (s : State) : Host.Outcome State Fault Refusal := .next (s.applyEnd seq)

/-- `CANCELLATION_COMPLETE` (R254). -/
def execCancellationComplete (seq : Nat) (s : State) : Host.Outcome State Fault Refusal := .next (s.cancelDone seq)

/-- `SPILL_COMPLETE` (R281). -/
def execSpillComplete (ctx : Nat) (s : State) : Host.Outcome State Fault Refusal := onUnit ctx 16 (s.spillDone ctx)

/-- `REFILL_COMPLETE` (R281). -/
def execRefillComplete (ctx : Nat) (s : State) : Host.Outcome State Fault Refusal := onUnit ctx 16 (s.refillDone ctx)

/-- `STREAM_TRANSFER_START` (R250). -/
def execStreamTransferStart (job : Nat) (turn : StreamTurn) (s : State) : Host.Outcome State Fault Refusal :=
  onUnits job 4 turn.sd 64 (s.transferStart job turn.sd turn.found)

/-- `ZEROING_COMPLETE` (R217). -/
def execZeroingComplete (job : Nat) (s : State) : Host.Outcome State Fault Refusal := onUnit job 4 ((s.zeroingEnds job).throttleNow)

end Sys2Proof.Machine
end

