-- ==== Sys2Proof/Machine/RegisterRows.lean ====
section
/-! DEFINITION. Writes of control fields of registers (R75-R111, R269-R275, R306-R312, R342-R344). -/

namespace Sys2Proof.Machine

/-- `TILE_CNT_CLR_PHASE` (R110). -/
def execTileCntClrPhase (tile : Nat) (s : State) : Host.Outcome State Fault Refusal :=
  onUnit tile 800 (s.modTile tile Tile.clrPhase)

/-- `TILE_CNT_CLR_FTQ` (R110). -/
def execTileCntClrFtq (tile : Nat) (s : State) : Host.Outcome State Fault Refusal :=
  onUnit tile 800 (s.modTile tile Tile.clrFtq)

/-- `TILE_CNT_CLR_ACC` (R110). -/
def execTileCntClrAcc (tile : Nat) (s : State) : Host.Outcome State Fault Refusal :=
  onUnit tile 800 (s.modTile tile Tile.clrAcc)

/-- `TILE_CNT_CLR_PORT` (R110). -/
def execTileCntClrPort (tile : Nat) (s : State) : Host.Outcome State Fault Refusal :=
  onUnit tile 800 (s.modTile tile Tile.clrPort)

/-- `STP_CLR_ALL` (R271). -/
def execStpClrAll (s : State) : Host.Outcome State Fault Refusal := .next s.stpClear

/-- `FID_WRITE` (R309). -/
def execFidWrite (fid : BitVec 12) (s : State) : Host.Outcome State Fault Refusal := .next (s.writeFid fid.toNat)

/-- `FAB_RETRAIN` (R307). -/
def execFabRetrain (port : Nat) (s : State) : Host.Outcome State Fault Refusal := onUnit port 8 (s.retrain port true)

/-- `FAB_PORT_ENABLE` (R342). -/
def execFabPortEnable (port : Nat) (on : Bool) (s : State) : Host.Outcome State Fault Refusal :=
  onUnit port 8 (s.enablePort port on)

/-- `HOSTP_RETRAIN` (R344). -/
def execHostpRetrain (s : State) : Host.Outcome State Fault Refusal := .next s.hostRetrain

end Sys2Proof.Machine
end

