-- ==== Sys2Proof/Machine/ReportRows.lean ====
section
/-! DEFINITION. The sideband interface and the end of an attestation (R475, R493). -/

namespace Sys2Proof.Machine

/-- `SIDEBAND_WRITE` (R493). -/
def execSidebandWrite (w : SbWrite) (s : State) : Host.Outcome State Fault Refusal := .next (s.sidebandWrite w)

/-- `SIDEBAND_READ` (R493). -/
def execSidebandRead (r : SbRead) (s : State) : Host.Outcome State Fault Refusal := .next (s.sidebandRead r)

/-- `ATTEST_REPORT_COMPLETE` (R475). -/
def execAttestReportComplete (s : State) : Host.Outcome State Fault Refusal := .next s.reportDone.flushReplies

end Sys2Proof.Machine
end

