-- ==== Sys2Proof/Machine/TileRows.lean ====
section
/-! DEFINITION. The work of the tiles and the skips, and the care of the memory tiers (R69-R111, R200-R201, R212-R241). -/

namespace Sys2Proof.Machine

/-- The `UNCORR` fields of the tile's four `TILE_ECC_*` counters, summed (R432). -/
def Tile.uncorrSum (t : Tile) : Nat := t.ecc.foldl (fun n e => n + e.uncorr) 0

/-- The sender of a write counts its acknowledgement (R218, R239, R249). -/
def State.ownerAck (s : State) (r : WriteReq) : State :=
  match r.owner with
  | .tile m => s.modTile m fun t =>
      if t.phase = .store ∧ t.item.map ItemRef.op = some r.handle then { t with storesLeft := t.storesLeft - 1 } else t
  | .stream jn d gen g => s.segAck jn d gen g r.bytes.length
  | .coll q => s.collAck q r.bytes.length
  | .host slot gen _ => s.hostAck slot gen
  | .other => s

/-- The oldest write that a skip has issued is performed and acknowledged; its sender counts it (R239). -/
def State.writeAcked (s : State) (n : Nat) : State :=
  match (s.skip n).issued with
  | [] => s
  | r :: rest =>
    if s.tierWaits r.da r.bytes.length then s
    else ((s.performWrite r).modSkip n fun k => { k with issued := rest }).ownerAck r

/-- `TAKE` (R202). -/
def execTake (tile : Nat) (s : State) : Host.Outcome State Fault Refusal := onUnit tile 800 (s.takeItem tile)

/-- `DONE_MESSAGE` (R201). -/
def execDoneMessage (tile : Nat) (s : State) : Host.Outcome State Fault Refusal := onUnit tile 800 (s.doneItem tile)

/-- `PULL_ISSUE` (R109). -/
def execPullIssue (tile : Nat) (s : State) : Host.Outcome State Fault Refusal := onUnit tile 800 (s.issuePull tile)

/-- `PULL` (R238). -/
def execPull (skip tile : Nat) (s : State) : Host.Outcome State Fault Refusal := onUnits skip 48 tile 800 (s.pullAt skip tile)

/-- `SKIP_READ_RETURN` (R236). -/
def execSkipReadReturn (skip : Nat) (found : List Ecc) (s : State) : Host.Outcome State Fault Refusal :=
  onUnit skip 48 (s.skipReturn skip found)

/-- `COMPUTE_START` (R36). -/
def execComputeStart (tile : Nat) (s : State) : Host.Outcome State Fault Refusal := onUnit tile 800 (s.beginCompute tile)

/-- `K_RUN_END` (R76). -/
def execKRunEnd (tile : Nat) (f : TileFaults) (s : State) : Host.Outcome State Fault Refusal :=
  onUnit tile 800 (s.kRunEnd tile f)

/-- `SCATTERED_PARTIAL` (R84). -/
def execScatteredPartial (tile : Nat) (f : TileFaults) (s : State) : Host.Outcome State Fault Refusal :=
  onUnit tile 800 (s.scattered tile f)

/-- `RECOVERED_LIMIT` (R71). -/
def execRecoveredLimit (tile : Nat) (s : State) : Host.Outcome State Fault Refusal :=
  onUnit tile 800 (if 64 ≤ (s.tile tile).recovered then s.quarantine tile 3 else s)

/-- `ECC_QUARANTINE_LIMIT` (R432). -/
def execEccQuarantineLimit (tile : Nat) (s : State) : Host.Outcome State Fault Refusal :=
  onUnit tile 800 (if 4 ≤ (s.tile tile).uncorrSum then s.quarantine tile 4 else s)

/-- `FTQ_ENTRY_RETIRE` (R106). -/
def execFtqEntryRetire (tile : Nat) (f : TileFaults) (s : State) : Host.Outcome State Fault Refusal :=
  onUnit tile 800 (s.retire tile f)

/-- `STORE_START` (R36). -/
def execStoreStart (tile : Nat) (s : State) : Host.Outcome State Fault Refusal := onUnit tile 800 (s.beginStore tile)

/-- `SKIP_WRITE` (R239). -/
def execSkipWrite (skip : Nat) (s : State) : Host.Outcome State Fault Refusal := onUnit skip 48 (s.issueWrite skip)

/-- `WRITE_ACKNOWLEDGED` (R239). -/
def execWriteAcknowledged (skip : Nat) (s : State) : Host.Outcome State Fault Refusal := onUnit skip 48 (s.writeAcked skip)

/-- `ATOMIC` (R96). -/
def execAtomic (tile : Nat) (a : AtomicAccess) (s : State) : Host.Outcome State Fault Refusal :=
  onUnit tile 800 (s.atomic tile a)

/-- `FLAG_WRITE` (R267). -/
def execFlagWrite (da : Nat) (value : U64) (s : State) : Host.Outcome State Fault Refusal := .next (s.flagWrite da value)

/-- `FLAG_POLL` (R267): the flag is read again; what waits on it reads it when it goes on, so nothing changes here. -/
def execFlagPoll (_da : Nat) (s : State) : Host.Outcome State Fault Refusal := .next s

/-- `COMPAT_PROGRAM_END` (R205). -/
def execCompatProgramEnd (tile : Nat) (s : State) : Host.Outcome State Fault Refusal := onUnit tile 800 (s.programEnds tile)

/-- `COMPAT_INSN_STOP` (R206). -/
def execCompatInsnStop (tile : Nat) (offset : Nat) (s : State) : Host.Outcome State Fault Refusal :=
  onUnit tile 800 (s.programStops tile offset)

/-- `SCRUB_READ` (R222). -/
def execScrubRead (da : Nat) (found : ScrubFound) (s : State) : Host.Outcome State Fault Refusal :=
  .next (s.scrubRead da found.ecc found.onDie)

/-- `ECC_WRITE_BACK` (R221). -/
def execEccWriteBack (da : Nat) (s : State) : Host.Outcome State Fault Refusal := .next (s.writtenBack da)

/-- `SOFT_REPAIR` (R228). -/
def execSoftRepair (r : DramRow) (s : State) : Host.Outcome State Fault Refusal := .next (s.softRepair r)

/-- `MEM_TEST_COMPLETE` (R398). -/
def execMemTestComplete (errors : List (Nat × Bool)) (s : State) : Host.Outcome State Fault Refusal := .next (s.memTestEnds errors)

end Sys2Proof.Machine
end

