-- ==== Sys2Proof/Machine/Dispatch.lean ====
section
/-! DEFINITION. The meaning of every command: one arm for each row of the table. -/

namespace Sys2Proof.Machine

def exec (i : Instr) (s : State) : Host.Outcome State Fault Refusal :=
  match i with
  | .deviceInfo p => Sys2Proof.Machine.execDeviceInfo p s
  | .netConfig p => Sys2Proof.Machine.execNetConfig p s
  | .memRead p => Sys2Proof.Machine.execMemRead p s
  | .memWrite p => Sys2Proof.Machine.execMemWrite p s
  | .csrWrite p => Sys2Proof.Machine.execCsrWrite p s
  | .csrRead p => Sys2Proof.Machine.execCsrRead p s
  | .streamArm p => Sys2Proof.Machine.execStreamArm p s
  | .streamCancel p => Sys2Proof.Machine.execStreamCancel p s
  | .streamStatus p => Sys2Proof.Machine.execStreamStatus p s
  | .qpConnect p => Sys2Proof.Machine.execQpConnect p s
  | .xferOpen p => Sys2Proof.Machine.execXferOpen p s
  | .xferClose p => Sys2Proof.Machine.execXferClose p s
  | .xferStatus p => Sys2Proof.Machine.execXferStatus p s
  | .jobCreate p => Sys2Proof.Machine.execJobCreate p s
  | .jobModify p => Sys2Proof.Machine.execJobModify p s
  | .jobRelease p => Sys2Proof.Machine.execJobRelease p s
  | .contextCreate p => Sys2Proof.Machine.execContextCreate p s
  | .contextRelease p => Sys2Proof.Machine.execContextRelease p s
  | .stepBegin p => Sys2Proof.Machine.execStepBegin p s
  | .stepBeginTakesEffect seq => Sys2Proof.Machine.execStepBeginTakesEffect seq s
  | .barrier p => Sys2Proof.Machine.execBarrier p s
  | .barrierComplete seq => Sys2Proof.Machine.execBarrierComplete seq s
  | .hayloftPop p => Sys2Proof.Machine.execHayloftPop p s
  | .hayloftPopTakesEffect seq => Sys2Proof.Machine.execHayloftPopTakesEffect seq s
  | .hayloftFree p => Sys2Proof.Machine.execHayloftFree p s
  | .hayloftFreeTakesEffect seq => Sys2Proof.Machine.execHayloftFreeTakesEffect seq s
  | .gradOpen p => Sys2Proof.Machine.execGradOpen p s
  | .gradOpenTakesEffect seq => Sys2Proof.Machine.execGradOpenTakesEffect seq s
  | .phaseMark p => Sys2Proof.Machine.execPhaseMark p s
  | .phaseMarkTakesEffect seq => Sys2Proof.Machine.execPhaseMarkTakesEffect seq s
  | .row p => Sys2Proof.Machine.execRow p s
  | .opIssue p => Sys2Proof.Machine.execOpIssue p s
  | .operationStart seq => Sys2Proof.Machine.execOperationStart seq s
  | .opCancel p => Sys2Proof.Machine.execOpCancel p s
  | .collective p => Sys2Proof.Machine.execCollective p s
  | .collectiveStart seq => Sys2Proof.Machine.execCollectiveStart seq s
  | .collectiveComplete seq => Sys2Proof.Machine.execCollectiveComplete seq s
  | .mapSet p => Sys2Proof.Machine.execMapSet p s
  | .mapSetTakesEffect seq => Sys2Proof.Machine.execMapSetTakesEffect seq s
  | .gradNorm p => Sys2Proof.Machine.execGradNorm p s
  | .gradNormStart seq => Sys2Proof.Machine.execGradNormStart seq s
  | .powerCapSet p => Sys2Proof.Machine.execPowerCapSet p s
  | .phasePointsSet p => Sys2Proof.Machine.execPhasePointsSet p s
  | .powerRead p => Sys2Proof.Machine.execPowerRead p s
  | .energyRead p => Sys2Proof.Machine.execEnergyRead p s
  | .throttleRead p => Sys2Proof.Machine.execThrottleRead p s
  | .stepCommit p => Sys2Proof.Machine.execStepCommit p s
  | .stepCommitTakesEffect seq => Sys2Proof.Machine.execStepCommitTakesEffect seq s
  | .checkpointSet p => Sys2Proof.Machine.execCheckpointSet p s
  | .restore p => Sys2Proof.Machine.execRestore p s
  | .mirrorPair p => Sys2Proof.Machine.execMirrorPair p s
  | .mirrorUnpair p => Sys2Proof.Machine.execMirrorUnpair p s
  | .failover p => Sys2Proof.Machine.execFailover p s
  | .sparePolicySet p => Sys2Proof.Machine.execSparePolicySet p s
  | .leaseGrant p => Sys2Proof.Machine.execLeaseGrant p s
  | .identityRead p => Sys2Proof.Machine.execIdentityRead p s
  | .attest p => Sys2Proof.Machine.execAttest p s
  | .attestReportComplete => Sys2Proof.Machine.execAttestReportComplete s
  | .fwStage p => Sys2Proof.Machine.execFwStage p s
  | .fwActivate p => Sys2Proof.Machine.execFwActivate p s
  | .resetWarm p => Sys2Proof.Machine.execResetWarm p s
  | .journalInfo p => Sys2Proof.Machine.execJournalInfo p s
  | .journalRead p => Sys2Proof.Machine.execJournalRead p s
  | .bitmapRead p => Sys2Proof.Machine.execBitmapRead p s
  | .retiredList p => Sys2Proof.Machine.execRetiredList p s
  | .memTest p => Sys2Proof.Machine.execMemTest p s
  | .setDate p => Sys2Proof.Machine.execSetDate p s
  | .lifeRead p => Sys2Proof.Machine.execLifeRead p s
  | .tileCntClrPhase tile => Sys2Proof.Machine.execTileCntClrPhase tile s
  | .tileCntClrFtq tile => Sys2Proof.Machine.execTileCntClrFtq tile s
  | .tileCntClrAcc tile => Sys2Proof.Machine.execTileCntClrAcc tile s
  | .tileCntClrPort tile => Sys2Proof.Machine.execTileCntClrPort tile s
  | .stpClrAll => Sys2Proof.Machine.execStpClrAll s
  | .fidWrite fid => Sys2Proof.Machine.execFidWrite fid s
  | .fabRetrain port => Sys2Proof.Machine.execFabRetrain port s
  | .fabPortEnable port on => Sys2Proof.Machine.execFabPortEnable port on s
  | .hostpRetrain => Sys2Proof.Machine.execHostpRetrain s
  | .heldCommandExpiry seq => Sys2Proof.Machine.execHeldCommandExpiry seq s
  | .journalMirrorWrite slot => Sys2Proof.Machine.execJournalMirrorWrite slot s
  | .droppedFrame why => Sys2Proof.Machine.execDroppedFrame why s
  | .arpRequest target asker mac => Sys2Proof.Machine.execArpRequest target asker mac s
  | .neighborSolicitation target asker mac => Sys2Proof.Machine.execNeighborSolicitation target asker mac s
  | .echoRequest target asker mac payload => Sys2Proof.Machine.execEchoRequest target asker mac payload s
  | .pfcFrame prio quanta => Sys2Proof.Machine.execPfcFrame prio quanta s
  | .send r => Sys2Proof.Machine.execSend r s
  | .rdmaWrite r => Sys2Proof.Machine.execRdmaWrite r s
  | .rdmaReadRequest r => Sys2Proof.Machine.execRdmaReadRequest r s
  | .cnp qpn => Sys2Proof.Machine.execCnp qpn s
  | .cnpRateRestore qpi => Sys2Proof.Machine.execCnpRateRestore qpi s
  | .hostTransferComplete slot => Sys2Proof.Machine.execHostTransferComplete slot s
  | .hostTimeout slot => Sys2Proof.Machine.execHostTimeout slot s
  | .hostLaneLossOfLock lane => Sys2Proof.Machine.execHostLaneLossOfLock lane s
  | .hostPortTrained locked => Sys2Proof.Machine.execHostPortTrained locked s
  | .dataFlit port f => Sys2Proof.Machine.execDataFlit port f s
  | .ackFlit port ackSeq => Sys2Proof.Machine.execAckFlit port ackSeq s
  | .nakFlit port missing => Sys2Proof.Machine.execNakFlit port missing s
  | .replayLimit port => Sys2Proof.Machine.execReplayLimit port s
  | .ackFlitTimer port => Sys2Proof.Machine.execAckFlitTimer port s
  | .laneLossOfLock port lane => Sys2Proof.Machine.execLaneLossOfLock port lane s
  | .portRetrainComplete port r => Sys2Proof.Machine.execPortRetrainComplete port r s
  | .packetForward k => Sys2Proof.Machine.execPacketForward k s
  | .ready k => Sys2Proof.Machine.execReady k s
  | .data k => Sys2Proof.Machine.execData k s
  | .join k => Sys2Proof.Machine.execJoin k s
  | .e2eAck k => Sys2Proof.Machine.execE2eAck k s
  | .e2eAckTimeout k => Sys2Proof.Machine.execE2eAckTimeout k s
  | .stepAbort k => Sys2Proof.Machine.execStepAbort k s
  | .peerTimeout seq => Sys2Proof.Machine.execPeerTimeout seq s
  | .peerLost job device => Sys2Proof.Machine.execPeerLost job device s
  | .spareDue job => Sys2Proof.Machine.execSpareDue job s
  | .pairTimeout job => Sys2Proof.Machine.execPairTimeout job s
  | .heartbeat job => Sys2Proof.Machine.execHeartbeat job s
  | .mirrorPairTimeout job => Sys2Proof.Machine.execMirrorPairTimeout job s
  | .mirrorCopyComplete job => Sys2Proof.Machine.execMirrorCopyComplete job s
  | .checkpointComplete job => Sys2Proof.Machine.execCheckpointComplete job s
  | .restoreComplete job => Sys2Proof.Machine.execRestoreComplete job s
  | .leaseLapse => Sys2Proof.Machine.execLeaseLapse s
  | .take tile => Sys2Proof.Machine.execTake tile s
  | .doneMessage tile => Sys2Proof.Machine.execDoneMessage tile s
  | .applyPassEnd seq => Sys2Proof.Machine.execApplyPassEnd seq s
  | .pullIssue tile => Sys2Proof.Machine.execPullIssue tile s
  | .pull skip tile => Sys2Proof.Machine.execPull skip tile s
  | .skipReadReturn skip ecc => Sys2Proof.Machine.execSkipReadReturn skip ecc s
  | .computeStart tile => Sys2Proof.Machine.execComputeStart tile s
  | .kRunEnd tile f => Sys2Proof.Machine.execKRunEnd tile f s
  | .recoveredLimit tile => Sys2Proof.Machine.execRecoveredLimit tile s
  | .eccQuarantineLimit tile => Sys2Proof.Machine.execEccQuarantineLimit tile s
  | .ftqEntryRetire tile f => Sys2Proof.Machine.execFtqEntryRetire tile f s
  | .storeStart tile => Sys2Proof.Machine.execStoreStart tile s
  | .spillComplete ctx => Sys2Proof.Machine.execSpillComplete ctx s
  | .refillComplete ctx => Sys2Proof.Machine.execRefillComplete ctx s
  | .skipWrite skip => Sys2Proof.Machine.execSkipWrite skip s
  | .writeAcknowledged skip => Sys2Proof.Machine.execWriteAcknowledged skip s
  | .streamTransferStart job turn => Sys2Proof.Machine.execStreamTransferStart job turn s
  | .cancellationComplete seq => Sys2Proof.Machine.execCancellationComplete seq s
  | .atomic tile a => Sys2Proof.Machine.execAtomic tile a s
  | .scatteredPartial tile f => Sys2Proof.Machine.execScatteredPartial tile f s
  | .flagWrite da value => Sys2Proof.Machine.execFlagWrite da value s
  | .flagPoll da => Sys2Proof.Machine.execFlagPoll da s
  | .compatProgramEnd tile => Sys2Proof.Machine.execCompatProgramEnd tile s
  | .compatInsnStop tile offset => Sys2Proof.Machine.execCompatInsnStop tile offset s
  | .zeroingComplete job => Sys2Proof.Machine.execZeroingComplete job s
  | .scrubRead da found => Sys2Proof.Machine.execScrubRead da found s
  | .eccWriteBack da => Sys2Proof.Machine.execEccWriteBack da s
  | .softRepair r => Sys2Proof.Machine.execSoftRepair r s
  | .capLoopPeriod t => Sys2Proof.Machine.execCapLoopPeriod t s
  | .telemetryLost => Sys2Proof.Machine.execTelemetryLost s
  | .thermalCeilingStep paddock => Sys2Proof.Machine.execThermalCeilingStep paddock s
  | .vrmAtTarget quarter => Sys2Proof.Machine.execVrmAtTarget quarter s
  | .droopTrip paddock supplyMv => Sys2Proof.Machine.execDroopTrip paddock supplyMv s
  | .stretchEnd held => Sys2Proof.Machine.execStretchEnd held s
  | .brakeNLow => Sys2Proof.Machine.execBrakeNLow s
  | .brakeNRelease => Sys2Proof.Machine.execBrakeNRelease s
  | .vrmAlert d standing => Sys2Proof.Machine.execVrmAlert d standing s
  | .vrmRecoveryTimer d => Sys2Proof.Machine.execVrmRecoveryTimer d s
  | .hourlyRecord h => Sys2Proof.Machine.execHourlyRecord h s
  | .watchdogExpiry core => Sys2Proof.Machine.execWatchdogExpiry core s
  | .pllLossOfLock p => Sys2Proof.Machine.execPllLossOfLock p s
  | .pllRelockTimeout p => Sys2Proof.Machine.execPllRelockTimeout p s
  | .warmReset c => Sys2Proof.Machine.execWarmReset c s
  | .jobTableReload => Sys2Proof.Machine.execJobTableReload s
  | .resetNFall => Sys2Proof.Machine.execResetNFall s
  | .resetNRise straps => Sys2Proof.Machine.execResetNRise straps s
  | .pllLock p => Sys2Proof.Machine.execPllLock p s
  | .pllLockTimeout p => Sys2Proof.Machine.execPllLockTimeout p s
  | .romStageEnd => Sys2Proof.Machine.execRomStageEnd s
  | .stage1End => Sys2Proof.Machine.execStage1End s
  | .mainStageEnd t => Sys2Proof.Machine.execMainStageEnd t s
  | .sidebandWrite w => Sys2Proof.Machine.execSidebandWrite w s
  | .sidebandRead r => Sys2Proof.Machine.execSidebandRead r s
  | .badWororPacket d queueFull => Sys2Proof.Machine.execBadWororPacket d queueFull s
  | .unassignedOpcode opcode p => Sys2Proof.Machine.execUnassignedOpcode opcode p s
  | .roceInvalidRequest r => Sys2Proof.Machine.execRoceInvalidRequest r s
  | .imageApplyComplete job => Sys2Proof.Machine.execImageApplyComplete job s
  | .memTestComplete errors => Sys2Proof.Machine.execMemTestComplete errors s

end Sys2Proof.Machine
end

