-- ==== Sys2Proof/WellFormed.lean ====
section
/-! DEFINITION. Which commands are well formed: every operand lies in the range that the spec gives it. -/

namespace Sys2Proof

/-- A packet travels in one datagram, or in a SEND message of at most 65536 bytes with its 32-byte header (R351, R356). -/
def Packet.wf (p : Packet) : Bool :=
  decide (p.params.length ≤ 65504) && (match p.viaQp with | some q => decide (q.qpi < 64) | none => true)

def Datagram.wf (d : Datagram) : Bool := decide (d.bytes.length ≤ 65536)

/-- At most 64 queue pairs, and a path MTU of at most 4096 bytes (R356). -/
def RocePacket.wf (r : RocePacket) : Bool := decide (r.payload.length ≤ 4096)

/-- At most 4096 bytes of payload; five packet kinds (R310). -/
def FabPacket.wf (k : FabPacket) : Bool := decide (k.payload.length ≤ 4096) && decide (1 ≤ k.pkind.toNat ∧ k.pkind.toNat ≤ 5)

/-- 244 bytes of packet data (R305). -/
def Flit.wf (f : Flit) : Bool := decide (f.bytes.length = 256) && decide (f.corrected.length = 4)

/-- At most four attempts mismatch (R70); four memories of a tile have error-correcting codes (R110). -/
def TileFaults.wf (f : TileFaults) : Bool :=
  decide (f.attempts.length ≤ 4) && f.attempts.all (fun a => !a.isEmpty) &&
    f.ecc.all fun e => decide (1 ≤ e.memory ∧ e.memory ≤ 4) && decide (e.offset < 0x12_0000)

/-- 16 lanes of a 64-byte granule (R96). -/
def AtomicAccess.wf (a : AtomicAccess) : Bool :=
  decide (a.operands.length = 16) && decide (a.offset < 2 ^ 21) && decide (a.ecc.length ≤ 8) &&
    (match a.master with | .tile n => decide (n < 800) | .skip j => decide (j < 4))

/-- Eight rails and twenty paddocks (R402, R410). -/
def Telemetry.wf (t : Telemetry) : Bool :=
  decide (t.railMw.length = 8) && decide (t.railMv.length = 8) && decide (t.tempQc.length = 20)

/-- Eight stacks, two DDR5 controllers, two fabric PLLs (R401). -/
def Pll.wf : Pll → Bool
  | .hbm h => decide (h < 8)
  | .root | .ddr _ | .fab _ | .host => true

/-- Eight rails (R402). -/
def Disturbance.wf : Disturbance → Bool
  | .overcurrent r | .railFault r => decide (r < 8)
  | .feedSag | .brownOut | .powerFail => true

/-- Four management cores (R435). -/
def WarmCause.wf : WarmCause → Bool
  | .watchdog core => decide (core < 4)
  | .command | .rootPll | .relock => true

/-- Whole poison units of the row (R223, R229). -/
def DramRow.wf (r : DramRow) : Bool := r.das.all fun a => decide (a % 32 = 0)

/-- One DIMM type, or none, for all channels (R212). -/
def Training.wf (t : Training) : Bool := t.uniform || t.populated != 0#12

/-- The margins of eight host lanes (R478). -/
def HourlyData.wf (h : HourlyData) : Bool := decide (h.hostMargins.length = 8)

/-- The operands of a command are in range. -/
def Instr.wf (i : Instr) : Bool :=
  match i with
  | .deviceInfo p => p.wf
  | .netConfig p => p.wf
  | .memRead p => p.wf
  | .memWrite p => p.wf
  | .csrWrite p => p.wf
  | .csrRead p => p.wf
  | .streamArm p => p.wf
  | .streamCancel p => p.wf
  | .streamStatus p => p.wf
  | .qpConnect p => p.wf
  | .xferOpen p => p.wf
  | .xferClose p => p.wf
  | .xferStatus p => p.wf
  | .jobCreate p => p.wf
  | .jobModify p => p.wf
  | .jobRelease p => p.wf
  | .contextCreate p => p.wf
  | .contextRelease p => p.wf
  | .stepBegin p => p.wf
  | .stepBeginTakesEffect seq => decide (seq < 2 ^ 32)
  | .barrier p => p.wf
  | .barrierComplete seq => decide (seq < 2 ^ 32)
  | .hayloftPop p => p.wf
  | .hayloftPopTakesEffect seq => decide (seq < 2 ^ 32)
  | .hayloftFree p => p.wf
  | .hayloftFreeTakesEffect seq => decide (seq < 2 ^ 32)
  | .gradOpen p => p.wf
  | .gradOpenTakesEffect seq => decide (seq < 2 ^ 32)
  | .phaseMark p => p.wf
  | .phaseMarkTakesEffect seq => decide (seq < 2 ^ 32)
  | .row p => p.wf
  | .opIssue p => p.wf
  | .operationStart seq => decide (seq < 2 ^ 32)
  | .opCancel p => p.wf
  | .collective p => p.wf
  | .collectiveStart seq => decide (seq < 2 ^ 32)
  | .collectiveComplete seq => decide (seq < 2 ^ 32)
  | .mapSet p => p.wf
  | .mapSetTakesEffect seq => decide (seq < 2 ^ 32)
  | .gradNorm p => p.wf
  | .gradNormStart seq => decide (seq < 2 ^ 32)
  | .powerCapSet p => p.wf
  | .phasePointsSet p => p.wf
  | .powerRead p => p.wf
  | .energyRead p => p.wf
  | .throttleRead p => p.wf
  | .stepCommit p => p.wf
  | .stepCommitTakesEffect seq => decide (seq < 2 ^ 32)
  | .checkpointSet p => p.wf
  | .restore p => p.wf
  | .mirrorPair p => p.wf
  | .mirrorUnpair p => p.wf
  | .failover p => p.wf
  | .sparePolicySet p => p.wf
  | .leaseGrant p => p.wf
  | .identityRead p => p.wf
  | .attest p => p.wf
  | .attestReportComplete => true
  | .fwStage p => p.wf
  | .fwActivate p => p.wf
  | .resetWarm p => p.wf
  | .journalInfo p => p.wf
  | .journalRead p => p.wf
  | .bitmapRead p => p.wf
  | .retiredList p => p.wf
  | .memTest p => p.wf
  | .setDate p => p.wf
  | .lifeRead p => p.wf
  | .tileCntClrPhase tile => decide (tile < 800)
  | .tileCntClrFtq tile => decide (tile < 800)
  | .tileCntClrAcc tile => decide (tile < 800)
  | .tileCntClrPort tile => decide (tile < 800)
  | .stpClrAll => true
  | .fidWrite _ => true
  | .fabRetrain port => decide (port < 8)
  | .fabPortEnable port _ => decide (port < 8)
  | .hostpRetrain => true
  | .heldCommandExpiry _ => true
  | .journalMirrorWrite slot => decide (slot < 65536)
  | .droppedFrame _ => true
  | .arpRequest _ _ _ => true
  | .neighborSolicitation _ _ _ => true
  | .echoRequest _ _ _ payload => decide (payload.length < 65536)
  | .pfcFrame _ _ => true
  | .send r => r.wf
  | .rdmaWrite r => r.wf
  | .rdmaReadRequest r => r.wf
  | .cnp r => r.wf
  | .cnpRateRestore qpi => decide (qpi < 64)
  | .hostTransferComplete slot => decide (slot < 256)
  | .hostTimeout slot => decide (slot < 256)
  | .hostLaneLossOfLock lane => decide (lane < 8)
  | .hostPortTrained _ => true
  | .dataFlit port f => decide (port < 8) && f.wf
  | .ackFlit port _ => decide (port < 8)
  | .nakFlit port _ => decide (port < 8)
  | .replayLimit port => decide (port < 8)
  | .ackFlitTimer port => decide (port < 8)
  | .laneLossOfLock port lane => decide (port < 8) && decide (lane < 4)
  | .portRetrainComplete port _ => decide (port < 8)
  | .packetForward k => k.wf
  | .ready k => k.wf
  | .data k => k.wf
  | .join k => k.wf
  | .e2eAck k => k.wf
  | .e2eAckTimeout k => k.wf
  | .stepAbort k => k.wf
  | .peerTimeout seq => decide (seq < 2 ^ 32)
  | .peerLost job device => decide (job < 4) && decide (device < 4096)
  | .spareDue job => decide (job < 4)
  | .pairTimeout job => decide (job < 4)
  | .heartbeat job => decide (job < 4)
  | .mirrorPairTimeout job => decide (job < 4)
  | .mirrorCopyComplete job => decide (job < 4)
  | .checkpointComplete job => decide (job < 4)
  | .restoreComplete job => decide (job < 4)
  | .leaseLapse => true
  | .take tile => decide (tile < 800)
  | .doneMessage tile => decide (tile < 800)
  | .applyPassEnd seq => decide (seq < 2 ^ 32)
  | .pullIssue tile => decide (tile < 800)
  | .pull skip tile => decide (skip < 48) && decide (tile < 800)
  | .skipReadReturn skip _ => decide (skip < 48)
  | .computeStart tile => decide (tile < 800)
  | .kRunEnd tile f => decide (tile < 800) && f.wf
  | .recoveredLimit tile => decide (tile < 800)
  | .eccQuarantineLimit tile => decide (tile < 800)
  | .ftqEntryRetire tile f => decide (tile < 800) && f.wf
  | .storeStart tile => decide (tile < 800)
  | .spillComplete ctx => decide (ctx < 16)
  | .refillComplete ctx => decide (ctx < 16)
  | .skipWrite skip => decide (skip < 48)
  | .writeAcknowledged skip => decide (skip < 48)
  | .streamTransferStart job turn => decide (job < 4) && decide (turn.sd < 64)
  | .cancellationComplete seq => decide (seq < 2 ^ 32)
  | .atomic tile a => decide (tile < 800) && a.wf
  | .scatteredPartial tile f => decide (tile < 800) && f.wf
  | .flagWrite da _ => decide (da % 8 = 0)
  | .flagPoll da => decide (da % 8 = 0)
  | .compatProgramEnd tile => decide (tile < 800)
  | .compatInsnStop tile offset => decide (tile < 800) && decide (offset < 2 ^ 21)
  | .zeroingComplete job => decide (job < 4)
  | .scrubRead da _ => decide (da % 32 = 0)
  | .eccWriteBack da => decide (da % 32 = 0)
  | .softRepair r => r.wf
  | .capLoopPeriod t => t.wf
  | .telemetryLost => true
  | .thermalCeilingStep paddock => decide (paddock < 20)
  | .vrmAtTarget quarter => decide (quarter < 4)
  | .droopTrip paddock _ => decide (paddock < 20)
  | .stretchEnd held => decide (held.paddock < 20)
  | .brakeNLow => true
  | .brakeNRelease => true
  | .vrmAlert d _ => d.wf
  | .vrmRecoveryTimer d => d.wf
  | .hourlyRecord h => h.wf
  | .watchdogExpiry core => decide (core < 4)
  | .pllLossOfLock p => p.wf
  | .pllRelockTimeout p => p.wf
  | .warmReset c => c.wf
  | .jobTableReload => true
  | .resetNFall => true
  | .resetNRise _ => true
  | .pllLock p => p.wf
  | .pllLockTimeout p => p.wf
  | .romStageEnd => true
  | .stage1End => true
  | .mainStageEnd t => t.wf
  | .sidebandWrite _ => true
  | .sidebandRead r => decide (r.words ≤ 64)
  | .badWororPacket d _ => d.wf
  | .unassignedOpcode _ p => p.wf
  | .roceInvalidRequest r => r.wf
  | .imageApplyComplete job => decide (job < 4)
  | .memTestComplete errors => decide (errors.length ≤ 2 ^ 32)

end Sys2Proof
end

