-- ==== Sys2Proof/Safety.lean ====
section
/-! DEFINITION. What a safe run is, in the terms that the statements use: the invariants of one state, and what no step
may undo. -/

namespace Sys2Proof.Machine

/-- The canonical form of memory: addresses strictly rising, no entry equal to the zero that an unlisted byte reads as. -/
abbrev Memory.wf (m : SMap Byte) : Bool := canon 0#8 m

/-- The step ended in a next state. -/
def Answers (o : Host.Outcome State Fault Refusal) (t : State) : Prop := o = .next t

/-- A tile takes no work (R71). -/
def State.quarantinedAt (s : State) (n : Nat) : Bool := (s.tile n).quarantined

/-- What holds of every state that the machine reaches: the canonical form of memory, and that a retired unit reads as
poisoned (R229). -/
structure State.Sound (s : State) : Prop where
  mem : Memory.wf s.mem = true
  retired : ∀ u, lookup false s.retired u = true → lookup false s.poison u = true

/-- What no command undoes: soundness, the security version (R470), the commands that wait, and a tile's quarantine
(R71). -/
structure State.Keeps (s t : State) : Prop where
  sound : s.Sound → t.Sound
  svn : s.otp.svn ≤ t.otp.svn
  pending : t.pending = s.pending
  quarantine : ∀ n, s.quarantinedAt n = true → t.quarantinedAt n = true

/-! ### A Woror command in its turn (R351-R355, R371) -/

/-- The state in which MC0 looks at a packet: the frame and the packet are counted, and the command is in MC0's queue. -/
def State.received (s : State) (p : Packet) : State := ((s.frameCounted p.frame).hostCount hcWOROR_RX).queueUp p.taken

/-- The port takes the frame: it is up, the receive buffer has room, the frame is no longer than the port allows, and its tag is
the port's (R344-R347). -/
structure Taken (s : State) (a : Arrival) (len : Nat) (dst : IpAddr) : Prop where
  up : s.hostUp = true
  buffer : a.buffer ≠ .full
  fits : len ≤ s.host.udpRoom dst
  tag : s.host.tagOk a.tags = true

/-- A sequenced command that arrives over UDP is taken now: the port takes the frame and boot has ended, the datagram is for
the device, MC0's queue has room, it has the number that MC0 expects, and its journal slot is free (R351-R353, R388). -/
structure InTurn (s : State) (p : Packet) : Prop where
  udp : p.viaQp = none
  frame : Taken s p.frame (32 + p.params.length) p.dst
  room : s.host.queued - p.taken < 256
  running : s.sec.stage = 4
  addressed : s.host.accepts p.src p.dst = true
  flags : p.wflags = 0#8 ∨ p.wflags = 4#8
  inTurn : p.seq = s.host.next
  free : s.slotBusy p.seq.toNat = false

/-- Such a command that no check of R371 refuses. -/
structure Acceptable (s : State) (opcode : Nat) (p : Packet) : Prop where
  turn : InTurn s p
  checks : commandStatus (s.received p) opcode p.job.toNat p.ctx.toNat p.params = 0

/-- The state in which an accepted command is performed: its entry is in the journal, and in a context queue if it enters
one (R353, R387). `ctx` is the context that the entry names. -/
def State.accepted (s : State) (opcode : Nat) (p : Packet) (ctx : Nat) (queue : Option Nat) : State :=
  ((s.received p).journalled (freshSlot (s.received p) opcode p ctx)).enter opcode p queue

/-- What follows a command's effect: its first reply, then the commands that have waited for their turn behind it (R353,
R354). `acc` are the acceptance parameters. -/
def State.answered (s : State) (opcode : Nat) (p : Packet) (acc : List Byte) : State :=
  (((s.firstReply opcode p acc).poolMark).drain 65).flushReplies

/-- The state after a command that a check of R371 refuses with `status`: the journal holds its final entry, its job knows that an
entry ended badly, and nothing else happens but the reply and the commands that have waited behind it. -/
def State.refused (s : State) (opcode : Nat) (p : Packet) (status : Nat) : State :=
  let ctx := if opcode = opcSTREAM_ARM then le p.params 3 1 else p.ctx.toNat
  let r := s.received p
  let t := if scopeOf opcode = some .job ∨ scopeOf opcode = some .queue then
      r.endedBad p.job.toNat p.seq.toNat else r
  let u := t.journalled { freshSlot r opcode p ctx with
    state := 3, status := status, finish := r.sclk, reply := refusedReply opcode status }
  ((u.firstReply opcode p []).drain 65).flushReplies

/-- A command in its turn that a check refuses leaves `State.refused`, with the status of that check. -/
def Refuses (c : Packet → Instr) (opcode : Nat) : Prop :=
  ∀ s p, InTurn s p → commandStatus (s.received p) opcode p.job.toNat p.ctx.toNat p.params ≠ 0 →
    exec (c p) s = .next (s.refused opcode p (commandStatus (s.received p) opcode p.job.toNat p.ctx.toNat p.params))

/-- A command that waits in no queue completes with effect `f` whenever it is acceptable. -/
def Performs (c : Packet → Instr) (opcode : Nat) (f : State → Packet → State) : Prop :=
  ∀ s p, Acceptable s opcode p →
    exec (c p) s = .next ((f (s.accepted opcode p p.ctx.toNat none) p).answered opcode p [])

/-- A command that enters its context's queue is journalled there whenever it is acceptable; `f` is what acceptance itself
does, with the acceptance parameters. -/
def Enqueues (c : Packet → Instr) (opcode : Nat) (f : State → Packet → State × List Byte) : Prop :=
  ∀ s p, Acceptable s opcode p →
    exec (c p) s = .next ((f (s.accepted opcode p p.ctx.toNat (some p.ctx.toNat)) p).1.answered opcode p
      (f (s.accepted opcode p p.ctx.toNat (some p.ctx.toNat)) p).2)

/-- The entry of `seq` becomes final with `DONE` and reply parameters `r`. -/
def State.done (s : State) (seq : U32) (r : List Byte) : State := s.finish seq.toNat St.done r

/-! ### Frames at the host port (R345-R349) -/

/-- The counter of the host port that counts a dropped frame. -/
def dropCounter : DropReason → Nat
  | .badFcs | .tooLong | .fecFailed _ _ => hcFCS_DROP
  | .otherMac | .wrongTag => hcMAC_DROP
  | .ipError => hcIP_ERR
  | .otherPort => hcPORT_DROP

/-! ### A RoCEv2 packet in its order (R356-R358) -/

/-- A packet for queue pair `i`, in RTS, with the expected PSN, in a frame that the port takes; `reth` says that it has a RETH. -/
structure InOrder (s : State) (r : RocePacket) (reth : Bool) (i : Nat) : Prop where
  frame : Taken s r.frame (roceLength r reth) r.dst
  icrc : r.icrcOk = true
  addressed : s.host.accepts r.src r.dst = true
  qp : qpiOf r.qpn = some i
  rts : (s.qp i).state = 1
  psn : r.psn.toNat = (s.qp i).epsn

/-- The state in which such a packet is performed: the frame is counted, ECN CE is answered with a CNP, and no gap stands. -/
def State.gotRoce (s : State) (r : RocePacket) (i : Nat) : State :=
  (if r.ecnCe then (s.frameCounted r.frame).sendCnp i else s.frameCounted r.frame).modQp i fun q => { q with gapNak := false }

end Sys2Proof.Machine
end

