-- ==== Sys2Proof/Certificates/Slice0/Obligations.lean ====
section
/-! DEFINITION. The statements for the provers. Each docstring names the rules that the statement rests on; a statement that
rests on a choice of the model names the row of the assumption log. -/

open Sys2Proof Sys2Proof.Machine

/-! ### The queue of commands -/

/-- A step with a command at the front of the queue is that command's effect on the queue's rest. -/
def Obligations.StepRunsFrontCommand : Prop :=
  ∀ (c : Instr) (rest : List Instr) (s : State),
    step { s with pending := c :: rest } = exec c { s with pending := rest }

/-- The model's choice (log 1): on an empty queue nothing is commanded and one cycle of SCLK passes; where the port's pause lasts on,
nothing else changes, and where it is over, the frames that it held leave and are counted, in their order (R347, log 103). -/
def Obligations.EmptyQueueIdles : Prop :=
  ∀ s : State, s.pending = [] →
    let t := { s with sclk := s.sclk + 1 }
    (t.paused = true ∨ s.host.txHeld = [] → step s = .next t) ∧
    (∀ f, t.paused = false → s.host.txHeld = [f] →
      step s = .next (({ t with host := { t.host with txHeld := [] } }.send (.frame f.1 f.2)).hostCount hcFRAMES_TX))

/-- A well-formed command is answered with a next state, in which the commands that wait are as before. The model's choice (log 9):
the only way that a command stops is an event at a unit that the device does not have, and such a command is not well-formed. -/
def Obligations.OnlyMissingUnitsFault : Prop :=
  ∀ (c : Instr) (s : State),
    (c.wf = true → ∃ t, exec c s = .next t ∧ t.pending = s.pending) ∧
    (exec c s = .fault .noSuchUnit → c.wf = false) ∧
    ((∃ t, exec c s = .next t ∧ t.pending = s.pending) ∨ exec c s = .fault .noSuchUnit)

/-! ### Woror commands (R351-R355, R371, R387) -/

/-- The device commands of R372 that wait in no queue complete with their own effect whenever they are acceptable. -/
def Obligations.DeviceCommandsComplete : Prop :=
  Performs .deviceInfo 0x0101 (fun s p => s.done p.seq (s.deviceInfo.take 448)) ∧
  Performs .netConfig 0x0110 (fun s p => (s.setNet p.params).done p.seq []) ∧
  Performs .csrWrite 0x0203 (fun s p =>
    let r := (s.carry .host (s.agentOf (le p.params 0 8)) 6 (p.params.take 16)).csrWrite
      (le p.params 0 8) (le p.params 8 4) (le p.params 12 4)
    r.1.finish p.seq.toNat r.2 []) ∧
  Performs .csrRead 0x0904 (fun s p =>
    let r := s.readReply 0x0904 p.params
    r.1.done p.seq (r.2.take 448)) ∧
  Performs .qpConnect 0x0220 (fun s p =>
    ((s.cutMessage (le p.params 0 1)).setQp (le p.params 0 1) (qpOfParams p.params)).done p.seq []) ∧
  Performs .powerCapSet 0x0601 (fun s p => (s.setCap p.params).done p.seq []) ∧
  Performs .powerRead 0x0603 (fun s p => s.done p.seq s.powerReply) ∧
  Performs .throttleRead 0x0605 (fun s p => s.done p.seq s.throttleReply) ∧
  Performs .leaseGrant 0x0708 (fun s p => (s.grant p.params).1.done p.seq (s.grant p.params).2) ∧
  Performs .identityRead 0x0801 (fun s p => s.done p.seq (s.identityReply p.params)) ∧
  Performs .attest 0x0802 (fun s p => s.startAttest p.seq.toNat p.params) ∧
  Performs .fwStage 0x0803 (fun s p => (s.stageWrite p.params).done p.seq []) ∧
  Performs .fwActivate 0x0804 (fun s p => s.activate p.seq.toNat p.params) ∧
  Performs .resetWarm 0x0805 (fun s p => (s.done p.seq []).warmAsked .command) ∧
  Performs .journalInfo 0x0901 (fun s p => s.done p.seq (s.journalInfo.take 448)) ∧
  Performs .journalRead 0x0902 (fun s p => s.done p.seq ((s.journalRead p.params).take 448)) ∧
  Performs .bitmapRead 0x0903 (fun s p => s.done p.seq ((s.bitmapRead p.params).take 448)) ∧
  Performs .retiredList 0x0905 (fun s p => s.done p.seq ((s.retiredReply p.params).take 448)) ∧
  Performs .memTest 0x0910 (fun s p => s.startMemTest p.seq.toNat p.params) ∧
  Performs .setDate 0x0A01 (fun s p => (s.setDate p.params).done p.seq []) ∧
  Performs .lifeRead 0x0A02 (fun s p => s.done p.seq (s.lifeReply p.params))

/-- The job and context commands of R372 that wait in no queue complete with their own effect whenever they are
acceptable. -/
def Obligations.JobCommandsComplete : Prop :=
  Performs .memRead 0x0201 (fun s p => (s.hostEcc (le p.params 0 8) (le p.params 8 4) p.found).memRead p.seq.toNat p.params) ∧
  Performs .memWrite 0x0202 (fun s p => s.memWrite p.job.toNat p.seq.toNat p.params) ∧
  Performs .streamCancel 0x0211 (fun s p => s.streamCancelled p.job.toNat (le p.params 0 1) p.seq.toNat) ∧
  Performs .streamStatus 0x0212 (fun s p => s.done p.seq (s.stream p.job.toNat (le p.params 0 1)).report) ∧
  Performs .xferClose 0x0222 (fun s p =>
    (match s.xferOf p.job.toNat (le p.params 0 4) with | some e => s.closeXfer e.1 | none => s).done p.seq []) ∧
  Performs .xferStatus 0x0223 (fun s p =>
    s.done p.seq (match s.xferOf p.job.toNat (le p.params 0 4) with | some e => e.2.report e.1 | none => [])) ∧
  Performs .jobCreate 0x0301 (fun s p => s.createJob p.job.toNat p.seq.toNat p.params) ∧
  Performs .jobModify 0x0302 (fun s p => s.modifyJob p.job.toNat p.seq.toNat p.params) ∧
  Performs .jobRelease 0x0303 (fun s p => s.releaseJob p.job.toNat p.seq.toNat) ∧
  Performs .contextCreate 0x0304 (fun s p =>
    ((s.setCtx p.ctx.toNat (some (Ctx.fresh s p.job.toNat p.params))).forgetCtx p.ctx.toNat).done p.seq []) ∧
  Performs .contextRelease 0x0305 (fun s p => s.releaseCtx p.ctx.toNat p.seq.toNat) ∧
  Performs .opCancel 0x0320 (fun s p => s.opCancelled p.seq.toNat p.params) ∧
  Performs .phasePointsSet 0x0602 (fun s p => (s.setPoints p.job.toNat p.params).done p.seq []) ∧
  Performs .energyRead 0x0604 (fun s p =>
    s.done p.seq (match s.job p.job.toNat with | some j => s.energyReply p.job.toNat j | none => [])) ∧
  Performs .checkpointSet 0x0702 (fun s p => (s.setState p.job.toNat p.params).done p.seq []) ∧
  Performs .restore 0x0703 (fun s p => s.startRestore p.job.toNat p.seq.toNat p.params) ∧
  Performs .mirrorPair 0x0704 (fun s p => s.startPair p.job.toNat p.seq.toNat p.params) ∧
  Performs .mirrorUnpair 0x0705 (fun s p => (s.unpair p.job.toNat).done p.seq []) ∧
  Performs .failover 0x0706 (fun s p => s.startFailover p.job.toNat p.seq.toNat) ∧
  Performs .sparePolicySet 0x0707 (fun s p => (s.setPolicy p.job.toNat p.params).done p.seq [])

/-- The commands of scope Q (R368) enter the queue of their context whenever they are acceptable; they take effect at its
head, as the statements about the events of the queues say. -/
def Obligations.QueuedCommandsEnter : Prop :=
  Enqueues .stepBegin 0x0310 (fun s _ => (s, [])) ∧
  Enqueues .barrier 0x0311 (fun s p => (s.acceptBarrier p.job.toNat p.seq.toNat p.params, [])) ∧
  Enqueues .hayloftPop 0x0312 (fun s _ => (s, [])) ∧
  Enqueues .hayloftFree 0x0313 (fun s _ => (s, [])) ∧
  Enqueues .gradOpen 0x0314 (fun s _ => (s, [])) ∧
  Enqueues .phaseMark 0x0315 (fun s _ => (s, [])) ∧
  Enqueues .row 0x0316 (fun s p => s.acceptRow p.job.toNat p.seq.toNat p.params) ∧
  Enqueues .opIssue 0x0401 (fun s p => s.acceptOp p.job.toNat p.ctx.toNat p.seq.toNat p.params) ∧
  Enqueues .collective 0x0501 (fun s p => (s.acceptColl p.seq.toNat, [])) ∧
  Enqueues .mapSet 0x0502 (fun s _ => (s, [])) ∧
  Enqueues .gradNorm 0x0503 (fun s p => (s.acceptColl p.seq.toNat, [])) ∧
  Enqueues .stepCommit 0x0701 (fun s _ => (s, []))

/-- `STREAM_ARM` has scope J, and the `CONTEXT` field of its stream header decides which queue it enters (R369); a value
that is no context number enters none. Acceptance arms the descriptor (R252). -/
def Obligations.StreamArmEntersTheQueueOfItsHeader : Prop :=
  scopeOf 0x0210 = some .job ∧
  ∀ s p, Acceptable s 0x0210 p →
    let c := le p.params 3 1
    let t := s.accepted 0x0210 p c (if c < 16 then some c else none)
    let r := t.armEffect p.job.toNat p.seq.toNat (t.stepOf p.seq.toNat) p.params
    exec (.streamArm p) s = .next (r.1.answered 0x0210 p r.2)

/-- `XFER_OPEN` (R360): the lowest free slot holds the transfer, and the acceptance reply gives the key. -/
def Obligations.TransferOpenCompletes : Prop :=
  ∀ s p, Acceptable s 0x0221 p →
    let t := s.accepted 0x0221 p p.ctx.toNat none
    ∀ k, (List.range 256).find? (fun k => (t.xfer k).state == 0) = some k →
      let x : Xfer := { Xfer.reset with
        gen := (t.xfer k).gen, past := (t.xfer k).past, state := 1, job := p.job.toNat, id := le p.params 0 4, read := le p.params 4 1 == 1,
        qpi := le p.params 5 1, da := le p.params 8 8, len := le p.params 16 8, seq := p.seq.toNat }
      let u := (t.setXfer k x).modEntry p.seq.toNat fun e => { e with object := x.id }
      (0 < x.len → exec (.xferOpen p) s = .next (u.answered 0x0221 p (leBytes 4 (x.rkey k) ++ leBytes 4 0))) ∧
      (x.len = 0 → exec (.xferOpen p) s = .next ((u.xferComplete k).answered 0x0221 p (leBytes 4 (x.rkey k) ++ leBytes 4 0)))

/-- A command in its turn that a check of R371 refuses has no effect but its final journal entry with that status, its
reply, and the commands that have waited behind it; one of job or queue scope counts as an entry of its job that ended badly, which
bars a commit (R439; log 133); and an opcode that the table of R372 does not list is refused with
`PARAM_OPCODE`, whatever its scope and parameters. -/
def Obligations.RefusedCommandsOnlyReply : Prop :=
  Refuses .deviceInfo 0x0101 ∧
  Refuses .netConfig 0x0110 ∧
  Refuses .memRead 0x0201 ∧
  Refuses .memWrite 0x0202 ∧
  Refuses .csrWrite 0x0203 ∧
  Refuses .streamArm 0x0210 ∧
  Refuses .streamCancel 0x0211 ∧
  Refuses .streamStatus 0x0212 ∧
  Refuses .qpConnect 0x0220 ∧
  Refuses .xferOpen 0x0221 ∧
  Refuses .xferClose 0x0222 ∧
  Refuses .xferStatus 0x0223 ∧
  Refuses .jobCreate 0x0301 ∧
  Refuses .jobModify 0x0302 ∧
  Refuses .jobRelease 0x0303 ∧
  Refuses .contextCreate 0x0304 ∧
  Refuses .contextRelease 0x0305 ∧
  Refuses .stepBegin 0x0310 ∧
  Refuses .barrier 0x0311 ∧
  Refuses .hayloftPop 0x0312 ∧
  Refuses .hayloftFree 0x0313 ∧
  Refuses .gradOpen 0x0314 ∧
  Refuses .phaseMark 0x0315 ∧
  Refuses .row 0x0316 ∧
  Refuses .opCancel 0x0320 ∧
  Refuses .opIssue 0x0401 ∧
  Refuses .collective 0x0501 ∧
  Refuses .mapSet 0x0502 ∧
  Refuses .gradNorm 0x0503 ∧
  Refuses .powerCapSet 0x0601 ∧
  Refuses .phasePointsSet 0x0602 ∧
  Refuses .powerRead 0x0603 ∧
  Refuses .energyRead 0x0604 ∧
  Refuses .throttleRead 0x0605 ∧
  Refuses .stepCommit 0x0701 ∧
  Refuses .checkpointSet 0x0702 ∧
  Refuses .restore 0x0703 ∧
  Refuses .mirrorPair 0x0704 ∧
  Refuses .mirrorUnpair 0x0705 ∧
  Refuses .failover 0x0706 ∧
  Refuses .sparePolicySet 0x0707 ∧
  Refuses .leaseGrant 0x0708 ∧
  Refuses .identityRead 0x0801 ∧
  Refuses .attest 0x0802 ∧
  Refuses .fwStage 0x0803 ∧
  Refuses .fwActivate 0x0804 ∧
  Refuses .resetWarm 0x0805 ∧
  Refuses .journalInfo 0x0901 ∧
  Refuses .journalRead 0x0902 ∧
  Refuses .bitmapRead 0x0903 ∧
  Refuses .csrRead 0x0904 ∧
  Refuses .retiredList 0x0905 ∧
  Refuses .memTest 0x0910 ∧
  Refuses .setDate 0x0A01 ∧
  Refuses .lifeRead 0x0A02 ∧
  (∀ (s : State) (op : U16) (p : Packet), InTurn s p → scopeOf op.toNat = none →
    exec (.unassignedOpcode op p) s = .next (s.refused op.toNat p St.paramOpcode))

/-- A queue holds at most 4096 entries that are not final (R368): a command that every other check passes is entered in the
journal with `RES_QUEUE_FULL`, and enters no queue. -/
def Obligations.FullQueueRefuses : Prop :=
  ∀ (s : State) (p : Packet) (k : Ctx), InTurn s p →
    let t := s.received p
    let jn := p.job.toNat
    let c := p.ctx.toNat
    t.ctx c = some k → 4096 ≤ k.queue.length →
    (∀ e ∈ ([(.stepBegin, 0x0310), (.barrier, 0x0311), (.hayloftPop, 0x0312), (.hayloftFree, 0x0313), (.gradOpen, 0x0314),
        (.phaseMark, 0x0315), (.row, 0x0316), (.opIssue, 0x0401), (.collective, 0x0501), (.mapSet, 0x0502), (.gradNorm, 0x0503),
        (.stepCommit, 0x0701)] : List ((Packet → Instr) × Nat)),
      scopeFits .queue jn c = true → existsStatus t e.2 jn c .queue = 0 → layoutLen e.2 p.params = some p.params.length →
      reservedOk e.2 p.params = true → ownStatus t e.2 jn c .queue p.params = 0 →
      t.poolUsed + bitmapBytes (t.bitsFor e.2 jn p.params) ≤ poolBytes →
      exec (e.1 p) s = .next (s.refused e.2 p St.resQueueFull))

/-- Unsequenced reads (R355): a command with `UNSEQ` that R355 allows is answered at once and is not journalled. -/
def Obligations.UnsequencedReadsComplete : Prop :=
  ∀ (s : State) (p : Packet), p.viaQp = none → Taken s p.frame (32 + p.params.length) p.dst → s.sec.stage = 4 →
    s.host.accepts p.src p.dst = true → s.host.queued - p.taken < 256 → p.wflags = 2#8 →
    let t := s.received p
    let ok := fun op => commandStatus t op p.job.toNat p.ctx.toNat p.params = 0
    let answer := fun (u : State) op (b : List Byte) => (u.sendReply { answerTo p op with params := b.take 1024 }).flushReplies
    (ok 0x0101 → exec (.deviceInfo p) s = .next (answer t 0x0101 t.deviceInfo)) ∧
    (ok 0x0901 → exec (.journalInfo p) s = .next (answer t 0x0901 t.journalInfo)) ∧
    (ok 0x0902 → exec (.journalRead p) s = .next (answer t 0x0902 (t.journalRead p.params))) ∧
    (ok 0x0903 → exec (.bitmapRead p) s = .next (answer t 0x0903 (t.bitmapRead p.params))) ∧
    (ok 0x0904 → exec (.csrRead p) s = .next (answer (t.readReply 0x0904 p.params).1 0x0904 (t.readReply 0x0904 p.params).2)) ∧
    (ok 0x0905 → exec (.retiredList p) s = .next (answer t 0x0905 (t.retiredReply p.params)))

/-- What arrives at the journal and before it without being performed: a malformed packet, and a command that finds 256 waiting, is
only counted (R352), a held
command leaves after its time and is counted (R353), and a mirror write copies its slot and sends the replies that waited
for it (R389). -/
def Obligations.JournalEventsComplete : Prop :=
  ∀ s : State,
    (∀ d q, Taken s d.frame d.bytes.length d.dst → s.sec.stage = 4 → s.host.accepts d.src d.dst = true →
      d.bytes.length < 32 ∨ beAt d.bytes 0 2 ≠ 0x574F →
      exec (.badWororPacket d q) s = .next (((s.frameCounted d.frame).hostCount hcWOROR_RX).hostCount hcWOROR_BAD)) ∧
    (∀ (op : U16) (p : Packet), p.viaQp = none → Taken s p.frame (32 + p.params.length) p.dst → s.sec.stage = 4 →
      s.host.accepts p.src p.dst = true → p.wflags.toNat &&& 0xF9 = 0 → 256 ≤ s.host.queued - p.taken →
      exec (.unassignedOpcode op p) s =
        .next ((((s.frameCounted p.frame).hostCount hcWOROR_RX).hostCount hcWOROR_QFULL).flushReplies)) ∧
    (∀ q : U32, (s.host.held.any fun h => h.pkt.seq == q) = true →
      exec (.heldCommandExpiry q) s = .next
        (({ s with host := { s.host with held := s.host.held.filter fun h => h.pkt.seq != q } }).hostCount hcWOROR_REORDER_DROP)) ∧
    (∀ i, i < 65536 → s.journal.mirrorOk = true → (s.journal.heldReplies.filter fun h => h.1 == i) = [] →
      let u := s.write (s.reserveBase + 512 * i) (s.slot i).record
      exec (.journalMirrorWrite i) s = .next { u with journal := { u.journal with
        mirror := store Slot.empty u.journal.mirror i (s.slot i)
        heldReplies := u.journal.heldReplies.filter fun h => h.1 != i } }) ∧
    (∀ i r, i < 65536 → s.journal.mirrorOk = true → (s.journal.heldReplies.filter fun h => h.1 == i) = [r] →
      let u := s.write (s.reserveBase + 512 * i) (s.slot i).record
      exec (.journalMirrorWrite i) s = .next (State.sendReply { u with journal := { u.journal with
        mirror := store Slot.empty u.journal.mirror i (s.slot i)
        heldReplies := u.journal.heldReplies.filter fun h => h.1 != i
        lagMaxUs := max u.journal.lagMaxUs (ceilDiv (u.sclk - r.2.1) 700) } } r.2.2))

/-! ### Control fields of registers (R110, R271, R307, R309, R342, R344) -/

/-- The control fields act at once and name what they change: the counter groups of a tile and of the STP are cleared, the
fabric ID is set and waiting packets go on, and a port whose PLL is locked retrains, or a port is disabled (R466). -/
def Obligations.RegisterWritesComplete : Prop :=
  ∀ s : State,
    (∀ n, n < 800 → exec (.tileCntClrPhase n) s =
      .next (s.setTile n { s.tile n with cycLoad := 0, cycCompute := 0, cycStore := 0, cycIdle := 0 })) ∧
    (∀ n, n < 800 → exec (.tileCntClrFtq n) s = .next (s.setTile n { s.tile n with ftqHigh := 0, ftqStall := 0, veStall := 0 })) ∧
    (∀ n, n < 800 → exec (.tileCntClrAcc n) s = .next (s.setTile n { s.tile n with accConf := 0, accQmax := 0, accFullStall := 0 })) ∧
    (∀ n, n < 800 → exec (.tileCntClrPort n) s =
      .next (s.setTile n { s.tile n with pconfOwn := 0, pconfAtom := 0, pconfHost := 0, pconfMgmt := 0, pconfWait := 0 })) ∧
    exec .stpClrAll s = .next { s with stpMessages := 0, stpWaitMax := 0, stpYield := 0 } ∧
    (∀ f, exec (.fidWrite f) s = .next ((List.range 8).foldl State.pushAll
      ((((List.range 8).filter fun p => !s.sendsPackets p).foldl State.resumePort
        { s with fab := { s.fab with fid := f.toNat, conflict := false, clashing := [] } }).retryWaiting))) ∧
    (∀ p, p < 8 → (s.port p).enable = true → s.power.fabLock.getLsbD (p / 4) = true → exec (.fabRetrain p) s =
      .next ((s.setPort p { s.port p with
        state := 1, retrains := sat16 ((s.port p).retrains + 1), testAll := true, replaysInRow := 0, trainAt := some s.sclk
        barren := [], leftAt := if (s.port p).up then s.sclk else (s.port p).leftAt }).sendTraining p)) ∧
    (∀ p, p < 8 → (s.port p).enable = false → s.power.fabLock.getLsbD (p / 4) = true → exec (.fabPortEnable p true) s =
      .next ((s.setPort p { s.port p with enable := true, state := 1 }).sendTraining p)) ∧
    (∀ p, p < 8 → (s.port p).enable = false → s.power.fabLock.getLsbD (p / 4) = false → exec (.fabPortEnable p true) s =
      .next (s.setPort p { s.port p with enable := true, state := 0 })) ∧
    (∀ p, p < 8 → exec (.fabPortEnable p false) s = .next ((s.setPort p { s.port p with enable := false }).portLost p 4)) ∧
    (s.power.hostLock = true → exec .hostpRetrain s = .next { s with host := { s.host with state := 1, locked := 0#8, txHeld := [] } })

/-! ### The host port (R343-R366) -/

/-- A frame that the port drops is counted, with the codewords of error correction, and does nothing else (R344-R346, R348); so is a
good one that finds the receive buffer full, is longer than the port allows or has another tag (R345-R347). The port answers ARP, neighbour
solicitations and echo requests for its own addresses, the echoes up to 1000 a second and no more (R349), and a PFC frame on its
priority pauses it (R347). The second is a second of SCLK, the model's choice (log 15), and a pause's length in cycles is its reading of
the quanta (log 103). -/
def Obligations.HostFrameEventsComplete : Prop :=
  ∀ s : State, s.hostUp = true →
    let t := s.hostCount hcFRAMES_RX
    (∀ w, (∀ c u, w ≠ .fecFailed c u) → exec (.droppedFrame w) s = .next (t.hostCount (dropCounter w))) ∧
    (∀ c u, exec (.droppedFrame (.fecFailed c u)) s =
      .next (((t.hostCounts hcFEC_CORR c).hostCounts hcFEC_UNCORR u).hostCount hcFCS_DROP)) ∧
    (∀ a b w, w.frame.buffer = .full → exec (.arpRequest a b w) s = .next (s.frameCounted w.frame)) ∧
    (∀ a b w, w.frame.buffer ≠ .full → s.host.tagOk w.frame.tags = false →
      exec (.arpRequest a b w) s = .next ((s.frameCounted w.frame).hostCount hcMAC_DROP)) ∧
    (∀ a b w d, w.frame.buffer ≠ .full → s.host.udpRoom a < d.length →
      exec (.echoRequest a b w d) s = .next ((s.frameCounted w.frame).hostCount hcFCS_DROP)) ∧
    (∀ a b w, Taken s w.frame 0 0#128 → s.host.ipv4 = some a →
      exec (.arpRequest a b w) s = .next ((s.frameCounted w.frame).tx (.arp a b w.mac))) ∧
    (∀ a b w, Taken s w.frame 0 0#128 → a = linkLocal s.host.mac ∨ s.host.ipv6 = some a →
      exec (.neighborSolicitation a b w) s = .next ((s.frameCounted w.frame).tx (.neighbor a b w.mac))) ∧
    (∀ a b w d, Taken s w.frame d.length a → a ∈ s.host.addresses →
      let u := s.frameCounted w.frame
      (s.host.icmpAt = s.sclk / sclkSecond → s.host.icmpSent < 1000 → exec (.echoRequest a b w d) s =
        .next (({ u with host := { u.host with icmpSent := s.host.icmpSent + 1 } }).tx (.echo a b w.mac d))) ∧
      (s.host.icmpAt = s.sclk / sclkSecond → 1000 ≤ s.host.icmpSent → exec (.echoRequest a b w d) s = .next u) ∧
      (s.host.icmpAt ≠ s.sclk / sclkSecond → exec (.echoRequest a b w d) s =
        .next (({ u with host := { u.host with icmpSent := 1, icmpAt := s.sclk / sclkSecond } }).tx (.echo a b w.mac d)))) ∧
    (∀ q n, s.host.pfcEn = true → q.toNat = s.host.pfcPrio →
      let u := t.hostCounts hcFEC_CORR n.frame.corrected
      exec (.pfcFrame q n) s =
        .next ({ u with host := { u.host with pausedUntil := s.sclk + pauseCycles n.quanta.toNat } }).txResume)

/-- A RoCEv2 packet in its order is performed (R356, R358, R361-R363): a `SEND` collects the datagram, a `WRITE` stores its
payload, a `READ` is answered whole, and what the queue pair does not allow, or a SEND packet of a wrong length, ends it with Invalid
Request. -/
def Obligations.RoceEventsComplete : Prop :=
  ∀ (s : State) (r : RocePacket) (i : Nat),
    let t := s.gotRoce r i
    (InOrder s r false i → partStarts r.part = true → (t.qp i).msg = 0 → partFits (t.qp i) r = true → t.sendBuffers < 16 →
      (sendBytes (t.qp i) r).length ≤ 65536 → exec (.send r) s = .next (t.sendPart i r)) ∧
    (InOrder s r false i → partStarts r.part = false → (t.qp i).msg = 1 → partFits (t.qp i) r = true →
      (sendBytes (t.qp i) r).length ≤ 65536 → exec (.send r) s = .next (t.sendPart i r)) ∧
    (InOrder s r false i → partStarts r.part = true → (t.qp i).msg = 0 → partFits (t.qp i) r = false →
      exec (.send r) s = .next (t.fatalNak i 1)) ∧
    (∀ k, InOrder s r true i → partStarts r.part = true → (t.qp i).msg = 0 → t.checkRkey i r false = .ok k →
      lengthOk { t.qp i with wrLeft := r.dmaLen.toNat } r = true →
      exec (.rdmaWrite r) s = .next ((t.beginWrite i r k 2).writePayload i r)) ∧
    (InOrder s r false i → partStarts r.part = false → (t.qp i).msg = 2 → lengthOk (t.qp i) r = true →
      exec (.rdmaWrite r) s = .next (t.writePayload i r)) ∧
    (∀ k, InOrder s r true i → (t.qp i).msg = 0 → t.checkRkey i r true = .ok k →
      exec (.rdmaReadRequest r) s = .next (t.performRead i r k)) ∧
    (InOrder s r false i → exec (.roceInvalidRequest r) s = .next (t.fatalNak i 1))

/-- A CNP halves the sending rate of its queue pair, and every 55 µs restores a sixteenth of line rate (R359); a host transfer completes when all its bytes are counted and every write is acknowledged (R362), and a gap of its timeout
ends it unless it is whole (R365; SCLK counts on to that time, the model's choice, log 152); the port loses a lane, and it comes up with every lane of its mode (R344). -/
def Obligations.TransferAndCongestionEventsComplete : Prop :=
  ∀ s : State,
    (∀ r i, Taken s r.frame (roceLength r true) r.dst → r.icrcOk = true → s.host.accepts r.src r.dst = true → qpiOf r.qpn = some i →
      (s.qp i).state = 1 →
      exec (.cnp r) s = .next (((s.frameCounted r.frame).hostCount hcCNP_RX).setQp i
        { s.qp i with rate := max 1 ((s.qp i).rate / 2) })) ∧
    (∀ i, i < 64 → exec (.cnpRateRestore i) s = .next (s.setQp i { s.qp i with rate := min 65536 ((s.qp i).rate + 4096) })) ∧
    (∀ k, k < 256 → (s.xfer k).open_ = true → (s.xfer k).len ≤ (s.xfer k).counted → s.hostOffsets k (s.xfer k).gen = [] →
      let x := s.xfer k
      let st := if x.poisonDa.isSome then St.intPoison else St.done
      exec (.hostTransferComplete k) s =
        .next (((s.setXfer k { x with state := 3, status := st, watermark := x.counted, lastPacket := none }).finishAt x.seq st
          x.counted (xferReply st x.counted)).hostEnded x.job x.id St.done)) ∧
    (∀ k t j, k < 256 → (s.xfer k).lastPacket = some t → s.job (s.xfer k).job = some j →
      exec (.hostTimeout k) s = .next ((((s.passTo (t + j.hostTimeoutMs * (sclkSecond / 1000))).xferComplete k).abortXfer k
        St.dataHostTimeout St.dataHostTimeout true))) ∧
    (∀ l, l < 8 → s.host.state = 2 → s.power.hostLock = true → (modeLanes s.host.modeActive).getLsbD l = true →
      exec (.hostLaneLossOfLock l) s = .next { s with host := { s.host with state := 1, locked := 0#8, txHeld := [] } }) ∧
    (∀ l : BitVec 8, s.host.state = 1 → s.power.hostLock = true → l &&& modeLanes s.host.mode = modeLanes s.host.mode →
      exec (.hostPortTrained l) s =
        .next { s with host := { s.host with locked := modeLanes s.host.mode, modeActive := s.host.mode, state := 2 } })

/-- While the port is not up the device sends nothing there and received frames are lost (R344): no frame or packet from the
network changes anything, whichever command it carries, and whether it comes by UDP or by a SEND. -/
def Obligations.PortDownLosesFrames : Prop :=
  ∀ s : State, s.hostUp = false →
    (∀ w, exec (.droppedFrame w) s = .next s) ∧
    (∀ a b m, exec (.arpRequest a b m) s = .next s) ∧
    (∀ a b m, exec (.neighborSolicitation a b m) s = .next s) ∧
    (∀ a b m d, exec (.echoRequest a b m d) s = .next s) ∧
    (∀ q n, exec (.pfcFrame q n) s = .next s) ∧
    (∀ r, exec (.send r) s = .next s) ∧
    (∀ r, exec (.rdmaWrite r) s = .next s) ∧
    (∀ r, exec (.rdmaReadRequest r) s = .next s) ∧
    (∀ r, exec (.roceInvalidRequest r) s = .next s) ∧
    (∀ r, exec (.cnp r) s = .next s) ∧
    (∀ d q, exec (.badWororPacket d q) s = .next s) ∧
    (∀ o p, exec (.unassignedOpcode o p) s = .next s) ∧
    ∀ p : Packet,
      exec (.deviceInfo p) s = .next s ∧
      exec (.netConfig p) s = .next s ∧
      exec (.memRead p) s = .next s ∧
      exec (.memWrite p) s = .next s ∧
      exec (.csrWrite p) s = .next s ∧
      exec (.streamArm p) s = .next s ∧
      exec (.streamCancel p) s = .next s ∧
      exec (.streamStatus p) s = .next s ∧
      exec (.qpConnect p) s = .next s ∧
      exec (.xferOpen p) s = .next s ∧
      exec (.xferClose p) s = .next s ∧
      exec (.xferStatus p) s = .next s ∧
      exec (.jobCreate p) s = .next s ∧
      exec (.jobModify p) s = .next s ∧
      exec (.jobRelease p) s = .next s ∧
      exec (.contextCreate p) s = .next s ∧
      exec (.contextRelease p) s = .next s ∧
      exec (.stepBegin p) s = .next s ∧
      exec (.barrier p) s = .next s ∧
      exec (.hayloftPop p) s = .next s ∧
      exec (.hayloftFree p) s = .next s ∧
      exec (.gradOpen p) s = .next s ∧
      exec (.phaseMark p) s = .next s ∧
      exec (.row p) s = .next s ∧
      exec (.opCancel p) s = .next s ∧
      exec (.opIssue p) s = .next s ∧
      exec (.collective p) s = .next s ∧
      exec (.mapSet p) s = .next s ∧
      exec (.gradNorm p) s = .next s ∧
      exec (.powerCapSet p) s = .next s ∧
      exec (.phasePointsSet p) s = .next s ∧
      exec (.powerRead p) s = .next s ∧
      exec (.energyRead p) s = .next s ∧
      exec (.throttleRead p) s = .next s ∧
      exec (.stepCommit p) s = .next s ∧
      exec (.checkpointSet p) s = .next s ∧
      exec (.restore p) s = .next s ∧
      exec (.mirrorPair p) s = .next s ∧
      exec (.mirrorUnpair p) s = .next s ∧
      exec (.failover p) s = .next s ∧
      exec (.sparePolicySet p) s = .next s ∧
      exec (.leaseGrant p) s = .next s ∧
      exec (.identityRead p) s = .next s ∧
      exec (.attest p) s = .next s ∧
      exec (.fwStage p) s = .next s ∧
      exec (.fwActivate p) s = .next s ∧
      exec (.resetWarm p) s = .next s ∧
      exec (.journalInfo p) s = .next s ∧
      exec (.journalRead p) s = .next s ∧
      exec (.bitmapRead p) s = .next s ∧
      exec (.csrRead p) s = .next s ∧
      exec (.retiredList p) s = .next s ∧
      exec (.memTest p) s = .next s ∧
      exec (.setDate p) s = .next s ∧
      exec (.lifeRead p) s = .next s

/-! ### The fabric (R303-R313) -/

/-- Flits at a port that is up (R304-R307): a good data flit in order is taken; one with a lane that error correction could
not mend, or whose CRC fails, is answered with a NAK; an acknowledgement frees what it covers and lets more go out; a NAK
replays from the flit it names; a replay limit and a lane that loses lock retrain the port, which goes DOWN instead after
three fruitless retrains in one second; and the timer sends an ACK flit. Its PLL is locked (R466). -/
def Obligations.LinkEventsComplete : Prop :=
  ∀ (s : State) (p : Nat), p < 8 → (s.port p).up = true → s.power.fabLock.getLsbD (p / 4) = true →
    let x := s.port p
    let c := fun f : Flit => s.setPort p (x.corrections f s.sclk)
    (∀ f : Flit, f.badLanes = 0#4 → flitGood f = true → flitKind f = ftDATA → flitSeq f = (x.rxSeq + 1) % 4096 →
      exec (.dataFlit p f) s = .next ((c f).flitTaken p f)) ∧
    (∀ f : Flit, f.badLanes ≠ 0#4 → exec (.dataFlit p f) s = .next ((c f).sendNak p)) ∧
    (∀ f : Flit, f.badLanes = 0#4 → flitGood f = false → exec (.dataFlit p f) s =
      .next (((c f).modPort p fun x => { x with crcErr := sat32 (x.crcErr + 1) }).sendNak p)) ∧
    (∀ a, exec (.ackFlit p a) s = .next ((s.setPort p (x.acked a.toNat)).pushAll p)) ∧
    (∀ m, exec (.nakFlit p m) s =
      .next (((s.setPort p (x.acked ((m.toNat + 4095) % 4096))).replayFrom p m.toNat).pushAll p)) ∧
    (16 ≤ x.replaysInRow → x.enable = true → (x.failures s.sclk).length < 3 → exec (.replayLimit p) s =
      .next ((s.setPort p { x with state := 1, retrains := sat16 (x.retrains + 1), replaysInRow := 0, trainAt := some s.sclk
                                   barren := x.failures s.sclk, leftAt := s.sclk }).sendTraining p)) ∧
    (16 ≤ x.replaysInRow → x.enable = true → 3 ≤ (x.failures s.sclk).length → exec (.replayLimit p) s = .next (s.portLost p 0)) ∧
    (∀ l, l < 4 → x.enable = true → (x.failures s.sclk).length < 3 → exec (.laneLossOfLock p l) s =
      .next ((s.setPort p { x with state := 1, retrains := sat16 (x.retrains + 1), replaysInRow := 0, trainAt := some s.sclk
                                   barren := x.failures s.sclk, leftAt := s.sclk }).sendTraining p)) ∧
    (∀ l, l < 4 → x.enable = true → 3 ≤ (x.failures s.sclk).length → exec (.laneLossOfLock p l) s = .next (s.portLost p 0)) ∧
    exec (.ackFlitTimer p) s = .next (s.sendFlit p ftACK x.txSeq [])

/-- Retraining of a port ends (R307): with lanes enough it comes up, at full width or degraded, and else it is lost; two ports
whose peers report one fabric ID conflict, and stop sending until the device has a new ID (R309); the margins count toward the hourly
record (R478). -/
def Obligations.PortTrainingCompletes : Prop :=
  ∀ (s : State) (p : Nat) (r : TrainResult), p < 8 → (s.port p).state = 1 → s.power.fabLock.getLsbD (p / 4) = true →
    let y := (s.port p).tested r
    let n := popcount 4 y.1.lanes.toNat
    let t := ((s.setPort p y.1).laneEvents p y.2).noteMargin p
    let u := { t with fab := { t.fab with conflict := t.fab.conflict || t.clash p, clashing := t.fab.clashing ++ t.clashes p } }
    (y.1.minLanes + 2 ≤ n → exec (.portRetrainComplete p r) s = .next (u.comesUp p n)) ∧
    (n < y.1.minLanes + 2 → exec (.portRetrainComplete p r) s = .next (u.portLost p 0))

/-- A packet for another device is forwarded on the route of its destination and not delivered (R311), whatever its kind; and
a packet of a collective for this device that the rules of R309 and R313 turn away is dropped and counted. -/
def Obligations.PacketsNotTakenHere : Prop :=
  ∀ (s : State) (k : FabPacket),
    (s.fab.fid ≠ 0xFFF → k.dest.toNat ≠ s.fab.fid →
      exec (.packetForward k) s = .next (s.routeOut k) ∧ exec (.ready k) s = .next (s.routeOut k) ∧
      exec (.data k) s = .next (s.routeOut k) ∧ exec (.join k) s = .next (s.routeOut k) ∧
      exec (.e2eAck k) s = .next (s.routeOut k) ∧ exec (.stepAbort k) s = .next (s.routeOut k)) ∧
    (∀ t, isPairPacket k = false → k.dest.toNat = s.fab.fid ∨ s.fab.fid = 0xFFF → s.admits k = none →
      t = { s with fab := { s.fab with drop := sat32 (s.fab.drop + 1) } } →
      exec (.ready k) s = .next t ∧ exec (.data k) s = .next t ∧ exec (.join k) s = .next t ∧ exec (.e2eAck k) s = .next t ∧
        exec (.stepAbort k) s = .next t)

/-- Packets of collectives that are for this device and not too old (R312, R313, R323, R324, R329, R339): a `READY` or a
`JOIN` reaches the collective it names, a `DATA` packet is acknowledged, counted as delivered and combined, a second copy is
acknowledged only, an `E2E_ACK` releases what it names, and a `STEP_ABORT` aborts the current attempt. -/
def Obligations.CollectivePacketsComplete : Prop :=
  ∀ (s : State) (k : FabPacket) (jn : Nat) (j : Job),
    isPairPacket k = false → k.dest.toNat = s.fab.fid → s.admits k = some (jn, j) →
    let heard := (s.sendPacket (packetAck k)).countLink true jn k.payload.length
    let t := heard.modJob jn fun j => { j with delivered := deliveryKey k :: j.delivered }
    (∀ w c, s.collFor jn j k = some (w, c) → le k.payload 0 4 = c.crc.toNat → k.pkind.toNat = pkREADY →
      exec (.ready k) s = .next ((((s.heard w c).modColl w.seq fun c =>
        { c with readyFrom := c.readyFrom ++ [k.src.toNat] }).pumpColl w.seq).flushColl w.seq |>.noteWait w.seq)) ∧
    (∀ w c, s.collFor jn j k = some (w, c) → le k.payload 0 4 = c.crc.toNat → k.pkind.toNat = pkJOIN →
      exec (.join k) s = .next ((((s.heard w c).modColl w.seq fun c =>
        { c with joinFrom := c.joinFrom ++ [k.src.toNat] }).flushColl w.seq).noteWait w.seq)) ∧
    (∀ w c v, j.delivered.contains (deliveryKey k) = false → t.collFor jn j k = some (w, c) → collViewOf t j w = some v →
      exec (.data k) s = .next (t.takeData w c v k)) ∧
    (j.delivered.contains (deliveryKey k) = true → exec (.data k) s = .next heard) ∧
    exec (.e2eAck k) s = .next (s.released k) ∧
    (k.step.toNat = j.step → k.attempt.toNat = j.attempt → j.aborted = false → exec (.stepAbort k) s = .next (s.abortAttempt jn))

/-- A packet whose acknowledgement is late is sent again on the current route (R312), a peer's silence ends its collective
(R338), and a peer that was late too often is lost, as is one without a route for `LOSS_MS`, to which time SCLK counts on (the model's
choice, log 152); with no policy that waits for a spare it is due at once, and else when
the spare is due (R436, R437). -/
def Obligations.PeerEventsComplete : Prop :=
  ∀ s : State,
    (∀ k, (s.fab.unacked.any fun e => e.1 == k) = true → s.fab.waiting.contains k = false →
      exec (.e2eAckTimeout k) s = .next (s.routeOut k)) ∧
    (∀ q w c, (s.recordLate q).work q = some w → w.coll = some c → c.started = true →
      exec (.peerTimeout q) s = .next ((s.recordLate q).breakColl w c St.intPeerLate)) ∧
    (∀ jn d j dev, jn < 4 → s.job jn = some j → j.mapping.devs[d]? = some dev → d ≠ j.mapping.self → j.lost.contains d = false →
      (j.late.any fun l => l.1 == d && decide (j.lossAttempts ≤ l.2.1)) = true → s.unreachable dev.fid = false →
      exec (.peerLost jn d) s = .next (s.setJob jn (some { j with
        lost := j.lost ++ [d], events := j.events ++ [s.sclk], lostAt := if j.peerState = 0 then s.sclk else j.lostAt,
        peerState := if j.peerState ≠ 0 then j.peerState else if j.policy = 0 then 2 else 1 }))) ∧
    (∀ jn d j dev t, jn < 4 → s.job jn = some j → j.mapping.devs[d]? = some dev → d ≠ j.mapping.self → j.lost.contains d = false →
      s.unreachable dev.fid = true → s.host.txHeld = [] →
      t = { s with sclk := max s.sclk (s.routeLostAt dev.fid + j.lossMs * msCycles) } →
      exec (.peerLost jn d) s = .next (t.setJob jn (some { j with
        lost := j.lost ++ [d], events := j.events ++ [t.sclk], lostAt := if j.peerState = 0 then t.sclk else j.lostAt,
        peerState := if j.peerState ≠ 0 then j.peerState else if j.policy = 0 then 2 else 1 }))) ∧
    (∀ jn j, jn < 4 → s.job jn = some j → j.policy = 2 → j.peerState = 1 →
      exec (.spareDue jn) s = .next (s.setJob jn (some { j with peerState := 2 })))

/-! ### Mirror pairs, checkpoints and leases (R444-R457) -/

/-- Packets between mirror partners (R450-R454): a request for the image is answered with it, a primary whose partner is ready sends
its copy or knows that its last copy is a valid image, a greeting and a piece of the
image reach the pair, and an acknowledgement releases what it names. The READY of a pair is the model's reading (log 35). -/
def Obligations.PairPacketsComplete : Prop :=
  ∀ (s : State) (k : FabPacket) (jn : Nat) (j : Job),
    isPairPacket k = true → s.fab.fid ≠ 0xFFF → k.dest.toNat = s.fab.fid → s.jobOfTag k.tag.toNat = some jn →
    (s.pairHeard jn k).job jn = some j →
    let t := s.pairHeard jn k
    (∀ q c i n, j.pair = some q → j.stateSet = some c → k.src.toNat = q.partner → q.secondary = true → q.newestImage = some (i, n) →
      exec (.ready k) s = .next (t.sendPackets (copyPackets t j c (q.imageDa c i) q.partner n))) ∧
    (∀ q c, j.pair = some q → j.stateSet = some c → k.src.toNat = q.partner → q.secondary = false → q.sending = none →
      exec (.ready k) s = .next (t.modJob jn fun j => { j with pair := some { q with ready := true } })) ∧
    (∀ q c y, j.pair = some q → j.stateSet = some c → k.src.toNat = q.partner → q.secondary = false → q.sending = some y →
      q.gone = true → exec (.ready k) s = .next (t.modJob jn fun j =>
        { j with pair := some { q with ready := true, sending := none, gone := false, sentStep := y.step } })) ∧
    (∀ q c y, j.pair = some q → j.stateSet = some c → k.src.toNat = q.partner → q.secondary = false → q.sending = some y →
      q.gone = false → exec (.ready k) s = .next (t.mirrorGoes jn)) ∧
    (∀ q, j.pair = some q → k.collId.toNat = cidHello → k.src.toNat = q.partner →
      exec (.join k) s = .next (t.helloDecides jn k.payload)) ∧
    (j.pair = none → k.collId.toNat = cidHello →
      exec (.join k) s = .next (t.modJob jn fun j => { j with early := j.early ++ [k] })) ∧
    (∀ q c da i, j.pair = some q → j.stateSet = some c → k.src.toNat = q.partner →
      copyOffset k + k.payload.length ≤ c.bytes → j.restore = some i → i.target = 3 → c.regionDa (copyOffset k) = some da →
      exec (.data k) s = .next ((((t.sendPacket (packetAck k)).copyBefore jn da k.payload.length).storePieces k da).modJob jn fun j => { j with
        restore := some { i with step := k.step.toNat, poison := if i.poison.isNone ∧ k.poison ≠ 0#128 then some da else i.poison }
        pair := some { q with got := if q.got.contains (copyOffset k) then q.got else copyOffset k :: q.got } })) ∧
    (∀ q c i, j.pair = some q → j.stateSet = some c → k.src.toNat = q.partner →
      copyOffset k + k.payload.length ≤ c.bytes → j.restore = none → q.secondary = true →
      q.receiving = some (i, k.step.toNat) → q.got ≠ [] →
      exec (.data k) s = .next ((((t.sendPacket (packetAck k)).copyBefore jn (q.imageDa c i + mib2 + copyOffset k) k.payload.length).storePieces k
        (q.imageDa c i + mib2 + copyOffset k)).modJob jn fun j => { j with
        pair := some { q with
          receiving := some (i, k.step.toNat)
          got := if q.got.contains (copyOffset k) then q.got else copyOffset k :: q.got } })) ∧
    exec (.e2eAck k) s = .next (t.released k)

/-- Events of a pair and of a job's copies (R445, R449-R456): a secondary that hears nothing of its partner for the pair
timeout is late, a disruptive event, and applies its image (R452); a pair that is not greeted in its time ends with
`INT_PEER_LATE` (R450); a heartbeat goes to the partner (R451); an image that has wholly arrived is kept; a checkpoint, which has read
what was left of it, and a restore end; an applied image ends the failover; and a lease that lapses fences the device. -/
def Obligations.PairEventsComplete : Prop :=
  ∀ (s : State) (jn : Nat) (j : Job), jn < 4 → s.job jn = some j →
    (∀ q, j.pair = some q → q.state = 1 → exec (.pairTimeout jn) s =
      .next ((s.setJob jn (some { j with pair := some { q with state := 2, sending := none, outbox := [], gone := false }, events := j.events ++ [s.sclk] })).beginApply jn)) ∧
    (∀ q, j.pair = some q → q.state ≠ 0 → exec (.heartbeat jn) s =
      .next (s.sendPacket (pairPacket s j q.partner pkJOIN cidBeat 0 []))) ∧
    (∀ q, j.pair = some q → q.state = 0 → exec (.mirrorPairTimeout jn) s =
      .next ((s.setJob jn (some { j with pair := none })).finish q.pairSeq St.intPeerLate (pairReply 0 0 0))) ∧
    (∀ q t i n, j.pair = some q → j.stateSet = some t → q.receiving = some (i, n) → gotAll t q.got = true →
      exec (.mirrorCopyComplete jn) s = .next (s.keepImage jn j q t i n)) ∧
    (∀ u i c t, u = s.ckptReads jn (fun _ => true) → u.job jn = some i → i.checkpoint = some c → i.stateSet = some t →
      exec (.checkpointComplete jn) s = .next (u.endCkpt jn i c t)) ∧
    (∀ c t, j.restore = some c → j.stateSet = some t → restoreWhole j c t = true →
      exec (.restoreComplete jn) s = .next (s.endRestore jn c t)) ∧
    (∀ q t i n, j.pair = some q → j.stateSet = some t → q.applying = true → q.newestImage = some (i, n) →
      exec (.imageApplyComplete jn) s = .next (s.useImage jn q t i)) ∧
    (s.lease.state = 1 → exec .leaseLapse s =
      .next { s with lease := { s.lease with state := 2, lapses := sat32 (s.lease.lapses + 1) } }.fence)

/-! ### Entries at the heads of context queues (R196, R264-R300, R314-R337, R439) -/

/-- Markers take effect at the head of their queue (R265, R272, R274, R287, R299, R317, R439): a step begins a new attempt, a
barrier whose conditions hold lets the queue go on and sets its flag, a phase mark begins a span, a gradient set opens with
its frames pinned, a mapping of the next epoch replaces the old one, and a commit of the current step is taken, but not while the
pair's copy of the commit before is under way (the model's reading of R451, log 35). -/
def Obligations.MarkersTakeEffect : Prop :=
  ∀ (s : State) (q : Nat) (w : Work) (j : Job), s.work q = some w → s.job w.job = some j →
    (w.opcode = opcSTEP_BEGIN → s.jobClear q = true → s.atHead q = true →
      exec (.stepBeginTakesEffect q) s = .next (s.beginAttempt w j q)) ∧
    (w.opcode = opcBARRIER → (BarrierHdr.parse w.params).job = true → s.jobClear q = true → s.atHead q = true →
      s.badBefore (s.barrierCtxs w true) q = false →
      (BarrierHdr.parse w.params).waitHost = false → (BarrierHdr.parse w.params).waitFlag = false →
      (BarrierHdr.parse w.params).setFlag = false → w.host = none →
      exec (.barrierComplete q) s = .next (((s.finish q St.done []).judged w true []).signal w.job)) ∧
    (w.opcode = opcBARRIER → (BarrierHdr.parse w.params).job = false → s.ctxClear q = true →
      s.badBefore (s.barrierCtxs w false) q = false →
      (BarrierHdr.parse w.params).waitHost = false → (BarrierHdr.parse w.params).waitFlag = true →
      (BarrierHdr.parse w.params).waitVal ≤ s.rdNat (BarrierHdr.parse w.params).waitDa 8 →
      (BarrierHdr.parse w.params).setFlag = true → w.host = none →
      exec (.barrierComplete q) s = .next ((((s.finish q St.done []).judged w false []).signal w.job).flagPut w.job
        (BarrierHdr.parse w.params).setDa (BarrierHdr.parse w.params).setVal)) ∧
    (∀ c, w.opcode = 0x0315 → w.ctx = some c → s.atHead q = true →
      exec (.phaseMarkTakesEffect q) s = .next (((s.endSpan c (le w.params 0 1) false).modCtx c fun k =>
        { k with markPhase := some (le w.params 0 1), stage := le w.params 1 1, microBatch := le w.params 4 4 }).finish q St.done [])) ∧
    (∀ pins, w.opcode = 0x0314 → s.atHead q = true → (j.sets.any fun g => g.tensorId == le w.params 0 4) = false → j.sets.length < 8 →
      pinBlocks j.sets (le w.params 20 1 * le w.params 21 1) (s.pinTiles j)
        (ceilDiv (le w.params 12 4) (48 * le w.params 20 1) * ceilDiv (le w.params 16 4) (48 * le w.params 21 1)) [] = some pins →
      exec (.gradOpenTakesEffect q) s = .next ((s.setJob w.job (some { j with sets := j.sets ++
        [{ tensorId := le w.params 0 4, mbFirst := le w.params 4 4, mbCount := le w.params 8 4, rows := le w.params 12 4,
           cols := le w.params 16 4, a := le w.params 20 1, b := le w.params 21 1, pins := pins,
           accepted := [], settings := [], taken := [], lost := false }] })).finish q St.done [])) ∧
    (∀ m, w.opcode = opcMAP_SET → s.jobClear q = true → s.atHead q = true → m = parseMapping w.params →
      m.epoch = (j.mapping.epoch + 1) % 2 ^ 32 → m.width = j.mapping.width → m.replicas = j.mapping.replicas → m.tag = j.mapping.tag →
      exec (.mapSetTakesEffect q) s = .next ((s.setJob w.job (some { j with
        mapping := m, prior := some j.mapping, peerState := 0, lost := [], late := [] })).finish q St.done [])) ∧
    (w.opcode = opcSTEP_COMMIT → s.jobClear q = true → s.atHead q = true → s.fenced w.job = false → le w.params 0 4 = j.step →
      j.bad = [] → j.copying = false → exec (.stepCommitTakesEffect q) s = .next (s.commitStep w j)) ∧
    (w.opcode = opcSTEP_COMMIT → j.copying = true → exec (.stepCommitTakesEffect q) s = .next s)

/-- `MAP_SET` with a block that is not of the next epoch, or that changes W, `REPLICAS` or `TAG`, completes with
`STATE_MAP_EPOCH` and changes nothing else (R317); a commit of a fenced job is refused, as is one of another step or one
after a failure (R439, R456). -/
def Obligations.MarkersThatFail : Prop :=
  ∀ (s : State) (q : Nat) (w : Work) (j : Job), s.work q = some w → s.job w.job = some j → s.jobClear q = true → s.atHead q = true →
    (w.opcode = opcMAP_SET →
      (parseMapping w.params).epoch ≠ (j.mapping.epoch + 1) % 2 ^ 32 ∨ (parseMapping w.params).width ≠ j.mapping.width ∨
        (parseMapping w.params).replicas ≠ j.mapping.replicas ∨ (parseMapping w.params).tag ≠ j.mapping.tag →
      exec (.mapSetTakesEffect q) s = .next (s.finish q St.stateMapEpoch [])) ∧
    (w.opcode = opcSTEP_COMMIT → j.copying = false → s.fenced w.job = true →
      exec (.stepCommitTakesEffect q) s = .next (s.finish q St.stateFenced [])) ∧
    (w.opcode = opcSTEP_COMMIT → j.copying = false → s.fenced w.job = false → le w.params 0 4 ≠ j.step →
      exec (.stepCommitTakesEffect q) s = .next (s.finish q St.paramRange [])) ∧
    (w.opcode = opcSTEP_COMMIT → j.copying = false → s.fenced w.job = false → le w.params 0 4 = j.step → j.bad ≠ [] →
      exec (.stepCommitTakesEffect q) s = .next (s.finish q St.statePredFailed []))

/-- The hayloft (R280-R285): a pop at the head of its queue binds the newest entry that is not bound, a free releases a bound
entry that no entry accepted since its pop still reads, and a spill or a refill ends with the entry at its new place. -/
def Obligations.HayloftEventsComplete : Prop :=
  ∀ (s : State) (c : Nat) (k : Ctx), s.ctx c = some k →
    (∀ q w e, s.work q = some w → w.ctx = some c → w.opcode = 0x0312 → s.atHead q = true →
      (k.hay.reverse.find? fun e => e.state != 2) = some e → e.pushFinal = true → e.tensorId = le w.params 0 4 →
      bit (le w.params 8 1) 0 = true ∨ e.microBatch = le w.params 4 4 →
      (k.hay.any fun x => x.state == 2 && x.tensorId == le w.params 0 4) = false →
      (k.hay.filter fun x => x.state == 2).length < 16 → e.pushOk = true → e.placed = true → e.spilled = false → e.moving = none →
      exec (.hayloftPopTakesEffect q) s = .next ((((s.setCtx c (some { k.modHay e.seq (fun _ => { e with state := 2, boundBy := q }) with
        popWait := k.popWaited s.sclk
        popSince := none })).hayState { e with state := 2, boundBy := q }).finish q St.done []).roomLeft c)) ∧
    (∀ q w e, s.work q = some w → w.ctx = some c → w.opcode = 0x0313 → s.atHead q = true →
      (k.hay.find? fun e => e.state == 2 && e.tensorId == le w.params 0 4) = some e →
      ((s.before q).any fun v => v.ctx == some c && seqBefore e.boundBy v.seq && v.readTensors.any fun t => t.id == le w.params 0 4) = false →
      exec (.hayloftFreeTakesEffect q) s = .next ((s.freeEntry c e.seq).finish q St.done [])) ∧
    (∀ e, c < 16 → (k.hay.find? fun e => e.moving == some true) = some e → s.entryBusy e = false →
      exec (.spillComplete c) s = .next (((s.copyRange e.da e.moveTo e.bytes).modCtx c fun k =>
        { k.modHay e.seq fun x => { x with da := x.moveTo, spilled := true, moving := none } with spillOut := k.spillOut + e.bytes }).spillLeft c)) ∧
    (∀ e, c < 16 → (k.hay.reverse.find? fun e => e.moving == some false) = some e → s.entryBusy e = false →
      exec (.refillComplete c) s = .next (((s.copyRange e.da e.moveTo e.bytes).modCtx c fun k =>
        { k.modHay e.seq fun x => { x with da := x.moveTo, spilled := false, moving := none } with refill := k.refill + e.bytes }).room c))

/-- Operations start at the head of their queue (R196, R200, R205): a `ROW` operation, a compatibility launch, and the others
with their operands as bound, the headers of their sparse operands read, their tiling chosen and their scratch placed; an
operation whose ZERO tiles go into a hayloft entry waits until the entry has a place (R281); and an operation in its apply
pass ends with every image applied (R257). -/
def Obligations.OperationsStart : Prop :=
  ∀ (s : State) (q c : Nat) (w : Work) (o : OpRun) (j : Job) (k : Ctx),
    s.work q = some w → w.op = some o → s.job w.job = some j → w.ctx = some c → s.ctx c = some k →
    (w.isOp = true → o.started = false → s.atHead q = true →
      (s.pushWaits w && (OpDesc.parse w.params).skipUnselected) = false →
      (∀ v da need, w.opcode = opcROW → mkRowView j.mapping (RowDesc.parse w.params) = some v → v.boundOk k = true →
        need = (if v.empty then 0 else v.scratchSpan o.tiling.mt) → s.scratchPlace w.job j need = some da →
        exec (.operationStart q) s = .next (((((s.startEntry q).modWork q fun x =>
          { x with params := patchParams k w.params 32 v.ops v.d.destinations,
                   op := some { o with started := true, scratchDa := da, scratchLen := need } }).signal w.job).afterItems q).pumpAll)) ∧
      (w.opcode ≠ opcROW → (OpDesc.parse w.params).kind = 6 →
        exec (.operationStart q) s = .next ((s.startEntry q).modOp q fun o => { o with started := true }).pumpAll) ∧
      (∀ u p v hs t da, w.opcode ≠ opcROW → (OpDesc.parse w.params).kind ≠ 6 → mkView j.mapping (OpDesc.parse w.params) = some u →
        u.boundStatus k = 0 → p = patchParams k w.params 208 u.ops u.d.destinations →
        mkView j.mapping (OpDesc.parse p) = some v →
        ((!v.sparseInputs.isEmpty && !v.empty) = true → v.headerPass s.byte s.poisonedAt = (none, hs) ∧
          tilingOf j v o.capRows (v.leadKinds hs) = .ok t ∧ s.poolUsed + bitmapBytes t.items ≤ poolBytes) →
        ((!v.sparseInputs.isEmpty && !v.empty) = false → hs = [] ∧ t = o.tiling) →
        s.scratchPlace w.job j (if v.empty then 0 else v.scratchSpan t (v.capturedRows o.capRows).length) = some da →
        exec (.operationStart q) s =
          .next ((s.carryHeaders hs).startItems w o j v p t hs (!v.sparseInputs.isEmpty && !v.empty) da).pumpAll)) ∧
    ((s.pushWaits w && (OpDesc.parse w.params).skipUnselected) = true →
      exec (.operationStart q) s = .next (s.pushMustWait c)) ∧
    (∀ x w' o', o.applying = true → w.cancelling = false →
      x = (s.applyFirst q (s.applyCount q)).modOp q (fun o => { o with applying := false }) → x.work q = some w' → x.opRun q = some o' →
      exec (.applyPassEnd q) s = .next (x.completeOp w' o'))

/-- Collectives (R323, R324, R338-R341): one starts when it is at the head of its queue, its attempt stands, its ID is
new and the entry bound to its source matches it, it takes its operands as bound and sends its greetings, and it completes when every participant has joined. -/
def Obligations.CollectivesRun : Prop :=
  ∀ (s : State) (q : Nat) (w : Work) (j : Job), s.work q = some w → s.job w.job = some j →
    (∀ v, w.isColl = true → w.running = false → w.cancelling = false → s.atHead q = true → j.aborted = false →
      j.collIds.contains (collIdOf j w) = false → s.collBoundOk w j = true → collViewOf s j (s.patchColl w j) = some v →
      exec (.collectiveStart q) s = .next (s.launchColl (s.patchColl w j) j v (collIdOf j w)) ∧
      exec (.gradNormStart q) s = .next (s.launchColl (s.patchColl w j) j v (collIdOf j w))) ∧
    (∀ c v, w.coll = some c → collViewOf s j w = some v → c.complete w j v = true →
      exec (.collectiveComplete q) s = .next ((s.resultColl w j c v).clearLoss w.job ((participants j w).filterMap j.mapping.indexOf))) ∧
    (w.isColl = true → w.running = false → w.cancelling = false → s.atHead q = true → j.aborted = true →
      exec (.collectiveStart q) s = .next (s.failColl w St.intStepAbort))

/-- Streams, cancellations and releases (R217, R250-R256): a transfer starts when its trigger is met, an entry that is being
cancelled ends when nothing of it is under way, and a release or a modification ends with its memory and tiles zeroed. -/
def Obligations.StreamAndReleaseEventsComplete : Prop :=
  ∀ s : State,
    (∀ jn d b, jn < 4 → d < 64 → (s.stream jn d).body = some b → (s.stream jn d).state = .waiting ∨ (s.stream jn d).state = .running →
      (s.stream jn d).moving = false → s.triggerMet (s.stream jn d) b (StreamHdr.parse b.params) = true → ∀ es,
      exec (.streamTransferStart jn ⟨d, es⟩) s = .next (s.startXfer jn d (s.stream jn d) b (StreamHdr.parse b.params) es)) ∧
    (∀ q w x gen, s.work q = some w → w.cancelling = true → s.readsOut q = false → s.issuedOut q = false → w.opcode = opcSTREAM_ARM →
      w.ctx = none → x = s.stream w.job w.sd → gen = (x.gen + 1) % 2 ^ 32 →
      exec (.cancellationComplete q) s = .next (((((s.finishAt q St.partEnd x.watermark (armReply x.watermark x.doneXfers)).modStream
        w.job w.sd fun x => { x with state := .free, gen := gen, body := none, moving := false, segLeft := [], segs := []
                                     badElems := [], ordered := false, doneXfers := 0 }).endCancellers w.cancelBy
          x.doneXfers gen x.watermark).shadowEffect w.job w.sd).endReleases)) ∧
    (∀ q w o c k, s.work q = some w → w.cancelling = true → s.readsOut q = false → s.issuedOut q = false →
      w.opcode ≠ opcSTREAM_ARM → w.op = some o → w.ctx = some c → s.ctx c = some k →
      exec (.cancellationComplete q) s = .next ((((s.endSpan c k.phase true).endPlain w o St.partEnd).endCancellers w.cancelBy o.finalCount 0 o.finalCount).endReleases)) ∧
    (∀ jn j q, jn < 4 → s.job jn = some j → j.releasing = some q → (s.works.any fun w => w.job == jn && w.cancelling) = false →
      exec (.zeroingComplete jn) s = .next ((((((tilesOf j.paddocks).foldl State.zeroTile
        (j.regions.foldl (fun s r => s.zero r.base r.len) s)).unask (tilesOf j.paddocks)).retireJob jn).resetQps
          fun x => x.state != 0 && x.job == jn).finish q St.done []).throttleNow) ∧
    (∀ jn j, jn < 4 → s.job jn = some j → j.releasing = none → j.modifying ≠ [] →
      ((tilesOf j.leaving).any fun n => (s.tile n).item.isSome) = false →
      exec (.zeroingComplete jn) s = .next (j.modifying.foldl (fun s q => s.finish q St.done [])
        ((((tilesOf j.leaving).foldl State.zeroTile s).unask (tilesOf j.leaving)).modJob jn fun j =>
          { j with paddocks := j.paddocks &&& ~~~j.leaving, leaving := 0#20, modifying := [] })).throttleNow)

/-! ### The tiles and the skips (R36, R70-R111, R200-R206, R236-R240) -/

/-- A tile takes work and loads it (R201, R202, R36, R109, R236-R238): it sends its TAKE, and is handed the item that the
sequencer offers or is told that there is none; it sends its pulls for a round that its operation may read, which a skip takes
up; and a read that returns is checked, counted and staged. A tile that was told that there is none waits for a signal of its
job's counter before it asks again (log 58). -/
def Obligations.ItemsAreTakenAndLoaded : Prop :=
  ∀ s : State,
    (∀ n r, n < 800 → (s.tile n).quarantined = false → s.waitsForSignal n = false → (s.tile n).phase = .idle → (s.tile n).item = none →
      (s.sendTake n).offer n = some r → exec (.take n) s = .next ((s.sendTake n).answerItem n r false)) ∧
    (∀ n i r, n < 800 → (s.tile n).quarantined = false → s.waitsForSignal n = false → (s.tile n).phase = .compute →
      (s.tile n).item = some i → (s.tile n).next = none → (s.tile n).round = s.tileLast i →
      (s.sendTake n).offer n = some r → exec (.take n) s = .next ((s.sendTake n).answerItem n r true)) ∧
    (∀ n, n < 800 → (s.tile n).quarantined = false → s.waitsForSignal n = false → (s.tile n).phase = .idle → (s.tile n).item = none →
      (s.sendTake n).offer n = none → exec (.take n) s = .next ((s.sendTake n).answerNone n)) ∧
    (∀ n, n < 800 → (s.tile n).quarantined = true ∨ s.waitsForSignal n = true → exec (.take n) s = .next s) ∧
    (∀ n r round q, n < 800 → s.pullTarget n = some (r, round) → s.workOf r = some q →
      ((q.reads round).any fun a => !s.mayAccess q.w q.o a.2.1 a.2.2) = false →
      exec (.pullIssue n) s = .next (s.sendPulls n r round q)) ∧
    (∀ n r round q, n < 800 → s.pullTarget n = some (r, round) → s.workOf r = some q →
      ((q.reads round).any fun a => !s.mayAccess q.w q.o a.2.1 a.2.2) = true →
      exec (.pullIssue n) s = .next (s.refuseAccess q.w ((q.reads round).map Prod.snd))) ∧
    (∀ k n r, k < 48 → n < 800 → (s.tile n).phase = .load → (s.tile n).item = some r →
      ((s.tile n).pulls.any fun p => p.1 == k) = true →
      exec (.pull k n) s = .next ((s.queuePulls k n r (s.tile n).round).pump k)) ∧
    (∀ k es r rest x y, k < 48 → (s.skip k).reads = r :: rest → s.tierWaits r.granule r.size = false → r.marked = false →
      x = (s.applyEccs r.granule (es.take (r.size / 32))).countMoved r.handle r.granule r.size →
      x.firstPoison r.granule r.size = none → y = (x.modSkip k fun v => { v with reads := rest }) →
      exec (.skipReadReturn k es) s = .next (((y.modSkip k fun v => { v with staged := v.staged ++ [{
          handle := r.handle, gen := r.gen, granule := r.granule, size := r.size, copy := r.copy, users := r.users
          bytes := y.bytes r.granule r.size, poison := y.granulePoison r.granule r.size }] }).pump k).streamData k (es.drop (r.size / 32)))) ∧
    (∀ k es r rest x, k < 48 → (s.skip k).reads = r :: rest → s.tierWaits r.granule r.size = false → r.marked = true →
      x = (s.applyEccs r.granule (es.take (r.size / 32))).countMoved r.handle r.granule r.size →
      x.firstPoison r.granule r.size = none →
      exec (.skipReadReturn k es) s = .next (((x.modSkip k fun v => { v with reads := rest }).pump k).streamData k (es.drop (r.size / 32))))

/-- A tile computes (R36, R75-R84, R105, R106): it starts when its operands have arrived; a k-run or a scattered partial
without a fault leaves its pairs; and the head of the finished-tile queue, or a tile of an item without k-runs, retires. A
k-run reads its slot and checks the bodies that it met, those of its factors and of C where it starts from C (R136, R138); a
partial is added at the next bank whose queue holds one. The activity counters of R423 count the local-port lines of the load and
each pass of the vector engine (log 39). -/
def Obligations.ItemsAreComputed : Prop :=
  ∀ (s : State) (n : Nat) (q : ItemWork), n < 800 → s.tileWork n = some q →
    ((s.tile n).phase = .load → (s.tile n).pullSent = true → (s.tile n).waitFor = [] → (s.tile n).pulls = [] →
      exec (.computeStart n) s = .next ((s.countActivity n q.w.ctx evPort
        (((s.tile n).places.map fun p => pieceCount 512 (p.off.getD 0) p.len).foldl (· + ·) 0)).computes n q (s.tile n))) ∧
    (∀ v p slot k0 len f x u, q.b = .op v → s.curRun n q = some (p, slot) → (s.tile n).phase = .compute → q.runsK = true →
      (s.tile n).waiting = none → q.rounds[(s.tile n).round]? = some (k0, len) → x = s.feed n q v →
      q.scatter = false ∨ (x.partials q.it.batch p k0 len).length ≤ (s.tile n).partials →
      (s.unitFaults n f).2 = false → u = (s.unitFaults n f).1.readSlot n q slot →
      (u.recordChecks q x (q.runTiles v x (s.tile n) p k0 len) (s.tile n)).2 = true →
      exec (.kRunEnd n f) s =
        .next ((u.recordChecks q x (q.runTiles v x (s.tile n) p k0 len) (s.tile n)).1.runEnds n q v x p slot k0 len)) ∧
    (∀ v p slot k0 len t b y f, q.b = .op v → s.curRun n q = some (p, slot) → (s.tile n).phase = .compute → q.scatter = true →
      (s.tile n).waiting = none → q.rounds[(s.tile n).round]? = some (k0, len) →
      t = (s.tile n).toNextAdd slot ((s.feed n q v).partials q.it.batch p k0 len) →
      t.nextBank = some b → (t.queue b).head? = some y → ((s.setTile n t).unitFaults n f).2 = false →
      exec (.scatteredPartial n f) s = .next (((s.setTile n t).unitFaults n f).1.bankAdds n q b y)) ∧
    (∀ e rest f, (s.tile n).phase = .compute → q.runsK = true → (s.tile n).ftq = e :: rest → (s.unitFaults n f).2 = false →
      exec (.ftqEntryRetire n f) s = .next (((s.unitFaults n f).1.countActivity n q.w.ctx evVector 1).retireEntry n q e rest)) ∧
    (∀ p f, (s.tile n).phase = .compute → q.runsK = false → q.live[(s.tile n).retired]? = some p →
      (s.unitFaults n f).2 = false →
      exec (.ftqEntryRetire n f) s = .next (((s.unitFaults n f).1.countActivity n q.w.ctx evVector 1).retireTile n q (s.tile n) p)) ∧
    (∀ v p slot k0 len f, q.b = .op v → s.curRun n q = some (p, slot) → (s.tile n).phase = .compute → q.runsK = true →
      (s.tile n).waiting = none → q.rounds[(s.tile n).round]? = some (k0, len) → q.scatter = false →
      (s.unitFaults n f).2 = true → exec (.kRunEnd n f) s = .next ((s.unitFaults n f).1.quarantine n 1))

/-- A tile stores its item (R36, R201, R218, R239, R240): the writes go to the skips when every array tile has retired; a skip
issues its oldest write, or counts a cycle at its limit; a write that is performed is counted by its sender; and the item is
done when none is left. A write into bytes that a copy has still to read waits until they are read, and its wait is counted (R445);
no access of a tier is answered while its PLL relocks (R435). -/
def Obligations.ItemsAreStored : Prop :=
  ∀ s : State,
    (∀ n q, n < 800 → s.tileWork n = some q → (s.tile n).phase = .compute → (s.tile n).round + 1 = q.rounds.length →
      q.runsK = false ∨ (s.tile n).runs = q.live.length → (s.tile n).retired = q.live.length →
      (s.tile n).ftq = [] → (s.tile n).waiting = none → s.pushWaits q.w = false →
      exec (.storeStart n) s = .next (s.storeItem n q (s.tile n))) ∧
    (∀ k r rest x u y, k < 48 → (s.skip k).arrived = r :: rest → s.tierWaits r.da r.bytes.length = false →
      (s.skip k).issued.length < Skip.writeLimit s k → s.heldByCopy r = none → u = s.countHold k r →
      y = (u.setSkip k { u.skip k with arrived := rest, issued := (u.skip k).issued ++ [r] }).countMoved r.handle r.da r.bytes.length →
      y.entry r.handle = some x → exec (.skipWrite k) s = .next (y.touch x.job r.da r.bytes.length)) ∧
    (∀ k r rest j, k < 48 → (s.skip k).arrived = r :: rest → s.tierWaits r.da r.bytes.length = false →
      (s.skip k).issued.length < Skip.writeLimit s k → s.heldByCopy r = some j →
      exec (.skipWrite k) s = .next ((s.copyBefore j r.da r.bytes.length).modSkip k fun v =>
        { v with heldAt := some (v.heldAt.getD s.sclk) })) ∧
    (∀ k r rest, k < 48 → (s.skip k).arrived = r :: rest → s.tierWaits r.da r.bytes.length = true →
      exec (.skipWrite k) s = .next s) ∧
    (∀ k r rest, k < 48 → (s.skip k).arrived = r :: rest → s.tierWaits r.da r.bytes.length = false →
      Skip.writeLimit s k ≤ (s.skip k).issued.length →
      exec (.skipWrite k) s = .next (s.modSkip k fun v => { v with limits := sat32 (v.limits + 1) })) ∧
    (∀ k r rest, k < 48 → (s.skip k).issued = r :: rest → s.tierWaits r.da r.bytes.length = false →
      exec (.writeAcknowledged k) s = .next (((s.performWrite r).modSkip k fun x => { x with issued := rest }).ownerAck r)) ∧
    (∀ n r w, n < 800 → (s.tile n).phase = .store → (s.tile n).storesLeft = 0 → (s.tile n).item = some r → s.work r.op = some w →
      exec (.doneMessage n) s = .next (s.itemDone n (s.tile n) r w))

/-- The other events of a tile (R24, R71, R96, R97, R205, R206, R267, R432): its fault limits quarantine it; an atomic access
that is allowed is checked word by word and performed lane by lane; one that is not performs nothing and answers its status,
with which the launch that sent it ends when it reached outside its job; a flag of a job is written; a poll changes nothing
(what waits on a flag reads it when it goes on); and a program of a compatibility launch ends, or stops the launch at an
instruction. -/
def Obligations.TileEventsComplete : Prop :=
  ∀ s : State,
    (∀ n, n < 800 → 64 ≤ (s.tile n).recovered → exec (.recoveredLimit n) s = .next (s.quarantine n 3)) ∧
    (∀ n, n < 800 → 4 ≤ (s.tile n).uncorrSum → exec (.eccQuarantineLimit n) s = .next (s.quarantine n 4)) ∧
    (∀ n a b u, n < 800 → s.atomicStatus n a = 0 → b = { a with offset := a.offset / 64 * 64 } →
      u = (atomicWords b).foldl (fun s w => s.windowEcc n (b.offset + 8 * w) ((b.ecc[w]?).getD .clean)) (s.portGrants n .atom 1) →
      (a.returnOld = false → exec (.atomic n a) s = .next (u.runLanes b n (atomicLanes b)).1) ∧
      (a.returnOld = true → exec (.atomic n a) s = .next ((u.runLanes b n (atomicLanes b)).1.send
        (.atomicOld n (u.runLanes b n (atomicLanes b)).2)))) ∧
    (∀ n a st, n < 800 → st = s.atomicStatus n a → st ≠ 0 → st ≠ St.secWindow →
      exec (.atomic n a) s = .next (s.send (.status st))) ∧
    (∀ n m a w o, n < 800 → s.atomicStatus n a = St.secWindow → a.master = .tile m → s.launchAt m = some (w, o) →
      exec (.atomic n a) s = .next ((s.send (.status St.secWindow)).endPlain w o St.secWindow)) ∧
    (∀ jn j da v, jn < 4 → s.job jn = some j → da % 8 = 0 → j.inRegions da 8 = true →
      (∀ i k, i < jn → s.job i = some k → k.inRegions da 8 = false) →
      exec (.flagWrite da v) s = .next (s.flagPut jn da v.toNat)) ∧
    (∀ da, exec (.flagPoll da) s = .next s) ∧
    (∀ n w o j, n < 800 → s.launchAt n = some (w, o) → n ∉ o.compatTiles → s.job w.job = some j →
      o.compatTiles.length + 1 ≠ j.tiles.length →
      exec (.compatProgramEnd n) s = .next (s.modOp w.seq fun x => { x with compatTiles := o.compatTiles ++ [n] })) ∧
    (∀ n w o j x, n < 800 → s.launchAt n = some (w, o) → n ∉ o.compatTiles → s.job w.job = some j →
      o.compatTiles.length + 1 = j.tiles.length → x = (s.modOp w.seq fun x => { x with compatTiles := o.compatTiles ++ [n] }) →
      exec (.compatProgramEnd n) s = .next (x.endPlain w o St.done)) ∧
    (∀ n w o h j t, n < 800 → s.launchAt n = some (w, o) → s.holder (paddockOf n) = some h → s.job h = some j →
      exec (.compatInsnStop n t) s = .next (s.endOp w o St.paramCompatInsn
        (resultBlock o false 0 0 (s.programDa j w.params n + t) 0 n 0 0)))

/-! ### The memory tiers (R219-R229, R398) -/

/-- A scrub read acts on what its code finds and adds what the stack's own code corrected (R219-R224), a write-back clears its
mark (R221), a row that fails is repaired while the tier has a spare and retired when it has none (R228, R229), and a memory
test ends with its range zeroed and its errors counted, corrected or poisoned (R398). -/
def Obligations.MemoryEventsComplete : Prop :=
  ∀ s : State,
    (∀ da e n t, s.inTier da = true → s.tierWaits da 1 = false → hbmBytes ≤ da → t = s.applyEcc da e → exec (.scrubRead da ⟨e, n⟩) s = .next t) ∧
    (∀ da e n t h, s.inTier da = true → s.tierWaits da 1 = false → da < hbmBytes → t = s.applyEcc da e → h = hbmStack da →
      exec (.scrubRead da ⟨e, n⟩) s = .next { t with memInfo := { t.memInfo with
        onDie := store 0 t.memInfo.onDie h (sat32 (lookup 0 t.memInfo.onDie h + n)) } }) ∧
    (∀ da, s.applyEcc da .clean = s ∧ s.applyEcc da .corrected = s.corrected da ∧
      s.applyEcc da .uncorrectable = s.uncorrectable da) ∧
    (∀ da, s.tierWaits da 1 = false → exec (.eccWriteBack da) s =
      .next { s with memInfo := { s.memInfo with writeBack := s.memInfo.writeBack.filter (· != unitOf da) } }) ∧
    (∀ (r : DramRow) us, s.rowFails r = true → us = r.das.map unitOf → r.spareLeft = true → exec (.softRepair r) s = .next { s with
      corrections := s.corrections.filter fun e => !us.contains e.1
      memInfo := { s.memInfo with
        failed := s.memInfo.failed.filter (fun u => !us.contains u)
        pendingRepairs := sat 10 (s.memInfo.pendingRepairs + 1)
        soft := s.memInfo.soft ++ [r] } }) ∧
    (∀ (r : DramRow) us, s.rowFails r = true → us = r.das.map unitOf → r.spareLeft = false → exec (.softRepair r) s =
      .next (State.retireRow { s with
        corrections := s.corrections.filter fun e => !us.contains e.1
        memInfo := { s.memInfo with failed := s.memInfo.failed.filter fun u => !us.contains u } } r)) ∧
    (∀ (r : DramRow), s.rowFails r = false → exec (.softRepair r) s = .next s) ∧
    (∀ t l es x, s.memInfo.test = some t → es = l.filter (fun e => decide (t.da ≤ e.1 ∧ e.1 < t.da + t.len)) →
      x = (es.foldl (fun s e => s.applyEcc e.1 (if e.2 then .uncorrectable else .corrected)) s).zero t.da t.len →
      exec (.memTestComplete l) s = .next ((State.unrestrict { x with
        memInfo := { x.memInfo with
          test := none
          writeBack := x.memInfo.writeBack.filter fun u => !decide (t.da ≤ u ∧ u < t.da + t.len) } }).finish t.seq St.done
          (leBytes 8 es.length ++ leBytes 8 ((es.head?.map Prod.fst).getD 0))))

/-! ### Power and clocks (R401-R424, R435, R478) -/

/-- The events of the power loop (R410-R421): a period in which no paddock is at its shutdown temperature takes the cap,
the telemetry and the regulators' status and grants points, and one in which a paddock is shuts the device down; lost telemetry,
thermal steps, a rail at its target, droop, BRAKE_N and the alerts of the
regulators set the ceilings that their rules name and the points are granted again. A droop's level compares the supply with the
voltage in force, and a stretch ends when the supply has held (what a trip and its end bring is the model's reading, log 156). An hour adds
its whole minutes to the bins and to the powered hours (R478). -/
def Obligations.PowerEventsComplete : Prop :=
  ∀ s : State,
    (∀ (t : Telemetry) u, s.sec.off = false → s.sec.resetLow = false →
      u = (((s.takeCap).readTelemetry t).readHour).readVrms t.vrmStatus → u.sec.off = false →
      (u.tooHot = false → exec (.capLoopPeriod t) s = .next u.capPeriod) ∧
      (u.tooHot = true → exec (.capLoopPeriod t) s = .next u.thermalShutdown)) ∧
    (s.power.stale = true →
      exec .telemetryLost s = .next (({ s with power := { s.power with telemLost := true } }).vrmCeilings).regrant) ∧
    (∀ p, p < 20 → s.held p = true → s.limitQc ≤ (s.paddock p).tempQc → (s.paddock p).hot = 0 →
      exec (.thermalCeilingStep p) s = .next (s.setPaddock p { s.paddock p with
        thermal := some (min 4 ((s.paddock p).thermal.getD 0 + 1)), hot := 10 }).regrant) ∧
    (∀ p n, p < 20 → s.held p = true → (s.paddock p).tempQc < s.limitQc - 12 → (s.paddock p).cool = 0 →
      (s.paddock p).thermal = some (n + 1) →
      exec (.thermalCeilingStep p) s = .next (s.setPaddock p { s.paddock p with thermal := some n, cool := 100 }).regrant) ∧
    (∀ q, q < 4 → s.railTo q < s.railAt q →
      exec (.vrmAtTarget q) s = .next ((s.setRail q (s.railTo q)).runQuarter q).throttleNow) ∧
    (∀ q, q < 4 → s.railAt q ≤ s.railTo q → s.ramp q = .down → exec (.vrmAtTarget q) s = .next (s.setRamp q .still)) ∧
    (∀ p mv, s.droopLevel p mv = if mv + 2 * s.threshMv < s.inForceMv (p / 5) then 2
      else if mv + s.threshMv < s.inForceMv (p / 5) then 1 else 0) ∧
    (∀ p mv, p < 20 → s.held p = true → (s.paddock p).stretch < s.droopLevel p mv →
      exec (.droopTrip p mv) s = .next (((s.setPaddock p { s.paddock p with
        stretch := s.droopLevel p mv, stretchSince := s.sclk
        stretchCycles := sat32 ((s.paddock p).stretchCycles + (s.paddock p).stretchCount s.sclk)
        stretchEvents := if (s.paddock p).stretch = 0 then sat32 ((s.paddock p).stretchEvents + 1) else (s.paddock p).stretchEvents }).holdRamp
          (p / 5)).throttleNow)) ∧
    (∀ p mv, p < 20 → s.droopLevel p mv ≤ (s.paddock p).stretch → exec (.droopTrip p mv) s = .next s) ∧
    (∀ h : Steady, h.paddock < 20 → (s.paddock h.paddock).stretch ≠ 0 → s.inForceMv (h.paddock / 5) + 10 < h.lowestMv + s.threshMv →
      10 * s.power.hold ≤ h.ns →
      exec (.stretchEnd h) s = .next ((s.setPaddock h.paddock { s.paddock h.paddock with
        stretch := 0, stretchCycles := sat32 ((s.paddock h.paddock).stretchCycles + (s.paddock h.paddock).stretchCount s.sclk) }).runQuarter
          (h.paddock / 5)).throttleNow) ∧
    (∀ h : Steady, h.paddock < 20 → h.ns < 10 * s.power.hold → exec (.stretchEnd h) s = .next s) ∧
    (s.sec.off = false → exec .brakeNLow s =
      .next (({ s with power := { s.power with brakeLow := true } }.heldPaddocks.foldl (fun (s : State) p => s.modPaddock p fun x => { x with brake := some 4 })
        { s with power := { s.power with brakeLow := true } }).regrant)) ∧
    exec .brakeNRelease s =
      .next (({ s with power := { s.power with brakeLow := false } }.heldPaddocks.foldl (fun (s : State) p => s.modPaddock p fun x => { x with brake := none })
        { s with power := { s.power with brakeLow := false } }).regrant) ∧
    (∀ x, s.sec.off = false → s.sec.resetLow = false → x = { s with power := { s.power with feedSag := true, sagCeiling := true } } →
      exec (.vrmAlert .feedSag true) s = .next (x.vrmCeilings).regrant) ∧
    (∀ x, s.sec.off = false → s.sec.resetLow = false → x = { s with power := { s.power with brownOut := true, brownCeiling := true } } →
      exec (.vrmAlert .brownOut true) s = .next (x.vrmCeilings).regrant) ∧
    (s.sec.off = false → s.sec.resetLow = false → s.power.powerFail = false → exec (.vrmAlert .powerFail true) s =
      .next (({ s with power := { s.power with powerFail := true, handOutStopped := true } }).event 2 [])) ∧
    (∀ r, s.sec.off = false → s.sec.resetLow = false → exec (.vrmAlert (.railFault r) true) s = .next (s.faultShutdown r)) ∧
    (∀ r, s.sec.off = false → s.sec.resetLow = false → exec (.vrmAlert (.overcurrent r) false) s =
      .next { s with power := { s.power with overcurrent := s.power.overcurrent.filter (· != r) } }) ∧
    (s.power.powerFail = false →
      exec (.vrmRecoveryTimer .powerFail) s =
        .next ((List.range 4).foldl State.signal { s with power := { s.power with handOutStopped := false } })) ∧
    (∀ x, s.power.feedSag = false → x = { s with power := { s.power with sagCeiling := false } } →
      exec (.vrmRecoveryTimer .feedSag) s = .next (x.vrmCeilings).regrant) ∧
    (∀ h, s.sec.resetLow = false → ∃ t, exec (.hourlyRecord h) s = .next t ∧ t.life.poweredH = sat32 (s.life.poweredH + 1) ∧
      t.life.minutes = addLists s.life.minutes (s.life.hour.bins.map fun n => n / minutePeriods) ∧ t.life.cycles = s.life.cycles)

/-- A watchdog, a lost root PLL and a PLL that does not lock again ask for a warm reset, another PLL that loses lock is
counted, recorded and locked again (R405, R435, R462). -/
def Obligations.ClockFaultEventsComplete : Prop :=
  ∀ s : State,
    (∀ c, c < 4 → s.sec.warmPending = none →
      exec (.watchdogExpiry c) s = .next { s with sec := { s.sec with warmPending := some (.watchdog c) } }) ∧
    (∀ p x, p ≠ .root → s.locked p = true →
      x = ({ s.setLock p false with power := { (s.setLock p false).power with loss := sat32 ((s.setLock p false).power.loss + 1) } }).event
        12 (leBytes 1 (pllCode p)) →
      exec (.pllLossOfLock p) s = .next { x with sec := { x.sec with relocking := x.sec.relocking ++ [p] } }) ∧
    (∀ x, s.locked .root = true →
      x = ({ s.setLock .root false with
        power := { (s.setLock .root false).power with loss := sat32 ((s.setLock .root false).power.loss + 1) } }).event 12 (leBytes 1 (pllCode .root)) →
      exec (.pllLossOfLock .root) s = .next (x.warmAsked .rootPll)) ∧
    (∀ p, s.sec.relocking.contains p = true → exec (.pllRelockTimeout p) s = .next (s.warmAsked .relock))

/-! ### Reset and boot (R462-R475, R489-R494) -/

/-- Resets and the stages of boot (R462-R473): a warm reset that is due, the reload of the journal after it, the fall and
the rise of RESET_N, the locks of the PLLs in their order, and each stage, with the first image that verifies or without one. -/
def Obligations.ResetAndBootEventsComplete : Prop :=
  ∀ s : State,
    (∀ c, s.warmReady c = true → exec (.warmReset c) s = .next (s.doWarm c)) ∧
    (s.sec.stage = 3 → s.sec.reloading = true → exec .jobTableReload s =
      .next { s with restricted := false, restrictReason := 0, sec := { s.sec with stage := 4, reloading := false }
                     power := { s.power with paddocks := s.power.paddocks.map fun e => (e.1, { e.2 with gated := false }) } }) ∧
    exec .resetNFall s = .next s.coldReset ∧
    (∀ (t : Straps) u, s.sec.resetLow = true → u = { s with
        sec := { s.sec with resetLow := false, feedId := t.feedId.toNat, sbAddr := t.sbAddr.toNat, railsOff := [], faultLow := false }
        power := { s.power with refclkOk := true } } →
      exec (.resetNRise t) s = .next (if t.testEnN then u else u.halt)) ∧
    (∀ p, s.starting p = true → exec (.pllLock p) s = .next ((s.setLock p true).nextPll).hostGoesOn) ∧
    (∀ (e : Bool) (x : State), s.starting (.fab e) = false → s.sec.relocking.contains (.fab e) = true →
      x = { s.setLock (.fab e) true with sec := { s.sec with relocking := s.sec.relocking.filter (· != .fab e) } } →
      exec (.pllLock (.fab e)) s = .next ((portsOf e).foldl (fun s p => s.retrain p false) x).hostGoesOn) ∧
    (s.starting .root = true → exec (.pllLockTimeout .root) s =
      .next { s with sec := { s.sec with faultLow := true, pllNext := 15 } }) ∧
    (∀ h, s.starting (.hbm h) = true → exec (.pllLockTimeout (.hbm h)) s = .next s.nextPll) ∧
    (∀ t b u, s.sec.stage = 1 → t = s.romStarts → b = t.sec.header.pending.getD t.sec.header.active →
      u = t.bankFailed b (t.verifyImage b 1) →
      exec .romStageEnd s = .next (if t.verifyImage b 1 = 0 then t.runStage1 b else if u.verifyImage (!b) 1 = 0 then u.runStage1 (!b)
        else (u.bankFailed (!b) (u.verifyImage (!b) 1)).halt)) ∧
    (∀ b u c, s.sec.stage = 2 → s.sec.reloading = false → b = s.sec.bank → u = s.bankFailed b (s.verifyImage b 2) →
      c = (if u.verifyImage (!b) 1 = 0 then u.verifyImage (!b) 2 else u.verifyImage (!b) 1) →
      exec .stage1End s = .next (if s.verifyImage b 2 = 0 then s.runMain else if s.sec.fallback ≠ 0 then u.halt
        else if c = 0 then (u.runStage1 (!b)).runMain else (u.bankFailed (!b) c).halt)) ∧
    (∀ b c, s.sec.stage = 2 → s.sec.reloading = true → b = s.sec.bank → c = s.verifyImage b 2 →
      exec .stage1End s = .next (if c = 0 then
          (if s.imageHash b 2 = s.sec.mainHash then { s with sec := { s.sec with stage := 3 } }
           else ({ s with sec := { s.sec with failCode := 9 } }).halt)
        else ({ s with sec := { s.sec with failCode := c } }).halt)) ∧
    (∀ t, s.sec.stage = 3 → s.sec.reloading = false → exec (.mainStageEnd t) s =
      .next ((s.memoryFound t).measureMain (s.trainedMemory t).valid).bootRecord.mainReady)

/-- The sideband acknowledges its own address; a write of 8 bytes there sets the pointer, a read brings up to 64 registers on, and
every other transfer is not acknowledged and does nothing (R493). An attestation that is being made ends with its
report in the window and its entry final (R475). -/
def Obligations.SidebandAndReportComplete : Prop :=
  ∀ s : State,
    (∀ w, s.sidebandUp = true → w.address.toNat = 0x58 + s.sec.sbAddr → w.bytes.length = 8 →
      exec (.sidebandWrite w) s = .next ({ s with sbPointer := leNat w.bytes / 4 * 4 }.send (.sidebandAck true))) ∧
    (∀ w, s.sidebandUp = false ∨ w.address.toNat ≠ 0x58 + s.sec.sbAddr ∨ w.bytes.length ≠ 8 →
      exec (.sidebandWrite w) s = .next (s.send (.sidebandAck false))) ∧
    (∀ q r, s.sidebandUp = true → q.address.toNat = 0x58 + s.sec.sbAddr → r = s.readRegs s.sbLatches s.sbPointer (min 64 q.words) →
      exec (.sidebandRead q) s = .next (({ s with sbLatches := r.2, sbPointer := s.sbPointer + 4 * min 64 q.words }).send
        (.sideband (r.1.map (BitVec.ofNat 32))))) ∧
    (∀ q, s.sidebandUp = false ∨ q.address.toNat ≠ 0x58 + s.sec.sbAddr →
      exec (.sidebandRead q) s = .next (s.send (.sidebandAck false))) ∧
    (∀ q m, s.sec.attesting = [(q, m)] → exec .attestReportComplete s =
      .next ((({ s with sec := { s.sec with report := s.reportOf m, attesting := [] } }).finish q St.done []).flushReplies))

/-! ### What holds of every step -/

/-- Every step keeps memory in its canonical form and every retired unit poisoned (R229), from every state that has them. -/
def Obligations.EveryStepKeepsSoundness : Prop :=
  ∀ s t : State, s.Sound → step s = .next t → t.Sound

/-- The state after reset is sound, and no command waits in it. -/
def Obligations.ResetIsSound : Prop := State.reset.Sound ∧ State.reset.pending = []

/-- A quarantine lasts until cold reset (R71): no step ends it but the fall of RESET_N. -/
def Obligations.QuarantineLastsUntilColdReset : Prop :=
  ∀ (s t : State) (n : Nat), step s = .next t → s.quarantinedAt n = true →
    (∀ rest, s.pending ≠ .resetNFall :: rest) → t.quarantinedAt n = true

/-- The security version in OTP never falls, whatever the command (R470, R481). -/
def Obligations.SecurityVersionNeverFalls : Prop :=
  ∀ s t : State, step s = .next t → s.otp.svn ≤ t.otp.svn

/-- Equal memories are equal data: two memories in canonical form that read the same everywhere are the same. -/
def Obligations.MemoryIsCanonical : Prop :=
  ∀ a b : SMap Byte, Memory.wf a = true → Memory.wf b = true → (∀ i, lookup 0#8 a i = lookup 0#8 b i) → a = b

/-- A cold reset keeps what OTP and flash hold, which repairs wait to be made in DRAM, and what the device has sent, and leaves
everything else as `State.reset` has it (R462, R466, R468): quarantines, jobs, contexts, memory and the journal among it. Flash is
the two copies of the boot header, the firmware banks, the device's certificates and the life of the device; where no write to flash was
made in the cycle of the reset, its contents are whole (the model's choice, log 112; log 114). After a shutdown the rails stay off and FAULT_N
low (R489). -/
def Obligations.ColdResetLeavesReset : Prop :=
  ∀ s t : State, exec .resetNFall s = .next t →
    t = { State.reset with
      otp := s.otp
      sec := { State.reset.sec with
        copy0 := s.headerLeft.1, copy1 := s.headerLeft.2, bankA := s.sec.bankA, bankB := s.sec.bankB
        certs := s.sec.certs.filter fun e => decide (e.1 < 4), railsOff := s.sec.railsOff, faultLow := !s.sec.railsOff.isEmpty }
      life := { s.life with
        ring := s.ringLeft, flashErr := false, bootRec := false, date := none, warmResets := 0, errAtLast := [0, 0, 0]
        hour := State.reset.life.hour, flashAt := none }
      memInfo := { State.reset.memInfo with soft := s.memInfo.soft }
      out := s.out, freeCtr := t.freeCtr, pending := s.pending } ∧
    ((∀ c, s.life.flashAt = some c → c.1 < s.sclk) →
      t.freeCtr = s.freeCtr ∧ t.sec.copy0 = s.sec.copy0 ∧ t.sec.copy1 = s.sec.copy1 ∧ t.life.ring = s.life.ring)

/-- What the spec gives for reset: e and the journal's next number are 0 with every slot EMPTY (R390), no lease, job or context
(R456), the fabric ID is unset (R309), the cap is 2400 W, its level is 64, no ceiling limits any paddock and the device is not capping
(R409, R410, R422), boot has not begun
(R465) and every tile is idle and not quarantined. -/
def Obligations.ResetValues : Prop :=
  State.reset.host.next = 0#32 ∧ (∀ i, (State.reset.slot i).state = 0) ∧ State.reset.lease.state = 0 ∧
  (∀ j, State.reset.job j = none) ∧ (∀ c, State.reset.ctx c = none) ∧ State.reset.fab.fid = 0xFFF ∧
  State.reset.power.capW = 2400 ∧ State.reset.power.maxPoint = 0 ∧ State.reset.power.level = 64 ∧
  (∀ p r, (State.reset.paddock p).limits r = false) ∧ (∀ r, (State.reset.throttle r).active = false) ∧ State.reset.sec.stage = 0 ∧
  (∀ n, (State.reset.tile n).phase = .idle ∧ (State.reset.tile n).quarantined = false)

/-! ### Frames: what a command leaves unchanged -/

/-- The frames, the congestion events, the training and the loss of lanes of the host port change the port's own state and
what the device sends, and nothing else: no memory, tile, job, journal or other register. -/
def Obligations.HostFramesTouchOnlyThePort : Prop :=
  ∀ (s t : State) (c : Instr),
    ((∃ w, c = .droppedFrame w) ∨ (∃ a b m, c = .arpRequest a b m) ∨ (∃ a b m, c = .neighborSolicitation a b m) ∨
      (∃ a b m d, c = .echoRequest a b m d) ∨ (∃ q n, c = .pfcFrame q n) ∨ (∃ q, c = .cnp q) ∨ (∃ i, c = .cnpRateRestore i) ∨
      (∃ l, c = .hostLaneLossOfLock l) ∨ (∃ l, c = .hostPortTrained l) ∨ c = .hostpRetrain ∨ (∃ q, c = .heldCommandExpiry q)) →
    exec c s = .next t → t = { s with host := t.host, out := t.out }

/-- The flits of the links, packets that are forwarded or sent again, and a new fabric ID change the fabric's own state and
what the device sends, and nothing else. -/
def Obligations.FlitsTouchOnlyTheFabric : Prop :=
  ∀ (s t : State) (c : Instr),
    ((∃ p f, c = .dataFlit p f) ∨ (∃ p a, c = .ackFlit p a) ∨ (∃ p m, c = .nakFlit p m) ∨ (∃ p, c = .replayLimit p) ∨
      (∃ p, c = .ackFlitTimer p) ∨ (∃ p l, c = .laneLossOfLock p l) ∨ (∃ k, c = .packetForward k) ∨ (∃ k, c = .e2eAckTimeout k) ∨
      (∃ f, c = .fidWrite f) ∨ (∃ p, c = .fabRetrain p) ∨ (∃ p b, c = .fabPortEnable p b)) →
    exec c s = .next t → t = { s with fab := t.fab, out := t.out }

/-- The counter clears of one tile change that tile alone (R110). The pulls of one tile, for reads that its operation may make,
change that tile, its own scratchpad, and the state of the STP, and nothing else: no other tile, no
byte outside the tile's scratchpad, no job, entry, skip or register (R36, R109, R238). -/
def Obligations.TileRegistersTouchOneTile : Prop :=
  ∀ (s t : State) (n : Nat),
    (∀ c : Instr, c = .tileCntClrPhase n ∨ c = .tileCntClrFtq n ∨ c = .tileCntClrAcc n ∨ c = .tileCntClrPort n →
      exec c s = .next t → t = { s with tiles := t.tiles } ∧ ∀ m, m ≠ n → t.tile m = s.tile m) ∧
    (∀ r round q, s.pullTarget n = some (r, round) → s.workOf r = some q →
      ((q.reads round).any fun a => !s.mayAccess q.w q.o a.2.1 a.2.2) = false → exec (.pullIssue n) s = .next t →
      t = { s with tiles := t.tiles, mem := t.mem, poison := t.poison, memInfo := t.memInfo, stpIn := t.stpIn,
                   stpMessages := t.stpMessages } ∧
      (∀ m, m ≠ n → t.tile m = s.tile m) ∧
      (∀ a, (∀ off, off < 0xC_0000 → a ≠ windowDA n off) → t.byte a = s.byte a))

/-- Lost telemetry, a step of a thermal ceiling, a rail at its target, a droop trip and its end, BRAKE_N and the recovery timer
of an alert change power state alone (R410-R421); when the timer lets the counters hand out again, the jobs' signals change
besides (R421, log 58). -/
def Obligations.PowerEventsTouchOnlyPower : Prop :=
  ∀ (s t : State) (c : Instr),
    ((c = .telemetryLost ∨ (∃ p, c = .thermalCeilingStep p) ∨ (∃ q, c = .vrmAtTarget q) ∨ (∃ p l, c = .droopTrip p l) ∨
      (∃ h, c = .stretchEnd h) ∨ c = .brakeNLow ∨ c = .brakeNRelease ∨ (∃ d, c = .vrmRecoveryTimer d ∧ d ≠ .powerFail)) →
      exec c s = .next t → t = { s with power := t.power }) ∧
    (s.power.powerFail = true → exec (.vrmRecoveryTimer .powerFail) s = .next t → t = s) ∧
    (s.power.powerFail = false → exec (.vrmRecoveryTimer .powerFail) s = .next t →
      t = { s with power := { s.power with handOutStopped := false }, jobs := t.jobs } ∧
      (∀ j, j < 4 → t.job j = (s.job j).map fun x => { x with signals := x.signals + 1 }) ∧
      (∀ j, 4 ≤ j → t.job j = s.job j))

/-- `MEM_WRITE` writes its bytes at its address and no other byte of memory, and `MEM_READ` changes no byte (R377), when no
command is held behind it; the reserved bytes behind the frame headers of a tile keep nothing (R88). While the tier's PLL relocks a write
waits and changes nothing (R435), and a write into bytes that a checkpoint or a mirror copy has still to read lets the copy read them
first (R445). -/
def Obligations.MemoryCommandsMoveTheirBytes : Prop :=
  ∀ (s : State) (p : Packet), s.host.held = [] →
    (Acceptable s 0x0201 p → ∃ t, exec (.memRead p) s = .next t ∧ t.mem = s.mem) ∧
    (Acceptable s 0x0202 p → s.tierWaits (le p.params 0 8) (le p.params 8 4) = true → ∃ t, exec (.memWrite p) s = .next t ∧ t.mem = s.mem) ∧
    (Acceptable s 0x0202 p → 0 < le p.params 8 4 → s.tierWaits (le p.params 0 8) (le p.params 8 4) = false →
      ∃ t, exec (.memWrite p) s = .next t ∧
      (∀ k, k < le p.params 8 4 → (∀ n off, s.regionOf (le p.params 0 8) = .tile n off → off + k < 0x11_F9C0) →
        t.byte (le p.params 0 8 + k) = (p.params[16 + k]?).getD 0#8) ∧
      (s.copyLacks p.job.toNat (le p.params 0 8) (le p.params 8 4) = false →
      (∀ k n off, s.regionOf (le p.params 0 8) = .tile n off → 0x11_F9C0 ≤ off + k →
        t.byte (le p.params 0 8 + k) = s.byte (le p.params 0 8 + k)) ∧
      (∀ a, a < le p.params 0 8 ∨ le p.params 0 8 + le p.params 8 4 ≤ a → t.byte a = s.byte a)))

/-- A job's host writes stay in its own memory (R24, R87, R216, R377): a byte of memory that `MEM_WRITE` changes lies in a
region of the job or in a memory of one of its tiles, when no command is held behind it and no copy has still to read what it writes
(R445). -/
def Obligations.MemWriteStaysInTheJob : Prop :=
  ∀ (s t : State) (p : Packet) (a : Nat), Acceptable s 0x0202 p → s.host.held = [] →
    s.copyLacks p.job.toNat (le p.params 0 8) (le p.params 8 4) = false → exec (.memWrite p) s = .next t →
    t.byte a ≠ s.byte a → ∃ j, s.job p.job.toNat = some j ∧
      (j.inRegions (le p.params 0 8) (le p.params 8 4) = true ∨ j.inTiles s (le p.params 0 8) (le p.params 8 4) = true) ∧
      le p.params 0 8 ≤ a ∧ a < le p.params 0 8 + le p.params 8 4

/-! ### Layout, placement and the choice of points -/

/-- The mesh is divided into 20 paddocks of 40 tiles, 8 columns by 5 rows; tile (x, y) lies in paddock 5·⌊x/8⌋ + ⌊y/5⌋, and paddock p lies in quarter
⌊p/5⌋ and covers rows 5·(p mod 5) to 5·(p mod 5) + 4 (R22). -/
def Obligations.PaddocksTileTheMesh : Prop :=
  (∀ x y, x < 32 → y < 25 → tileX (32 * y + x) = x ∧ tileY (32 * y + x) = y ∧ paddockOf (32 * y + x) = 5 * (x / 8) + y / 5) ∧
  (∀ n, n < 800 → paddockOf n < 20 ∧ quarterOf n = paddockOf n / 5 ∧ 8 * quarterOf n ≤ tileX n ∧
    tileX n ≤ 8 * quarterOf n + 7 ∧ 5 * (paddockOf n % 5) ≤ tileY n ∧ tileY n ≤ 5 * (paddockOf n % 5) + 4) ∧
  (∀ p, p < 20 → ((List.range 800).filter fun n => paddockOf n == p).length = 40) ∧
  (∀ (j : Job) (n : Nat), n < 800 → (n ∈ j.tiles ↔ j.paddocks.getLsbD (paddockOf n) = true))

/-- A dimension of global extent e in n parts of unit u (R181): with U = ⌈e/u⌉ units, part p takes ⌊U/n⌋ units and one more
when p < U mod n, starting where the parts before it end; its elements are those units clipped at e; so the parts cover the
extent once each, in order. -/
def Obligations.PartsCoverTheExtent : Prop :=
  ∀ e n u : Nat, 0 < n → 0 < u →
    (partRange e n u 0).1 = 0 ∧
    (∀ p, p + 1 < n → (partRange e n u (p + 1)).1 = (partRange e n u p).1 + (partRange e n u p).2) ∧
    (partRange e n u (n - 1)).1 + (partRange e n u (n - 1)).2 = e ∧
    (∀ p, p < n → (partRange e n u p).2 ≤ (ceilDiv e u / n + if p < ceilDiv e u % n then 1 else 0) * u)

/-- `hbm_place` takes the stack as the exclusive or of the 3-bit fields of the granule index, and the pseudo-channel as that of
the 6-bit fields of the index above its three low bits; it is a bijection from the 384 GiB of HBM4 to stack, pseudo-channel and
byte (R210). -/
def Obligations.HbmPlacementIsABijection : Prop :=
  (∀ a, a < 384 * 2 ^ 30 →
    hbmStack a = ((List.range 11).map fun c => a / 256 / 8 ^ c % 8).foldl (· ^^^ ·) 0 ∧
    hbmPc a = ((List.range 5).map fun c => a / 256 / 8 / 64 ^ c % 64).foldl (· ^^^ ·) 0) ∧
  (∀ a, a < 384 * 2 ^ 30 → hbmStack a < 8 ∧ hbmPc a < 64 ∧ a / 256 / 8 / 64 * 256 + a % 256 < 768 * 2 ^ 20) ∧
  (∀ a b, a < 384 * 2 ^ 30 → b < 384 * 2 ^ 30 → hbmStack a = hbmStack b → hbmPc a = hbmPc b →
    a / 256 / 8 / 64 * 256 + a % 256 = b / 256 / 8 / 64 * 256 + b % 256 → a = b) ∧
  (∀ h c b, h < 8 → c < 64 → b < 768 * 2 ^ 20 →
    ∃ a, a < 384 * 2 ^ 30 ∧ hbmStack a = h ∧ hbmPc a = c ∧ a / 256 / 8 / 64 * 256 + a % 256 = b)

/-- A held paddock has five ceilings besides its request; the granted point is the slowest of the request and the ceilings that
exist, and a ceiling limits the paddock when it is slower than the request and equals the granted point; several may (R408). -/
def Obligations.GrantIsTheSlowestCeiling : Prop :=
  (∀ x : Paddock,
    x.ceilings = [(1, x.cap), (2, x.thermal), (3, x.vrm), (4, x.brake), (5, x.host)] ∧
    x.requested ≤ x.grant ∧ (∀ r v, (r, some v) ∈ x.ceilings → v ≤ x.grant) ∧
    (x.grant = x.requested ∨ ∃ r, (r, some x.grant) ∈ x.ceilings) ∧
    (∀ r, x.limits r = true ↔ ∃ v, (r, some v) ∈ x.ceilings ∧ x.requested < v ∧ v = x.granted)) ∧
  (∃ x : Paddock, x.limits 1 = true ∧ x.limits 2 = true) ∧
  (∀ (s : State) (p : Nat), p < 20 → s.held p = true → (s.regrant.paddock p).granted = (s.paddock p).grant)

/-- A new job has the preferred points IDLE P4, FORWARD P0, BACKWARD P0, OPTIMIZER P1, COLLECTIVE_WAIT P3 and OTHER P0, one for
each phase code, and `PHASE_POINTS_SET` sets the six (R406). -/
def Obligations.PreferredPointsOfAJob : Prop :=
  (∀ (s : State) (jn seq : Nat) (p : List Byte), jn < 4 → ∃ j, (s.createJob jn seq p).job jn = some j ∧ j.points = [4, 0, 0, 1, 3, 0]) ∧
  (∀ (s : State) (jn : Nat) (p : List Byte) (j : Job), s.job jn = some j →
    (s.setPoints jn p).job jn = some { j with points := [le p 0 1, le p 1 1, le p 2 1, le p 3 1, le p 4 1, le p 5 1] })

/-- Each tile carries its own kind in its header; a tensor may hold only the tile kinds that its target kind allows: NM, DENSE
and ZERO for 1, BLOCK16, DENSE and ZERO for 2, BITMAP, COO, DENSE and ZERO for 3, and MASK for 6; the kind codes are 0 DENSE,
1 NM, 2 BLOCK16, 3 BITMAP, 4 COO, 5 ZERO and 6 MASK (R118). -/
def Obligations.TileKindsOfATarget : Prop :=
  (∀ b : List Byte, (TileHdr.parse b).kind = le b 1 1) ∧
  (kDENSE = 0 ∧ kNM = 1 ∧ kBLOCK16 = 2 ∧ kBITMAP = 3 ∧ kCOO = 4 ∧ kZERO = 5 ∧ kMASK = 6) ∧
  (∀ target kind : Nat, kindAllowed target kind = true ↔
    (target = 1 ∧ kind ∈ [kNM, kDENSE, kZERO]) ∨ (target = 2 ∧ kind ∈ [kBLOCK16, kDENSE, kZERO]) ∨
      (target = 3 ∧ kind ∈ [kBITMAP, kCOO, kDENSE, kZERO]) ∨ (target = 6 ∧ kind ∈ [kMASK]))

/-! ### Arithmetic and packed elements -/

/-- In INT8 mode the array forms exact products and sums them in a 64-bit two's-complement integer, which the pair of the
accumulator slot holds: the low word in the value position, the high word in the error-term position. Every product has
magnitude at most 2¹⁴, so a contraction shorter than 2⁴⁹ terms cannot overflow, and the result does not depend on the order of
accumulation (R52). -/
def Obligations.Int8SumsAreExact : Prop :=
  (∀ a b : Nat, (twosComp 8 a * twosComp 8 b).natAbs ≤ 2 ^ 14) ∧
  (∀ n : Int, (Pair.ofInt n).s = BitVec.ofInt 32 n ∧ (Pair.ofInt n).c = BitVec.ofInt 32 (n / 2 ^ 32)) ∧
  (∀ (fa fb : Fmt) (ps : List (Nat × Code × Code)), ps.length < 2 ^ 49 →
    (runPair .int8 fa fb ps Pair.zero).int = (ps.map fun q => twosComp 8 q.2.1.code * twosComp 8 q.2.2.code).sum) ∧
  (∀ (fa fb : Fmt) (ps qs : List (Nat × Code × Code)) (p : Pair), ps.Perm qs →
    runPair .int8 fa fb ps p = runPair .int8 fa fb qs p)

/-- Element codes that are packed in ascending order into one little-endian number are read back at their bit address, whatever
their width (R41, R114). -/
def Obligations.PackedElementsReadBack : Prop :=
  ∀ (w n base i c : Nat) (cs : List Nat) (rd : Nat → Byte), w * cs.length ≤ 8 * n → cs[i]? = some c →
    (∀ k, k < n → rd (base + k) = ((packBytes w n cs)[k]?).getD 0#8) →
    bitsAt rd (8 * base + i * w) w = c % 2 ^ w
end

