-- ==== Sys2Proof/Laws/Maps.lean ====
section
/-! SUPPORT. Laws of the sparse tables: what a read after a write gives, and that writing keeps the canonical form. -/

namespace Sys2Proof.Machine

variable {α : Type}

/-! ### Reading after writing -/

@[simp] theorem lookup_nil (d : α) (i : Nat) : lookup d [] i = d := rfl

theorem lookup_erase (d : α) (m : SMap α) (i j : Nat) : lookup d (erase m i) j = if j = i then d else lookup d m j := by
  induction m with
  | nil => simp [erase, lookup]
  | cons e m ih =>
    obtain ⟨k, v⟩ := e
    by_cases h : k = i
    · subst h
      by_cases g : j = k
      · subst g; simpa [erase, lookup] using ih
      · simp [erase, lookup, ih, g, Ne.symm g]
    · by_cases g : k = j
      · subst g; simp [erase, lookup, h]
      · simp [erase, lookup, h, g, ih]

theorem lookup_place (d : α) (m : SMap α) (i : Nat) (v : α) (j : Nat) :
    lookup d (place m i v) j = if j = i then v else lookup d m j := by
  induction m with
  | nil =>
    by_cases g : j = i
    · simp [place, lookup, g]
    · simp [place, lookup, g, Ne.symm g]
  | cons e m ih =>
    obtain ⟨k, w⟩ := e
    by_cases h : i < k
    · by_cases g : j = i
      · simp [place, lookup, h, g]
      · simp [place, lookup, h, g, Ne.symm g]
    · by_cases h' : i = k
      · subst h'
        by_cases g : j = i
        · simp [place, lookup, g]
        · simp [place, lookup, g, Ne.symm g]
      · by_cases g : k = j
        · subst g; simp [place, lookup, h, h', Ne.symm h']
        · simp [place, lookup, h, h', g, ih]

/-- A read after a write: the value written at its key, and what stood there before at every other key. -/
theorem lookup_store [DecidableEq α] (d : α) (m : SMap α) (i : Nat) (v : α) (j : Nat) :
    lookup d (store d m i v) j = if j = i then v else lookup d m j := by
  unfold store
  split
  · next h => rw [lookup_erase, h]
  · exact lookup_place d m i v j

@[simp] theorem lookup_store_same [DecidableEq α] (d : α) (m : SMap α) (i : Nat) (v : α) :
    lookup d (store d m i v) i = v := by simp [lookup_store]

theorem lookup_store_other [DecidableEq α] (d : α) (m : SMap α) {i j : Nat} (v : α) (h : j ≠ i) :
    lookup d (store d m i v) j = lookup d m j := by simp [lookup_store, h]

/-- A key outside a run reads as before. -/
theorem lookup_storeRun_outside [DecidableEq α] (d : α) (vs : List α) (m : SMap α) (i j : Nat)
    (h : j < i ∨ i + vs.length ≤ j) : lookup d (storeRun d m i vs) j = lookup d m j := by
  induction vs generalizing m i with
  | nil => rfl
  | cons v vs ih =>
    simp only [List.length_cons] at h
    rw [storeRun, ih _ _ (by omega), lookup_store_other _ _ _ (by omega)]

/-- A key within a run reads as the run's value there. -/
theorem lookup_storeRun_inside [DecidableEq α] (d : α) (vs : List α) (m : SMap α) (i k : Nat) (h : k < vs.length) :
    lookup d (storeRun d m i vs) (i + k) = vs[k] := by
  induction vs generalizing m i k with
  | nil => simp at h
  | cons v vs ih =>
    cases k with
    | zero =>
      rw [storeRun, lookup_storeRun_outside _ _ _ _ _ (by omega)]
      simp
    | succ k =>
      simp only [List.length_cons] at h
      have e : i + (k + 1) = i + 1 + k := by omega
      rw [storeRun, e, ih _ _ _ (by omega)]
      simp

/-- Keys that a filter on the key keeps read as before; the others read as the default. -/
theorem lookup_filter (d : α) (m : SMap α) (p : Nat → Bool) (j : Nat) :
    lookup d (m.filter fun e => p e.1) j = if p j then lookup d m j else d := by
  induction m with
  | nil => simp [lookup]
  | cons e m ih =>
    obtain ⟨k, v⟩ := e
    by_cases h : p k = true
    · rw [List.filter_cons_of_pos (by simpa using h)]
      by_cases g : k = j
      · subst g; simp [lookup, h]
      · simp only [lookup, g, if_false]
        exact ih
    · rw [List.filter_cons_of_neg (by simpa using h), ih]
      by_cases g : k = j
      · subst g; simp [h]
      · simp [lookup, g]

/-! ### The canonical form -/

variable [DecidableEq α] {d : α}

theorem canonFrom_cons {lo : Option Nat} {k : Nat} {v : α} {m : SMap α} :
    canonFrom d lo ((k, v) :: m) = true ↔ (∀ l, lo = some l → l < k) ∧ v ≠ d ∧ canonFrom d (some k) m = true := by
  cases lo <;> simp [canonFrom, and_assoc]

theorem canonFrom_weaken {m : SMap α} {lo hi : Option Nat} (h : canonFrom d hi m = true)
    (g : ∀ l, lo = some l → ∃ k, hi = some k ∧ l ≤ k) : canonFrom d lo m = true := by
  cases m with
  | nil => rfl
  | cons e m =>
    obtain ⟨k, v⟩ := e
    rw [canonFrom_cons] at h ⊢
    refine ⟨fun l e => ?_, h.2⟩
    obtain ⟨x, hx, hl⟩ := g l e
    exact lt_of_le_of_lt hl (h.1 x hx)

theorem canonFrom_erase {m : SMap α} {lo : Option Nat} (i : Nat) (h : canonFrom d lo m = true) :
    canonFrom d lo (erase m i) = true := by
  induction m generalizing lo with
  | nil => rfl
  | cons e m ih =>
    obtain ⟨k, v⟩ := e
    rw [canonFrom_cons] at h
    by_cases g : k = i
    · simp only [erase, g, if_true]
      exact canonFrom_weaken (ih h.2.2) fun l e => ⟨k, rfl, le_of_lt (h.1 l e)⟩
    · simp only [erase, g, if_false]
      rw [canonFrom_cons]
      exact ⟨h.1, h.2.1, ih h.2.2⟩

theorem canonFrom_place {m : SMap α} {lo : Option Nat} {i : Nat} {v : α} (hv : v ≠ d) (hi : ∀ l, lo = some l → l < i)
    (h : canonFrom d lo m = true) : canonFrom d lo (place m i v) = true := by
  induction m generalizing lo with
  | nil => exact canonFrom_cons.2 ⟨hi, hv, rfl⟩
  | cons e m ih =>
    obtain ⟨k, w⟩ := e
    have h' := canonFrom_cons.1 h
    by_cases a : i < k
    · simp only [place, a, if_true]
      exact canonFrom_cons.2 ⟨hi, hv, canonFrom_cons.2 ⟨fun l e => by cases e; exact a, h'.2⟩⟩
    · by_cases b : i = k
      · simp only [place, b, if_true, lt_irrefl, if_false]
        exact canonFrom_cons.2 ⟨h'.1, hv, h'.2.2⟩
      · simp only [place, a, b, if_false]
        exact canonFrom_cons.2 ⟨h'.1, h'.2.1, ih (fun l e => by cases e; omega) h'.2.2⟩

theorem canonFrom_filter {m : SMap α} {lo : Option Nat} (p : Nat × α → Bool) (h : canonFrom d lo m = true) :
    canonFrom d lo (m.filter p) = true := by
  induction m generalizing lo with
  | nil => rfl
  | cons e m ih =>
    obtain ⟨k, v⟩ := e
    have h' := canonFrom_cons.1 h
    by_cases g : p (k, v) = true
    · rw [List.filter_cons_of_pos g]
      exact canonFrom_cons.2 ⟨h'.1, h'.2.1, ih h'.2.2⟩
    · rw [List.filter_cons_of_neg g]
      exact canonFrom_weaken (ih h'.2.2) fun l e => ⟨k, rfl, le_of_lt (h'.1 l e)⟩

/-- Writing one value keeps the canonical form. -/
theorem canon_store {m : SMap α} (i : Nat) (v : α) (h : canon d m = true) : canon d (store d m i v) = true := by
  unfold store
  split
  · exact canonFrom_erase i h
  · next g => exact canonFrom_place g (fun l e => by cases e) h

/-- Writing a run of values keeps the canonical form. -/
theorem canon_storeRun {m : SMap α} (vs : List α) (i : Nat) (h : canon d m = true) : canon d (storeRun d m i vs) = true := by
  induction vs generalizing m i with
  | nil => exact h
  | cons v vs ih => exact ih (i + 1) (canon_store i v h)

/-- Dropping entries keeps the canonical form. -/
theorem canon_filter {m : SMap α} (p : Nat × α → Bool) (h : canon d m = true) : canon d (m.filter p) = true :=
  canonFrom_filter p h

theorem canon_dropRange {m : SMap α} (lo len : Nat) (h : canon d m = true) : canon d (dropRange lo len m) = true :=
  canonFrom_filter _ h

end Sys2Proof.Machine
end

