-- ==== Sys2Proof/Laws/Keeps.lean ====
section
/-! SUPPORT. The relation `State.Keeps`: how it is built up, and that the operations on the parts of the state and on
memory respect it. -/

namespace Sys2Proof.Machine

/-! ### The relation -/

theorem State.Keeps.refl (s : State) : s.Keeps s := ⟨id, Nat.le_refl _, rfl, fun _ h => h⟩

/-- A change of other parts of the state. -/
theorem State.Keeps.same {r s t : State} (h : r.Keeps s) (a : t.mem = s.mem) (b : t.poison = s.poison)
    (c : t.retired = s.retired) (d : t.tiles = s.tiles) (e : t.otp.svn = s.otp.svn) (f : t.pending = s.pending) :
    r.Keeps t := by
  refine ⟨fun x => ?_, by rw [e]; exact h.svn, by rw [f]; exact h.pending, fun n x => ?_⟩
  · have y := h.sound x
    exact ⟨by rw [a]; exact y.mem, fun u => by rw [b, c]; exact y.retired u⟩
  · have y := h.quarantine n x
    unfold State.quarantinedAt State.tile at *
    rw [d]
    exact y

theorem State.Keeps.of_fst {α : Type} {r s : State} {p : State × α} {a : α} (e : p = (s, a)) (h : r.Keeps p.1) :
    r.Keeps s := by
  subst e
  exact h

theorem State.Keeps.foldl {α : Type} {r : State} {f : State → α → State} {s : State} {l : List α} (h : r.Keeps s)
    (g : ∀ x a, r.Keeps x → r.Keeps (f x a)) : r.Keeps (l.foldl f s) := by
  induction l generalizing s with
  | nil => exact h
  | cons a l ih => exact ih (g s a h)

theorem State.Keeps.foldl_fst {α β : Type} {r : State} {f : State × β → α → State × β} {p : State × β} {l : List α}
    (h : r.Keeps p.1) (g : ∀ (x : State × β) a, r.Keeps x.1 → r.Keeps (f x a).1) : r.Keeps (l.foldl f p).1 := by
  induction l generalizing p with
  | nil => exact h
  | cons a l ih => exact ih (g p a h)

theorem State.Keeps.ite {r a b : State} {c : Prop} [Decidable c] (ha : r.Keeps a) (hb : r.Keeps b) :
    r.Keeps (if c then a else b) := by
  split
  · exact ha
  · exact hb

/-! ### Tiles -/

theorem State.tile_setTile (s : State) (n m : Nat) (t : Tile) : (s.setTile n t).tile m = if m = n then t else s.tile m :=
  lookup_store _ _ _ _ _

theorem State.setTile_keeps {r s : State} {n : Nat} {t : Tile} (h : r.Keeps s)
    (g : (s.tile n).quarantined = true → t.quarantined = true) : r.Keeps (s.setTile n t) := by
  refine ⟨fun x => ⟨(h.sound x).mem, (h.sound x).retired⟩, h.svn, h.pending, fun m x => ?_⟩
  have y := h.quarantine m x
  unfold State.quarantinedAt at *
  rw [State.tile_setTile]
  split
  · next e => subst e; exact g y
  · exact y

theorem State.modTile_keeps {r s : State} {n : Nat} {f : Tile → Tile} (h : r.Keeps s)
    (g : ∀ t, t.quarantined = true → (f t).quarantined = true) : r.Keeps (s.modTile n f) :=
  State.setTile_keeps h (g _)

/-! ### Poison and memory (R224, R225, R229) -/

theorem State.mark_keeps {r s : State} {u : Nat} (h : r.Keeps s) : r.Keeps (s.mark u) := by
  refine ⟨fun x => ⟨(h.sound x).mem, fun v g => ?_⟩, h.svn, h.pending, h.quarantine⟩
  show lookup false (store false s.poison u true) v = true
  rw [lookup_store]
  split
  · rfl
  · exact (h.sound x).retired v g

theorem State.unmark_keeps {r s : State} {u : Nat} (e : unitOf u = u) (h : r.Keeps s) : r.Keeps (s.unmark u) := by
  unfold State.unmark
  split
  · exact h
  · next g =>
    refine ⟨fun x => ⟨(h.sound x).mem, fun v i => ?_⟩, h.svn, h.pending, h.quarantine⟩
    show lookup false (store false s.poison u false) v = true
    rw [lookup_store]
    split
    · next c =>
      subst c
      unfold State.retiredAt at g
      rw [e] at g
      exact absurd i g
    · exact (h.sound x).retired v i

theorem unitOf_of_mem_wholeUnits {da len u : Nat} (h : u ∈ wholeUnits da len) : unitOf u = u := by
  unfold wholeUnits at h
  rw [List.mem_filterMap] at h
  obtain ⟨i, -, g⟩ := h
  simp only [] at g
  split at g
  · next c => cases g; exact c.1
  · cases g

theorem State.unmarks_keeps {r s : State} {l : List Nat} (g : ∀ u ∈ l, unitOf u = u) (h : r.Keeps s) :
    r.Keeps (l.foldl State.unmark s) := by
  induction l generalizing s with
  | nil => exact h
  | cons u l ih =>
    exact ih (fun v m => g v (List.mem_cons_of_mem _ m)) (State.unmark_keeps (g u List.mem_cons_self) h)

theorem State.write_keeps {r s : State} {da : Nat} {bs : List Byte} (h : r.Keeps s) : r.Keeps (s.write da bs) := by
  have a : r.Keeps { s with mem := storeRun 0#8 s.mem da bs } :=
    ⟨fun x => ⟨canon_storeRun bs da (h.sound x).mem, (h.sound x).retired⟩, h.svn, h.pending, h.quarantine⟩
  exact (State.unmarks_keeps (fun u => unitOf_of_mem_wholeUnits) a).same rfl rfl rfl rfl rfl rfl

theorem State.writePoison_keeps {r s : State} {da len : Nat} (h : r.Keeps s) : r.Keeps (s.writePoison da len) :=
  (State.write_keeps h).foldl fun _ _ => State.mark_keeps

theorem State.zero_keeps {r s : State} {da len : Nat} (h : r.Keeps s) : r.Keeps (s.zero da len) := by
  refine ⟨fun x => ⟨canon_dropRange da len (h.sound x).mem, fun u g => ?_⟩, h.svn, h.pending, h.quarantine⟩
  have g' : lookup false s.retired u = true := g
  refine (lookup_filter false s.poison
    (fun k => !(decide (da ≤ k) && decide (k < da + len)) || lookup false s.retired k) u).trans ?_
  simp [g', (h.sound x).retired u g']

/-! ### OTP counts -/

theorem State.raiseOtp_keeps {r s : State} {max : Nat} {get : Otp → Nat} {set : Otp → Nat → Otp} (h : r.Keeps s)
    (g : ∀ o v, (set o v).svn = o.svn) : r.Keeps (s.raiseOtp max get set) :=
  h.same rfl rfl rfl rfl (g _ _) rfl

end Sys2Proof.Machine
end

