-- ==== Sys2Proof/Laws/KeepsCore.lean ====
section
/-! SUPPORT. What the relation `State.Keeps` says of the elementary operations: each function respects it. -/

set_option maxRecDepth 20000

namespace Sys2Proof.Machine

theorem State.setSkip_keeps {r : State} {s0 : State} (a1 : _) (a2 : _) (h0 : r.Keeps s0) : r.Keeps (State.setSkip s0 a1 a2) := by
  unfold State.setSkip
  exact h0.same rfl rfl rfl rfl rfl rfl

theorem State.modSkip_keeps {r : State} {s0 : State} (a1 : _) (a2 : _) (h0 : r.Keeps s0) : r.Keeps (State.modSkip s0 a1 a2) := by
  unfold State.modSkip
  apply State.setSkip_keeps
  exact h0

theorem State.setJob_keeps {r : State} {s0 : State} (a1 : _) (a2 : _) (h0 : r.Keeps s0) : r.Keeps (State.setJob s0 a1 a2) := by
  unfold State.setJob
  exact h0.same rfl rfl rfl rfl rfl rfl

theorem State.modJob_keeps {r : State} {s0 : State} (a1 : _) (a2 : _) (h0 : r.Keeps s0) : r.Keeps (State.modJob s0 a1 a2) := by
  unfold State.modJob
  apply State.setJob_keeps
  exact h0

theorem State.setCtx_keeps {r : State} {s0 : State} (a1 : _) (a2 : _) (h0 : r.Keeps s0) : r.Keeps (State.setCtx s0 a1 a2) := by
  unfold State.setCtx
  exact h0.same rfl rfl rfl rfl rfl rfl

theorem State.modCtx_keeps {r : State} {s0 : State} (a1 : _) (a2 : _) (h0 : r.Keeps s0) : r.Keeps (State.modCtx s0 a1 a2) := by
  unfold State.modCtx
  apply State.setCtx_keeps
  exact h0

theorem State.setQp_keeps {r : State} {s0 : State} (a1 : _) (a2 : _) (h0 : r.Keeps s0) : r.Keeps (State.setQp s0 a1 a2) := by
  unfold State.setQp
  exact h0.same rfl rfl rfl rfl rfl rfl

theorem State.modQp_keeps {r : State} {s0 : State} (a1 : _) (a2 : _) (h0 : r.Keeps s0) : r.Keeps (State.modQp s0 a1 a2) := by
  unfold State.modQp
  apply State.setQp_keeps
  exact h0

theorem State.setXfer_keeps {r : State} {s0 : State} (a1 : _) (a2 : _) (h0 : r.Keeps s0) : r.Keeps (State.setXfer s0 a1 a2) := by
  unfold State.setXfer
  exact h0.same rfl rfl rfl rfl rfl rfl

theorem State.modXfer_keeps {r : State} {s0 : State} (a1 : _) (a2 : _) (h0 : r.Keeps s0) : r.Keeps (State.modXfer s0 a1 a2) := by
  unfold State.modXfer
  apply State.setXfer_keeps
  exact h0

theorem State.setPort_keeps {r : State} {s0 : State} (a1 : _) (a2 : _) (h0 : r.Keeps s0) : r.Keeps (State.setPort s0 a1 a2) := by
  unfold State.setPort
  exact h0.same rfl rfl rfl rfl rfl rfl

theorem State.modPort_keeps {r : State} {s0 : State} (a1 : _) (a2 : _) (h0 : r.Keeps s0) : r.Keeps (State.modPort s0 a1 a2) := by
  unfold State.modPort
  apply State.setPort_keeps
  exact h0

theorem State.setPaddock_keeps {r : State} {s0 : State} (a1 : _) (a2 : _) (h0 : r.Keeps s0) : r.Keeps (State.setPaddock s0 a1 a2) := by
  unfold State.setPaddock
  exact h0.same rfl rfl rfl rfl rfl rfl

theorem State.modPaddock_keeps {r : State} {s0 : State} (a1 : _) (a2 : _) (h0 : r.Keeps s0) : r.Keeps (State.modPaddock s0 a1 a2) := by
  unfold State.modPaddock
  apply State.setPaddock_keeps
  exact h0

theorem State.send_keeps {r : State} {s0 : State} (a1 : _) (h0 : r.Keeps s0) : r.Keeps (State.send s0 a1) := by
  unfold State.send
  exact h0.same rfl rfl rfl rfl rfl rfl

theorem State.sends_keeps {r : State} {s0 : State} (a1 : _) (h0 : r.Keeps s0) : r.Keeps (State.sends s0 a1) := by
  unfold State.sends
  exact h0.same rfl rfl rfl rfl rfl rfl

theorem State.freshen_keeps {r : State} {s0 : State} (h0 : r.Keeps s0) : r.Keeps (State.freshen s0) := by
  unfold State.freshen
  exact h0.same rfl rfl rfl rfl rfl rfl

theorem State.zeroTile_keeps {r : State} {s0 : State} (a1 : _) (h0 : r.Keeps s0) : r.Keeps (State.zeroTile s0 a1) := by
  unfold State.zeroTile
  apply State.zero_keeps
  exact h0

theorem State.modWork_keeps {r : State} {s0 : State} (a1 : _) (a2 : _) (h0 : r.Keeps s0) : r.Keeps (State.modWork s0 a1 a2) := by
  unfold State.modWork
  exact h0.same rfl rfl rfl rfl rfl rfl

theorem State.modOp_keeps {r : State} {s0 : State} (a1 : _) (a2 : _) (h0 : r.Keeps s0) : r.Keeps (State.modOp s0 a1 a2) := by
  unfold State.modOp
  apply State.modWork_keeps
  exact h0

theorem State.modColl_keeps {r : State} {s0 : State} (a1 : _) (a2 : _) (h0 : r.Keeps s0) : r.Keeps (State.modColl s0 a1 a2) := by
  unfold State.modColl
  apply State.modWork_keeps
  exact h0

theorem State.setSlot_keeps {r : State} {s0 : State} (a1 : _) (a2 : _) (h0 : r.Keeps s0) : r.Keeps (State.setSlot s0 a1 a2) := by
  unfold State.setSlot
  exact h0.same rfl rfl rfl rfl rfl rfl

theorem State.modEntry_keeps {r : State} {s0 : State} (a1 : _) (a2 : _) (h0 : r.Keeps s0) : r.Keeps (State.modEntry s0 a1 a2) := by
  unfold State.modEntry
  split
  · apply State.setSlot_keeps
    exact h0
  · exact h0

theorem State.poolMark_keeps {r : State} {s0 : State} (h0 : r.Keeps s0) : r.Keeps (State.poolMark s0) := by
  unfold State.poolMark
  exact h0.same rfl rfl rfl rfl rfl rfl

theorem State.countFlits_keeps {r : State} {s0 : State} (a1 : _) (a2 : _) (h0 : r.Keeps s0) : r.Keeps (State.countFlits s0 a1 a2) := by
  unfold State.countFlits
  exact h0.same rfl rfl rfl rfl rfl rfl

theorem State.countActivity_keeps {r : State} {s0 : State} (a1 : _) (a2 : _) (a3 : _) (a4 : _) (h0 : r.Keeps s0) : r.Keeps (State.countActivity s0 a1 a2 a3 a4) := by
  unfold State.countActivity
  extract_lets y0 y1
  exact h0.same rfl rfl rfl rfl rfl rfl

theorem State.countMoved_keeps {r : State} {s0 : State} (a1 : _) (a2 : _) (a3 : _) (h0 : r.Keeps s0) : r.Keeps (State.countMoved s0 a1 a2 a3) := by
  unfold State.countMoved
  split
  · extract_lets y3 y4 y5
    have h6 : r.Keeps y3 := by
      unfold y3
      apply State.countFlits_keeps
      exact h0
    try clear_value y3
    split
    · exact h6.same rfl rfl rfl rfl rfl rfl
    · exact h6
  · exact h0

theorem State.forgetCtx_keeps {r : State} {s0 : State} (a1 : _) (h0 : r.Keeps s0) : r.Keeps (State.forgetCtx s0 a1) := by
  unfold State.forgetCtx
  exact h0.same rfl rfl rfl rfl rfl rfl

theorem State.forgetJob_keeps {r : State} {s0 : State} (a1 : _) (h0 : r.Keeps s0) : r.Keeps (State.forgetJob s0 a1) := by
  unfold State.forgetJob
  exact h0.same rfl rfl rfl rfl rfl rfl

theorem State.countLink_keeps {r : State} {s0 : State} (a1 : _) (a2 : _) (a3 : _) (h0 : r.Keeps s0) : r.Keeps (State.countLink s0 a1 a2 a3) := by
  unfold State.countLink
  extract_lets y0 y1 y2
  have h3 : r.Keeps y0 := by
    unfold y0
    apply State.countFlits_keeps
    exact h0
  try clear_value y0
  exact h3.same rfl rfl rfl rfl rfl rfl

theorem State.setBit_keeps {r : State} {s0 : State} (a1 : _) (a2 : _) (h0 : r.Keeps s0) : r.Keeps (State.setBit s0 a1 a2) := by
  unfold State.setBit
  apply State.modEntry_keeps
  exact h0

theorem State.setWatermark_keeps {r : State} {s0 : State} (a1 : _) (a2 : _) (h0 : r.Keeps s0) : r.Keeps (State.setWatermark s0 a1 a2) := by
  unfold State.setWatermark
  apply State.modEntry_keeps
  exact h0

theorem State.startEntry_keeps {r : State} {s0 : State} (a1 : _) (h0 : r.Keeps s0) : r.Keeps (State.startEntry s0 a1) := by
  unfold State.startEntry
  extract_lets y0
  have h1 : r.Keeps y0 := by
    unfold y0
    apply State.modEntry_keeps
    exact h0
  try clear_value y0
  apply State.modWork_keeps
  exact h1

theorem State.holdReply_keeps {r : State} {s0 : State} (a1 : _) (a2 : _) (h0 : r.Keeps s0) : r.Keeps (State.holdReply s0 a1 a2) := by
  unfold State.holdReply
  exact h0.same rfl rfl rfl rfl rfl rfl

theorem State.stpHop_keeps {r : State} {s0 : State} (a1 : _) (a2 : _) (h0 : r.Keeps s0) : r.Keeps (State.stpHop s0 a1 a2) := by
  unfold State.stpHop
  extract_lets y0
  split
  · exact h0
  · exact h0.same rfl rfl rfl rfl rfl rfl

theorem State.stpSend_keeps {r : State} {s0 : State} (a1 : _) (h0 : r.Keeps s0) : r.Keeps (State.stpSend s0 a1) := by
  unfold State.stpSend
  extract_lets y0
  have h1 : r.Keeps y0 := by
    unfold y0
    apply State.Keeps.foldl
    · exact h0
    · intro s2 a3 h4
      try beta_reduce
      apply State.Keeps.foldl
      · exact h4
      · intro s5 a6 h7
        try beta_reduce
        apply State.stpHop_keeps
        exact h7
  try clear_value y0
  exact h1.same rfl rfl rfl rfl rfl rfl

theorem State.carryMarked_keeps {r : State} {s0 : State} (a1 : _) (a2 : _) (a3 : _) (a4 : _) (a5 : _) (h0 : r.Keeps s0) : r.Keeps (State.carryMarked s0 a1 a2 a3 a4 a5) := by
  unfold State.carryMarked
  split
  · apply State.stpSend_keeps
    exact h0
  · exact h0

theorem State.carry_keeps {r : State} {s0 : State} (a1 : _) (a2 : _) (a3 : _) (a4 : _) (h0 : r.Keeps s0) : r.Keeps (State.carry s0 a1 a2 a3 a4) := by
  unfold State.carry
  apply State.carryMarked_keeps
  exact h0

theorem State.stpFlag_keeps {r : State} {s0 : State} (a1 : _) (a2 : _) (h0 : r.Keeps s0) : r.Keeps (State.stpFlag s0 a1 a2) := by
  unfold State.stpFlag
  apply State.carry_keeps
  exact h0

theorem State.writeRecord_keeps {r : State} {s0 : State} (a1 : _) (a2 : _) (a3 : _) (h0 : r.Keeps s0) : r.Keeps (State.writeRecord s0 a1 a2 a3) := by
  unfold State.writeRecord
  split
  · exact h0
  · split
    · exact h0
    · extract_lets y7 y8 y9 y10
      have h11 : r.Keeps y10 := by
        unfold y10
        apply State.write_keeps
        apply State.carry_keeps
        exact h0
      try clear_value y10
      apply State.modJob_keeps
      exact h11

theorem State.endSpan_keeps {r : State} {s0 : State} (a1 : _) (a2 : _) (a3 : _) (h0 : r.Keeps s0) : r.Keeps (State.endSpan s0 a1 a2 a3) := by
  unfold State.endSpan
  split
  · exact h0
  · apply State.modCtx_keeps
    apply State.writeRecord_keeps
    exact h0

theorem State.settle_keeps {r : State} {s0 : State} (a1 : _) (h0 : r.Keeps s0) : r.Keeps (State.settle s0 a1) := by
  unfold State.settle
  split
  · exact h0
  · split
    · exact h0
    · apply State.endSpan_keeps
      exact h0

theorem State.signal_keeps {r : State} {s0 : State} (a1 : _) (h0 : r.Keeps s0) : r.Keeps (State.signal s0 a1) := by
  unfold State.signal
  apply State.modJob_keeps
  exact h0

theorem State.signalOf_keeps {r : State} {s0 : State} (a1 : _) (h0 : r.Keeps s0) : r.Keeps (State.signalOf s0 a1) := by
  unfold State.signalOf
  split
  · apply State.signal_keeps
    exact h0
  · exact h0

theorem State.endedBad_keeps {r : State} {s0 : State} (a1 : _) (a2 : _) (h0 : r.Keeps s0) : r.Keeps (State.endedBad s0 a1 a2) := by
  unfold State.endedBad
  apply State.modJob_keeps
  exact h0

theorem State.finish_keeps {r : State} {s0 : State} (a1 : _) (a2 : _) (a3 : _) (h0 : r.Keeps s0) : r.Keeps (State.finish s0 a1 a2 a3) := by
  unfold State.finish
  split
  · exact h0
  · split
    · exact h0
    · extract_lets y7 y8 y9 y10 y11
      have h12 : r.Keeps y8 := by
        unfold y8
        apply State.setSlot_keeps
        exact h0
      try clear_value y8
      have h13 : r.Keeps y9 := by
        unfold y9
        split
        · split
          · apply State.holdReply_keeps
            exact h12
          · exact h12
        · exact h12
      try clear_value y9
      have h21 : r.Keeps y10 := by
        unfold y10
        exact h13.same rfl rfl rfl rfl rfl rfl
      try clear_value y10
      split
      · exact h13
      · extract_lets y27 y28
        have h29 : r.Keeps y27 := by
          unfold y27
          split
          · apply State.modJob_keeps
            exact h21
          · exact h21
        try clear_value y27
        have h32 : r.Keeps y28 := by
          unfold y28
          split
          · apply State.endedBad_keeps
            exact h29
          · exact h29
        try clear_value y28
        split
        · exact h32
        · extract_lets y40
          have h41 : r.Keeps y40 := by
            unfold y40
            apply State.modCtx_keeps
            exact h32
          try clear_value y40
          apply State.settle_keeps
          apply State.signal_keeps
          exact h41

theorem State.finishAt_keeps {r : State} {s0 : State} (a1 : _) (a2 : _) (a3 : _) (a4 : _) (h0 : r.Keeps s0) : r.Keeps (State.finishAt s0 a1 a2 a3 a4) := by
  unfold State.finishAt
  apply State.finish_keeps
  apply State.setWatermark_keeps
  exact h0

theorem State.hayState_keeps {r : State} {s0 : State} (a1 : _) (h0 : r.Keeps s0) : r.Keeps (State.hayState s0 a1) := by
  unfold State.hayState
  split
  · apply State.write_keeps
    exact h0
  · exact h0

theorem State.pushEnded_keeps {r : State} {s0 : State} (a1 : _) (a2 : _) (a3 : _) (h0 : r.Keeps s0) : r.Keeps (State.pushEnded s0 a1 a2 a3) := by
  unfold State.pushEnded
  split
  · extract_lets y6
    have h7 : r.Keeps y6 := by
      unfold y6
      apply State.modCtx_keeps
      exact h0
    try clear_value y6
    split
    · split
      · apply State.hayState_keeps
        exact h7
      · exact h7
    · exact h7
  · exact h0

theorem State.modStream_keeps {r : State} {s0 : State} (a1 : _) (a2 : _) (a3 : _) (h0 : r.Keeps s0) : r.Keeps (State.modStream s0 a1 a2 a3) := by
  unfold State.modStream
  apply State.modJob_keeps
  exact h0

theorem State.faultStream_keeps {r : State} {s0 : State} (a1 : _) (a2 : _) (a3 : _) (a4 : _) (a5 : _) (h0 : r.Keeps s0) : r.Keeps (State.faultStream s0 a1 a2 a3 a4 a5) := by
  unfold State.faultStream
  extract_lets y0 y1 y2
  have h3 : r.Keeps y1 := by
    unfold y1
    apply State.modStream_keeps
    exact h0
  try clear_value y1
  have h4 : r.Keeps y2 := by
    unfold y2
    split
    · apply State.finishAt_keeps
      exact h3
    · exact h3
  try clear_value y2
  split
  · apply State.finishAt_keeps
    exact h4
  · exact h4

theorem State.endUnrun_keeps {r : State} {s0 : State} (a1 : _) (a2 : _) (h0 : r.Keeps s0) : r.Keeps (State.endUnrun s0 a1 a2) := by
  unfold State.endUnrun
  split
  · exact h0
  · split
    · extract_lets y3
      split
      · split
        · apply State.finishAt_keeps
          apply State.modStream_keeps
          exact h0
        · apply State.faultStream_keeps
          exact h0
      · apply State.faultStream_keeps
        exact h0
    · split
      · apply State.finishAt_keeps
        apply State.pushEnded_keeps
        exact h0
      · apply State.finishAt_keeps
        exact h0

theorem State.failBehind_keeps {r : State} {s0 : State} (a1 : _) (a2 : _) (h0 : r.Keeps s0) : r.Keeps (State.failBehind s0 a1 a2) := by
  unfold State.failBehind
  split
  · exact h0
  · apply State.Keeps.foldl
    · exact h0
    · intro s5 a6 h7
      try beta_reduce
      apply State.endUnrun_keeps
      exact h7

theorem State.record_keeps {r : State} {s0 : State} (a1 : _) (a2 : _) (h0 : r.Keeps s0) : r.Keeps (State.record s0 a1 a2) := by
  unfold State.record
  extract_lets y0 y1 y2 y3
  exact h0.same rfl rfl rfl rfl rfl rfl

theorem State.event_keeps {r : State} {s0 : State} (a1 : _) (a2 : _) (h0 : r.Keeps s0) : r.Keeps (State.event s0 a1 a2) := by
  unfold State.event
  apply State.record_keeps
  exact h0

theorem State.bootRecord_keeps {r : State} {s0 : State} (h0 : r.Keeps s0) : r.Keeps (State.bootRecord s0) := by
  unfold State.bootRecord
  extract_lets y0 y1 y2
  have h3 : r.Keeps y1 := by
    unfold y1
    apply State.record_keeps
    exact h0
  try clear_value y1
  exact h3.same rfl rfl rfl rfl rfl rfl

theorem State.permWrite_keeps {r : State} {s0 : State} (a1 : _) (a2 : _) (h0 : r.Keeps s0) : r.Keeps (State.permWrite s0 a1 a2) := by
  unfold State.permWrite
  extract_lets y0 y1
  exact h0.same rfl rfl rfl rfl rfl rfl

end Sys2Proof.Machine
end

