-- ==== Sys2Proof/Laws/KeepsQueue.lean ====
section
/-! SUPPORT. What the relation `State.Keeps` says of the sequencer: each function respects it. -/

set_option maxRecDepth 20000

namespace Sys2Proof.Machine

theorem State.touch_keeps {r : State} {s0 : State} (a1 : _) (a2 : _) (a3 : _) (h0 : r.Keeps s0) : r.Keeps (State.touch s0 a1 a2 a3) := by
  unfold State.touch
  apply State.modJob_keeps
  exact h0

theorem State.poisonSeen_keeps {r : State} {s0 : State} (a1 : _) (h0 : r.Keeps s0) : r.Keeps (State.poisonSeen s0 a1) := by
  unfold State.poisonSeen
  apply State.Keeps.foldl
  · exact h0
  · intro s0 a1 h2
    try beta_reduce
    apply State.modJob_keeps
    exact h2

theorem State.poisonsState_keeps {r : State} {s0 : State} (a1 : _) (h0 : r.Keeps s0) : r.Keeps (State.poisonsState s0 a1) := by
  unfold State.poisonsState
  apply State.Keeps.foldl
  · exact h0
  · intro s0 a1 h2
    try beta_reduce
    apply State.poisonSeen_keeps
    exact h2

theorem State.copyRange_keeps {r : State} {s0 : State} (a1 : _) (a2 : _) (a3 : _) (h0 : r.Keeps s0) : r.Keeps (State.copyRange s0 a1 a2 a3) := by
  unfold State.copyRange
  extract_lets y0 y1 y2
  have h3 : r.Keeps y1 := by
    unfold y1
    apply State.write_keeps
    exact h0
  try clear_value y1
  apply State.poisonsState_keeps
  apply State.Keeps.foldl
  · exact h3
  · intro s4 a5 h6
    try beta_reduce
    apply State.mark_keeps
    exact h6

theorem State.copySees_keeps {r : State} {s0 : State} (a1 : _) (h0 : r.Keeps s0) : r.Keeps (State.copySees s0 a1) := by
  unfold State.copySees
  split
  · apply State.poisonSeen_keeps
    exact h0
  · exact h0

theorem State.ckptReads_keeps {r : State} {s0 : State} (a1 : _) (a2 : _) (h0 : r.Keeps s0) : r.Keeps (State.ckptReads s0 a1 a2) := by
  unfold State.ckptReads
  split
  · exact h0
  · extract_lets y5 y6
    have h7 : r.Keeps y6 := by
      unfold y6
      apply State.copySees_keeps
      apply State.modJob_keeps
      exact h0
    try clear_value y6
    apply State.Keeps.foldl
    · exact h7
    · intro s8 a9 h10
      try beta_reduce
      apply State.copyRange_keeps
      exact h10

theorem State.mirrorReads_keeps {r : State} {s0 : State} (a1 : _) (a2 : _) (h0 : r.Keeps s0) : r.Keeps (State.mirrorReads s0 a1 a2) := by
  unfold State.mirrorReads
  split
  · exact h0
  · split
    · exact h0
    · extract_lets y10
      apply State.copySees_keeps
      apply State.modJob_keeps
      exact h0

theorem State.copyBefore_keeps {r : State} {s0 : State} (a1 : _) (a2 : _) (a3 : _) (h0 : r.Keeps s0) : r.Keeps (State.copyBefore s0 a1 a2 a3) := by
  unfold State.copyBefore
  extract_lets y0
  split
  · apply State.mirrorReads_keeps
    apply State.ckptReads_keeps
    exact h0
  · exact h0

theorem State.devWrite_keeps {r : State} {s0 : State} (a1 : _) (a2 : _) (a3 : _) (h0 : r.Keeps s0) : r.Keeps (State.devWrite s0 a1 a2 a3) := by
  unfold State.devWrite
  apply State.write_keeps
  apply State.touch_keeps
  apply State.copyBefore_keeps
  exact h0

theorem State.countEvent_keeps {r : State} {s0 : State} (a1 : _) (h0 : r.Keeps s0) : r.Keeps (State.countEvent s0 a1) := by
  unfold State.countEvent
  apply State.Keeps.foldl
  · exact h0
  · intro s0 a1 h2
    try beta_reduce
    apply State.modJob_keeps
    exact h2

theorem Tile.discard_quarantined (t : Tile) (h n : Nat) : (t.discard h n).quarantined = t.quarantined := by
  unfold Tile.discard
  extract_lets u
  have e : u.quarantined = t.quarantined := by
    unfold u
    split <;> rfl
  split
  · split
    · exact e
    · exact e
  · exact e

theorem Tile.advance_quarantined (t : Tile) (n : Nat) : (t.advance n).quarantined = t.quarantined := by
  unfold Tile.advance
  split <;> rfl

theorem State.dropWork_keeps {r : State} {s0 : State} (a1 : _) (h0 : r.Keeps s0) : r.Keeps (State.dropWork s0 a1).1 := by
  unfold State.dropWork
  refine State.Keeps.foldl (State.Keeps.foldl h0 ?_) ?_
  · intro s n h
    exact State.modTile_keeps h fun t q => by rw [Tile.discard_quarantined]; exact q
  · intro s n h
    exact State.modSkip_keeps _ _ h

theorem State.sparseRecord_keeps {r : State} {s0 : State} (a1 : _) (a2 : _) (a3 : _) (h0 : r.Keeps s0) : r.Keeps (State.sparseRecord s0 a1 a2 a3) := by
  unfold State.sparseRecord
  apply State.modJob_keeps
  exact h0

theorem State.closeSet_keeps {r : State} {s0 : State} (a1 : _) (a2 : _) (h0 : r.Keeps s0) : r.Keeps (State.closeSet s0 a1 a2) := by
  unfold State.closeSet
  split
  · exact h0
  · extract_lets y5 y6
    have h7 : r.Keeps y6 := by
      unfold y6
      apply State.Keeps.foldl
      · exact h0
      · intro s8 a9 h10
        try beta_reduce
        apply State.write_keeps
        exact h10
    try clear_value y6
    apply State.modJob_keeps
    exact h7

theorem State.endOp_keeps {r : State} {s0 : State} (a1 : _) (a2 : _) (a3 : _) (a4 : _) (h0 : r.Keeps s0) : r.Keeps (State.endOp s0 a1 a2 a3 a4) := by
  unfold State.endOp
  extract_lets y0
  have h1 : r.Keeps y0 := by
    unfold y0
    apply State.pushEnded_keeps
    exact h0
  try clear_value y0
  apply State.finish_keeps
  apply State.setWatermark_keeps
  exact h1

theorem State.endPlain_keeps {r : State} {s0 : State} (a1 : _) (a2 : _) (a3 : _) (h0 : r.Keeps s0) : r.Keeps (State.endPlain s0 a1 a2 a3) := by
  unfold State.endPlain
  apply State.endOp_keeps
  apply State.modJob_keeps
  exact h0

theorem State.completeOp_keeps {r : State} {s0 : State} (a1 : _) (a2 : _) (h0 : r.Keeps s0) : r.Keeps (State.completeOp s0 a1 a2) := by
  unfold State.completeOp
  extract_lets y0 y1 y2
  have h3 : r.Keeps y1 := by
    unfold y1
    apply State.modJob_keeps
    exact h0
  try clear_value y1
  have h4 : r.Keeps y2 := by
    unfold y2
    split
    · split
      · apply State.closeSet_keeps
        exact h3
      · exact h3
    · exact h3
  try clear_value y2
  split
  · apply State.endOp_keeps
    exact h0
  · split
    · apply State.endOp_keeps
      apply State.sparseRecord_keeps
      exact h3
    · apply State.endOp_keeps
      exact h4

theorem State.itemFinal_keeps {r : State} {s0 : State} (a1 : _) (a2 : _) (h0 : r.Keeps s0) : r.Keeps (State.itemFinal s0 a1 a2) := by
  unfold State.itemFinal
  extract_lets y0 y1
  have h2 : r.Keeps y0 := by
    unfold y0
    apply State.modOp_keeps
    exact h0
  try clear_value y0
  have h3 : r.Keeps y1 := by
    unfold y1
    apply State.signalOf_keeps
    apply State.setBit_keeps
    exact h2
  try clear_value y1
  split
  · apply State.setWatermark_keeps
    exact h3
  · exact h3

theorem State.blockTaken_keeps {r : State} {s0 : State} (a1 : _) (a2 : _) (h0 : r.Keeps s0) : r.Keeps (State.blockTaken s0 a1 a2) := by
  unfold State.blockTaken
  split
  · exact h0
  · apply State.modJob_keeps
    exact h0

theorem State.countSpan_keeps {r : State} {s0 : State} (a1 : _) (a2 : _) (a3 : _) (h0 : r.Keeps s0) : r.Keeps (State.countSpan s0 a1 a2 a3) := by
  unfold State.countSpan
  split
  · apply State.modCtx_keeps
    exact h0
  · exact h0

theorem State.cascade_keeps {r : State} {s0 : State} (a1 : _) (a2 : _) (a3 : _) (a4 : _) (h0 : r.Keeps s0) : r.Keeps (State.cascade s0 a1 a2 a3 a4) := by
  induction a4 generalizing s0 with
  | zero => exact h0
  | succ n ih =>
    unfold State.cascade
    split
    · exact ih (State.blockTaken_keeps _ _ (State.countSpan_keeps _ _ _ (State.itemFinal_keeps _ _ h0)))
    · exact h0

theorem State.tryComplete_keeps {r : State} {s0 : State} (a1 : _) (h0 : r.Keeps s0) : r.Keeps (State.tryComplete s0 a1) := by
  unfold State.tryComplete
  split
  · exact h0
  · split
    · exact h0
    · split
      · exact h0
      · split
        · apply State.modOp_keeps
          exact h0
        · apply State.completeOp_keeps
          exact h0

theorem State.afterItems_keeps {r : State} {s0 : State} (a1 : _) (h0 : r.Keeps s0) : r.Keeps (State.afterItems s0 a1) := by
  unfold State.afterItems
  split
  · exact h0
  · split
    · apply State.tryComplete_keeps
      apply State.cascade_keeps
      exact h0
    · exact h0

theorem State.noteAccepted_keeps {r : State} {s0 : State} (a1 : _) (a2 : _) (a3 : _) (h0 : r.Keeps s0) : r.Keeps (State.noteAccepted s0 a1 a2 a3) := by
  unfold State.noteAccepted
  apply State.modJob_keeps
  exact h0

theorem State.lastTiling_keeps {r : State} {s0 : State} (a1 : _) (a2 : _) (a3 : _) (h0 : r.Keeps s0) : r.Keeps (State.lastTiling s0 a1 a2 a3) := by
  unfold State.lastTiling
  apply State.modJob_keeps
  exact h0

theorem State.writeSkipped_keeps {r : State} {s0 : State} (a1 : _) (a2 : _) (h0 : r.Keeps s0) : r.Keeps (State.writeSkipped s0 a1 a2) := by
  unfold State.writeSkipped
  extract_lets y0 y1 y2 y3
  have h4 : r.Keeps y3 := by
    unfold y3
    split
    · exact h0
    · apply State.Keeps.foldl
      · exact h0
      · intro s7 a8 h9
        try beta_reduce
        extract_lets y10 y11
        have h12 : r.Keeps y11 := by
          unfold y11
          apply State.devWrite_keeps
          exact h9
        try clear_value y11
        split
        · apply State.write_keeps
          exact h12
        · exact h12
  try clear_value y3
  apply State.modJob_keeps
  exact h4

theorem State.startItems_keeps {r : State} {s0 : State} (a1 : _) (a2 : _) (a3 : _) (a4 : _) (a5 : _) (a6 : _) (a7 : _) (a8 : _) (a9 : _) (h0 : r.Keeps s0) : r.Keeps (State.startItems s0 a1 a2 a3 a4 a5 a6 a7 a8 a9) := by
  unfold State.startItems
  extract_lets y0 y1 y2 y3 y4 y5 y6 y7 y8
  have h9 : r.Keeps y0 := by
    unfold y0
    split
    · apply State.lastTiling_keeps
      exact h0
    · exact h0
  try clear_value y0
  have h12 : r.Keeps y1 := by
    unfold y1
    apply State.startEntry_keeps
    exact h9
  try clear_value y1
  have h13 : r.Keeps y2 := by
    unfold y2
    apply State.modWork_keeps
    exact h12
  try clear_value y2
  have h14 : r.Keeps y3 := by
    unfold y3
    apply State.poolMark_keeps
    apply State.modEntry_keeps
    exact h13
  try clear_value y3
  have h15 : r.Keeps y6 := by
    unfold y6
    apply State.signal_keeps
    apply State.modOp_keeps
    exact h14
  try clear_value y6
  have h16 : r.Keeps y8 := by
    unfold y8
    split
    · apply State.writeSkipped_keeps
      exact h15
    · exact h15
  try clear_value y8
  apply State.afterItems_keeps
  exact h16

theorem State.carryHeaders_keeps {r : State} {s0 : State} (a1 : _) (h0 : r.Keeps s0) : r.Keeps (State.carryHeaders s0 a1) := by
  unfold State.carryHeaders
  apply State.Keeps.foldl
  · exact h0
  · intro s0 a1 h2
    try beta_reduce
    apply State.carry_keeps
    exact h2

theorem State.startBody_keeps {r : State} {s0 : State} (a1 : _) (a2 : _) (a3 : _) (a4 : _) (a5 : _) (h0 : r.Keeps s0) : r.Keeps (State.startBody s0 a1 a2 a3 a4 a5) := by
  unfold State.startBody
  extract_lets y0
  split
  · split
    · extract_lets y8
      have h9 : r.Keeps y8 := by
        unfold y8
        split
        · exact h0
        · apply State.sparseRecord_keeps
          exact h0
      try clear_value y8
      apply State.endOp_keeps
      exact h9
    · split
      · apply State.endOp_keeps
        exact h0
      · split
        · apply State.endOp_keeps
          exact h0
        · split
          · exact h0
          · apply State.startItems_keeps
            apply State.carryHeaders_keeps
            exact h0

theorem State.startOp_keeps {r : State} {s0 : State} (a1 : _) (h0 : r.Keeps s0) : r.Keeps (State.startOp s0 a1) := by
  unfold State.startOp
  split
  · exact h0
  · split
    · split
      · exact h0
      · split
        · split
          · exact h0
          · split
            · apply State.endOp_keeps
              exact h0
            · extract_lets y24 y25
              split
              · exact h0
              · apply State.afterItems_keeps
                apply State.signal_keeps
                apply State.modWork_keeps
                apply State.startEntry_keeps
                exact h0
        · split
          · apply State.modOp_keeps
            apply State.startEntry_keeps
            exact h0
          · split
            · exact h0
            · extract_lets y39
              split
              · apply State.endOp_keeps
                exact h0
              · split
                · exact h0
                · apply State.startBody_keeps
                  exact h0
    · exact h0

theorem State.handOut_keeps {r : State} {s0 : State} (a1 : _) (a2 : _) (h0 : r.Keeps s0) : r.Keeps (State.handOut s0 a1 a2) := by
  unfold State.handOut
  split
  · exact h0
  · extract_lets y5 y6
    have h7 : r.Keeps y5 := by
      unfold y5
      apply State.modOp_keeps
      exact h0
    try clear_value y5
    have h8 : r.Keeps y6 := by
      unfold y6
      apply State.modJob_keeps
      exact h7
    try clear_value y6
    apply State.blockTaken_keeps
    exact h8

theorem State.sendTake_keeps {r : State} {s0 : State} (a1 : _) (h0 : r.Keeps s0) : r.Keeps (State.sendTake s0 a1) := by
  unfold State.sendTake
  apply State.carry_keeps
  exact h0

theorem State.answerNone_keeps {r : State} {s0 : State} (a1 : _) (h0 : r.Keeps s0) : r.Keeps (State.answerNone s0 a1) := by
  unfold State.answerNone
  extract_lets y0
  have h1 : r.Keeps y0 := by
    unfold y0
    split
    · apply State.modJob_keeps
      exact h0
    · exact h0
  try clear_value y0
  apply State.send_keeps
  apply State.carry_keeps
  apply State.modTile_keeps
  · exact h1
  · intro a7 h8
    try beta_reduce
    assumption

theorem State.answerItem_keeps {r : State} {s0 : State} (a1 : _) (a2 : _) (a3 : _) (h0 : r.Keeps s0) : r.Keeps (State.answerItem s0 a1 a2 a3) := by
  unfold State.answerItem
  extract_lets y0 y1 y2
  have h3 : r.Keeps y0 := by
    unfold y0
    apply State.handOut_keeps
    exact h0
  try clear_value y0
  have h4 : r.Keeps y2 := by
    unfold y2
    apply State.modTile_keeps
    · exact h3
    · intro a5 h6
      try beta_reduce
      (repeat' split) <;> assumption
  try clear_value y2
  apply State.send_keeps
  apply State.carry_keeps
  exact h4

theorem State.takeItem_keeps {r : State} {s0 : State} (a1 : _) (h0 : r.Keeps s0) : r.Keeps (State.takeItem s0 a1) := by
  unfold State.takeItem
  extract_lets y0 y1
  have h2 : r.Keeps y1 := by
    unfold y1
    apply State.sendTake_keeps
    exact h0
  try clear_value y1
  split
  · exact h0
  · split
    · apply State.answerNone_keeps
      exact h2
    · apply State.answerItem_keeps
      exact h2

theorem State.returnItem_keeps {r : State} {s0 : State} (a1 : _) (a2 : _) (a3 : _) (h0 : r.Keeps s0) : r.Keeps (State.returnItem s0 a1 a2 a3) := by
  unfold State.returnItem
  split
  · exact h0
  · extract_lets y5 y6 y7 y8
    have h9 : r.Keeps y6 := by
      unfold y6
      apply State.carry_keeps
      exact h0
    try clear_value y6
    have h10 : r.Keeps y7 := by
      unfold y7
      apply State.modOp_keeps
      exact h9
    try clear_value y7
    have h11 : r.Keeps y8 := by
      unfold y8
      apply State.modJob_keeps
      exact h10
    try clear_value y8
    apply State.Keeps.foldl
    · exact h11
    · intro s12 a13 h14
      try beta_reduce
      apply State.modSkip_keeps
      exact h14

theorem State.loseSet_keeps {r : State} {s0 : State} (a1 : _) (a2 : _) (h0 : r.Keeps s0) : r.Keeps (State.loseSet s0 a1 a2) := by
  unfold State.loseSet
  extract_lets y0
  have h1 : r.Keeps y0 := by
    unfold y0
    apply State.modJob_keeps
    exact h0
  try clear_value y0
  apply State.Keeps.foldl
  · exact h1
  · intro s2 a3 h4
    try beta_reduce
    extract_lets y5
    have h6 : r.Keeps y5 := by
      unfold y5
      apply State.dropWork_keeps
      exact h4
    try clear_value y5
    split
    · apply State.endPlain_keeps
      exact h6
    · exact h6

theorem State.loseSetsOn_keeps {r : State} {s0 : State} (a1 : _) (h0 : r.Keeps s0) : r.Keeps (State.loseSetsOn s0 a1) := by
  unfold State.loseSetsOn
  apply State.Keeps.foldl
  · exact h0
  · intro s0 a1 h2
    try beta_reduce
    split
    · exact h2
    · apply State.Keeps.foldl
      · exact h2
      · intro s8 a9 h10
        try beta_reduce
        apply State.loseSet_keeps
        exact h10

theorem State.stopLaunch_keeps {r : State} {s0 : State} (a1 : _) (h0 : r.Keeps s0) : r.Keeps (State.stopLaunch s0 a1) := by
  unfold State.stopLaunch
  split
  · exact h0
  · split
    · exact h0
    · split
      · exact h0
      · apply State.Keeps.foldl
        · exact h0
        · intro s12 a13 h14
          try beta_reduce
          split
          · apply State.endPlain_keeps
            exact h14
          · exact h14

theorem State.quarantineOne_keeps {r : State} {s0 : State} (a1 : _) (a2 : _) (h0 : r.Keeps s0) : r.Keeps (State.quarantineOne s0 a1 a2) := by
  unfold State.quarantineOne
  extract_lets y0 y1 y2 y3 y4 y5 y6
  have h7 : r.Keeps y2 := by
    unfold y2
    apply State.setTile_keeps
    · exact h0
    · intro h8
      try beta_reduce
      rfl
  try clear_value y2
  have h9 : r.Keeps y3 := by
    unfold y3
    apply State.loseSetsOn_keeps
    exact h7
  try clear_value y3
  have h10 : r.Keeps y4 := by
    unfold y4
    apply State.Keeps.foldl
    · exact h9
    · intro s11 a12 h13
      try beta_reduce
      apply State.returnItem_keeps
      exact h13
  try clear_value y4
  have h14 : r.Keeps y5 := by
    unfold y5
    apply State.Keeps.foldl
    · exact h10
    · intro s15 a16 h17
      try beta_reduce
      apply State.returnItem_keeps
      exact h17
  try clear_value y5
  have h18 : r.Keeps y6 := by
    unfold y6
    apply State.stopLaunch_keeps
    exact h14
  try clear_value y6
  split
  · exact h0
  · apply State.countEvent_keeps
    exact h18

theorem State.recordRow_keeps {r : State} {s0 : State} (a1 : _) (a2 : _) (h0 : r.Keeps s0) : r.Keeps (State.recordRow s0 a1 a2).1 := by
  unfold State.recordRow
  extract_lets y0 y1 y2 y3
  split
  · dsimp only
    apply State.event_keeps
    exact h0.same rfl rfl rfl rfl rfl rfl
  · split
    · dsimp only
      apply State.event_keeps
      apply State.permWrite_keeps
      exact h0
    · dsimp only
      exact h0.same rfl rfl rfl rfl rfl rfl

theorem State.quarantine_keeps {r : State} {s0 : State} (a1 : _) (a2 : _) (h0 : r.Keeps s0) : r.Keeps (State.quarantine s0 a1 a2) := by
  unfold State.quarantine
  split
  · exact h0
  · extract_lets y2 y3 y4 y5 y6 y7 y8
    have h9 : r.Keeps y6 := by
      unfold y6
      apply State.quarantineOne_keeps
      exact h0
    try clear_value y6
    have h10 : r.Keeps y8.1 := by
      unfold y8
      apply State.recordRow_keeps
      exact h9
    try clear_value y8
    split
    · split
      · exact h9
      · apply State.Keeps.foldl
        · exact h10
        · intro s14 a15 h16
          try beta_reduce
          apply State.quarantineOne_keeps
          exact h16
    · exact h9

theorem State.abortOp_keeps {r : State} {s0 : State} (a1 : _) (a2 : _) (a3 : _) (h0 : r.Keeps s0) : r.Keeps (State.abortOp s0 a1 a2 a3) := by
  unfold State.abortOp
  extract_lets y0 y1 y2 y3 y4
  have h5 : r.Keeps y1 := by
    unfold y1
    apply State.dropWork_keeps
    exact h0
  try clear_value y1
  have h6 : r.Keeps y2 := by
    unfold y2
    apply State.modOp_keeps
    exact h5
  try clear_value y2
  have h7 : r.Keeps y3 := by
    unfold y3
    apply State.modEntry_keeps
    exact h6
  try clear_value y3
  have h8 : r.Keeps y4 := by
    unfold y4
    apply State.modJob_keeps
    exact h7
  try clear_value y4
  split
  · extract_lets y15
    have h16 : r.Keeps y15 := by
      unfold y15
      split
      · exact h8
      · apply State.sparseRecord_keeps
        exact h8
    try clear_value y15
    apply State.endOp_keeps
    exact h16
  · exact h8

end Sys2Proof.Machine
end

