-- ==== Sys2Proof/Laws/KeepsTiles.lean ====
section
/-! SUPPORT. What the relation `State.Keeps` says of the hayloft and the tiles: each function respects it. -/

set_option maxRecDepth 20000

namespace Sys2Proof.Machine

theorem State.placeEntry_keeps {r : State} {s0 : State} (a1 : _) (a2 : _) (a3 : _) (a4 : _) (h0 : r.Keeps s0) : r.Keeps (State.placeEntry s0 a1 a2 a3 a4) := by
  unfold State.placeEntry
  extract_lets y0 y1
  have h2 : r.Keeps y1 := by
    unfold y1
    apply State.write_keeps
    exact h0
  try clear_value y1
  apply State.modCtx_keeps
  exact h2

theorem State.beginSpill_keeps {r : State} {s0 : State} (a1 : _) (a2 : _) (a3 : _) (h0 : r.Keeps s0) : r.Keeps (State.beginSpill s0 a1 a2 a3) := by
  unfold State.beginSpill
  split
  · apply State.modCtx_keeps
    exact h0
  · exact h0

theorem State.makeRoom_keeps {r : State} {s0 : State} (a1 : _) (a2 : _) (h0 : r.Keeps s0) : r.Keeps (State.makeRoom s0 a1 a2) := by
  induction a2 generalizing s0 with
  | zero => exact h0
  | succ n ih =>
    unfold State.makeRoom
    split
    · exact h0
    · split
      · exact h0
      · split
        · exact ih (State.placeEntry_keeps _ _ _ _ h0)
        · split
          · exact h0
          · split
            · exact State.beginSpill_keeps _ _ _ h0
            · split
              · exact ih (State.placeEntry_keeps _ _ _ _ h0)
              · exact h0

theorem State.endWaits_keeps {r : State} {s0 : State} (a1 : _) (h0 : r.Keeps s0) : r.Keeps (State.endWaits s0 a1) := by
  unfold State.endWaits
  apply State.modCtx_keeps
  exact h0

theorem State.room_keeps {r : State} {s0 : State} (a1 : _) (h0 : r.Keeps s0) : r.Keeps (State.room s0 a1) := by
  unfold State.room
  apply State.endWaits_keeps
  apply State.makeRoom_keeps
  exact h0

theorem State.pushMustWait_keeps {r : State} {s0 : State} (a1 : _) (h0 : r.Keeps s0) : r.Keeps (State.pushMustWait s0 a1) := by
  unfold State.pushMustWait
  apply State.room_keeps
  apply State.modCtx_keeps
  exact h0

theorem State.refill_keeps {r : State} {s0 : State} (a1 : _) (a2 : _) (h0 : r.Keeps s0) : r.Keeps (State.refill s0 a1 a2) := by
  induction a2 generalizing s0 with
  | zero => exact h0
  | succ n ih =>
    unfold State.refill
    split
    · exact h0
    · split
      · exact h0
      · split
        · exact h0
        · split
          · exact h0
          · exact ih (State.modCtx_keeps _ _ h0)

theorem State.roomLeft_keeps {r : State} {s0 : State} (a1 : _) (h0 : r.Keeps s0) : r.Keeps (State.roomLeft s0 a1) := by
  unfold State.roomLeft
  apply State.refill_keeps
  apply State.room_keeps
  exact h0

theorem State.popRoom_keeps {r : State} {s0 : State} (a1 : _) (a2 : _) (h0 : r.Keeps s0) : r.Keeps (State.popRoom s0 a1 a2) := by
  unfold State.popRoom
  extract_lets y0
  have h1 : r.Keeps y0 := by
    unfold y0
    apply State.roomLeft_keeps
    exact h0
  try clear_value y0
  split
  · exact h1
  · extract_lets y7
    split
    · exact h1
    · split
      · apply State.beginSpill_keeps
        exact h1
      · exact h1

theorem State.spillLeft_keeps {r : State} {s0 : State} (a1 : _) (h0 : r.Keeps s0) : r.Keeps (State.spillLeft s0 a1) := by
  unfold State.spillLeft
  extract_lets y0
  have h1 : r.Keeps y0 := by
    unfold y0
    apply State.room_keeps
    exact h0
  try clear_value y0
  split
  · exact h1
  · split
    · exact h1
    · split
      · apply State.popRoom_keeps
        exact h1
      · exact h1

theorem State.reserve_keeps {r : State} {s0 : State} (a1 : _) (a2 : _) (a3 : _) (a4 : _) (h0 : r.Keeps s0) : r.Keeps (State.reserve s0 a1 a2 a3 a4) := by
  unfold State.reserve
  split
  · exact h0
  · extract_lets y5 y6
    have h7 : r.Keeps y6 := by
      unfold y6
      apply State.modCtx_keeps
      exact h0
    try clear_value y6
    split
    · split
      · exact h7
      · apply State.placeEntry_keeps
        exact h7
    · exact h7

theorem State.spillDone_keeps {r : State} {s0 : State} (a1 : _) (h0 : r.Keeps s0) : r.Keeps (State.spillDone s0 a1) := by
  unfold State.spillDone
  split
  · exact h0
  · split
    · exact h0
    · extract_lets y10 y11
      have h12 : r.Keeps y10 := by
        unfold y10
        apply State.copyRange_keeps
        exact h0
      try clear_value y10
      have h13 : r.Keeps y11 := by
        unfold y11
        apply State.modCtx_keeps
        exact h12
      try clear_value y11
      apply State.spillLeft_keeps
      exact h13

theorem State.refillDone_keeps {r : State} {s0 : State} (a1 : _) (h0 : r.Keeps s0) : r.Keeps (State.refillDone s0 a1) := by
  unfold State.refillDone
  split
  · exact h0
  · split
    · exact h0
    · extract_lets y10 y11
      have h12 : r.Keeps y10 := by
        unfold y10
        apply State.copyRange_keeps
        exact h0
      try clear_value y10
      have h13 : r.Keeps y11 := by
        unfold y11
        apply State.modCtx_keeps
        exact h12
      try clear_value y11
      apply State.room_keeps
      exact h13

theorem State.freeEntry_keeps {r : State} {s0 : State} (a1 : _) (a2 : _) (h0 : r.Keeps s0) : r.Keeps (State.freeEntry s0 a1 a2) := by
  unfold State.freeEntry
  apply State.roomLeft_keeps
  apply State.modCtx_keeps
  exact h0

theorem State.popFails_keeps {r : State} {s0 : State} (a1 : _) (a2 : _) (h0 : r.Keeps s0) : r.Keeps (State.popFails s0 a1 a2) := by
  unfold State.popFails
  apply State.finish_keeps
  apply State.failBehind_keeps
  exact h0

theorem State.popTake_keeps {r : State} {s0 : State} (a1 : _) (h0 : r.Keeps s0) : r.Keeps (State.popTake s0 a1) := by
  unfold State.popTake
  split
  · exact h0
  · split
    · exact h0
    · split
      · exact h0
      · split
        · exact h0
        · extract_lets y17 y18
          have h19 : r.Keeps y18 := by
            unfold y18
            apply State.modCtx_keeps
            exact h0
          try clear_value y18
          split
          · apply State.popFails_keeps
            exact h0
          · split
            · exact h0
            · split
              · apply State.popFails_keeps
                exact h0
              · split
                · apply State.popFails_keeps
                  exact h0
                · split
                  · apply State.popFails_keeps
                    apply State.freeEntry_keeps
                    exact h0
                  · split
                    · apply State.popRoom_keeps
                      exact h19
                    · extract_lets y35 y36
                      have h37 : r.Keeps y36 := by
                        unfold y36
                        apply State.modCtx_keeps
                        exact h0
                      try clear_value y36
                      apply State.roomLeft_keeps
                      apply State.finish_keeps
                      apply State.hayState_keeps
                      exact h37

theorem State.freeTake_keeps {r : State} {s0 : State} (a1 : _) (h0 : r.Keeps s0) : r.Keeps (State.freeTake s0 a1) := by
  unfold State.freeTake
  split
  · exact h0
  · split
    · exact h0
    · split
      · exact h0
      · split
        · exact h0
        · extract_lets y17
          split
          · apply State.finish_keeps
            exact h0
          · split
            · exact h0
            · apply State.finish_keeps
              apply State.freeEntry_keeps
              exact h0

theorem State.refuseAccess_keeps {r : State} {s0 : State} (a1 : _) (a2 : _) (h0 : r.Keeps s0) : r.Keeps (State.refuseAccess s0 a1 a2) := by
  unfold State.refuseAccess
  extract_lets st y0
  have h1 : r.Keeps y0 := by
    unfold y0
    apply State.dropWork_keeps
    exact h0
  try clear_value y0
  split
  · apply State.endPlain_keeps
    exact h1
  · exact h1

theorem State.placeBytes_keeps {r : State} {s0 : State} (a1 : _) (a2 : _) (a3 : _) (a4 : _) (h0 : r.Keeps s0) : r.Keeps (State.placeBytes s0 a1 a2 a3 a4) := by
  unfold State.placeBytes
  split
  · apply State.write_keeps
    exact h0
  · apply State.modTile_keeps
    · exact h0
    · intro a5 h6
      try beta_reduce
      assumption

theorem State.placePoison_keeps {r : State} {s0 : State} (a1 : _) (a2 : _) (a3 : _) (a4 : _) (h0 : r.Keeps s0) : r.Keeps (State.placePoison s0 a1 a2 a3 a4) := by
  unfold State.placePoison
  extract_lets y0
  split
  · apply State.Keeps.foldl
    · exact h0
    · intro s4 a5 h6
      try beta_reduce
      split
      · extract_lets y8
        apply State.Keeps.foldl
        · exact h6
        · intro s9 a10 h11
          try beta_reduce
          apply State.mark_keeps
          exact h11
      · exact h6
  · exact h0

theorem State.settleLoad_keeps {r : State} {s0 : State} (a1 : _) (h0 : r.Keeps s0) : r.Keeps (State.settleLoad s0 a1) := by
  unfold State.settleLoad
  extract_lets y0
  split
  · exact h0
  · split
    · extract_lets y10 y11
      have h12 : r.Keeps y11 := by
        unfold y11
        apply State.modTile_keeps
        · exact h0
        · intro a13 h14
          try beta_reduce
          assumption
      try clear_value y11
      apply State.Keeps.foldl
      · exact h12
      · intro s15 a16 h17
        try beta_reduce
        split
        · apply State.placePoison_keeps
          apply State.placeBytes_keeps
          exact h17
        · exact h17

theorem State.sendPulls_keeps {r : State} {s0 : State} (a1 : _) (a2 : _) (a3 : _) (a4 : _) (h0 : r.Keeps s0) : r.Keeps (State.sendPulls s0 a1 a2 a3 a4) := by
  unfold State.sendPulls
  extract_lets t t2 pulls s1 s2
  have h1 : r.Keeps s1 := State.setTile_keeps h0 fun q => by
    show t2.quarantined = true
    unfold t2
    split <;> exact q
  clear_value s1
  exact State.settleLoad_keeps _ (State.Keeps.foldl h1 fun _ _ h => State.carry_keeps _ _ _ _ h)

theorem State.issuePull_keeps {r : State} {s0 : State} (a1 : _) (h0 : r.Keeps s0) : r.Keeps (State.issuePull s0 a1) := by
  unfold State.issuePull
  split
  · exact h0
  · split
    · exact h0
    · split
      · apply State.refuseAccess_keeps
        exact h0
      · apply State.sendPulls_keeps
        exact h0

theorem State.arrive_keeps {r : State} {s0 : State} (a1 : _) (a2 : _) (a3 : _) (a4 : _) (a5 : _) (a6 : _) (h0 : r.Keeps s0) : r.Keeps (State.arrive s0 a1 a2 a3 a4 a5 a6) := by
  unfold State.arrive
  extract_lets y0 y1
  have h2 : r.Keeps y0 := by
    unfold y0
    apply State.modTile_keeps
    · exact h0
    · intro a3 h4
      try beta_reduce
      assumption
  try clear_value y0
  split
  · apply State.Keeps.foldl
    · exact h2
    · intro s6 a7 h8
      try beta_reduce
      split
      · apply State.placePoison_keeps
        apply State.placeBytes_keeps
        exact h8
      · exact h8
  · apply State.modTile_keeps
    · exact h2
    · intro a15 h16
      try beta_reduce
      assumption

theorem State.serve_keeps {r : State} {s0 : State} (a1 : _) (a2 : _) (h0 : r.Keeps s0) : r.Keeps (State.serve s0 a1 a2) := by
  unfold State.serve
  extract_lets y0 y1 y2 y3 y4
  have h5 : r.Keeps y3 := by
    unfold y3
    apply State.Keeps.foldl
    · exact h0
    · intro s6 a7 h8
      try beta_reduce
      extract_lets y9 y10
      have h11 : r.Keeps y10 := by
        unfold y10
        split
        · apply State.carryMarked_keeps
          exact h8
        · exact h8
      try clear_value y10
      apply State.arrive_keeps
      exact h11
  try clear_value y3
  apply State.modSkip_keeps
  exact h5

theorem State.serveAll_keeps {r : State} {s0 : State} (a1 : _) (h0 : r.Keeps s0) : r.Keeps (State.serveAll s0 a1) := by
  unfold State.serveAll
  apply State.Keeps.foldl
  · exact h0
  · intro s0 a1 h2
    try beta_reduce
    apply State.serve_keeps
    exact h2

theorem State.evict_keeps {r : State} {s0 : State} (a1 : _) (a2 : _) (a3 : _) (h0 : r.Keeps s0) : r.Keeps (State.evict s0 a1 a2 a3) := by
  induction a3 generalizing s0 with
  | zero => exact h0
  | succ n ih =>
    unfold State.evict
    split
    · exact h0
    · split
      · exact h0
      · exact ih (State.modSkip_keeps _ _ h0)

theorem State.makeStage_keeps {r : State} {s0 : State} (a1 : _) (a2 : _) (h0 : r.Keeps s0) : r.Keeps (State.makeStage s0 a1 a2) := by
  unfold State.makeStage
  apply State.evict_keeps
  exact h0

theorem State.atLimit_keeps {r : State} {s0 : State} (a1 : _) (h0 : r.Keeps s0) : r.Keeps (State.atLimit s0 a1) := by
  unfold State.atLimit
  apply State.modSkip_keeps
  exact h0

theorem State.issueRead_keeps {r : State} {s0 : State} (a1 : _) (a2 : _) (h0 : r.Keeps s0) : r.Keeps (State.issueRead s0 a1 a2) := by
  unfold State.issueRead
  apply State.modSkip_keeps
  exact h0

theorem State.pumpPulls_keeps {r : State} {s0 : State} (a1 : _) (a2 : _) (h0 : r.Keeps s0) : r.Keeps (State.pumpPulls s0 a1 a2) := by
  induction a2 generalizing s0 with
  | zero => exact h0
  | succ n ih =>
    unfold State.pumpPulls
    split
    · exact h0
    · split
      · exact State.atLimit_keeps _ h0
      · extract_lets t
        have h1 : r.Keeps t := State.makeStage_keeps _ _ h0
        clear_value t
        split
        · exact h1
        · exact ih (State.issueRead_keeps _ _ h1)

theorem State.pumpWants_keeps {r : State} {s0 : State} (a1 : _) (a2 : _) (h0 : r.Keeps s0) : r.Keeps (State.pumpWants s0 a1 a2) := by
  induction a2 generalizing s0 with
  | zero => exact h0
  | succ n ih =>
    unfold State.pumpWants
    split
    · exact h0
    · split
      · exact State.atLimit_keeps _ h0
      · extract_lets t
        have h1 : r.Keeps t := State.makeStage_keeps _ _ h0
        clear_value t
        split
        · exact h1
        · exact ih (State.issueRead_keeps _ _ (State.modSkip_keeps _ _ h1))

theorem State.runAhead_keeps {r : State} {s0 : State} (a1 : _) (a2 : _) (h0 : r.Keeps s0) : r.Keeps (State.runAhead s0 a1 a2) := by
  unfold State.runAhead
  split
  · exact h0
  · extract_lets y5 y6 y7 y8 y9 y10 y11
    apply State.modSkip_keeps
    exact h0

theorem State.runAheads_keeps {r : State} {s0 : State} (a1 : _) (a2 : _) (h0 : r.Keeps s0) : r.Keeps (State.runAheads s0 a1 a2) := by
  induction a2 generalizing s0 with
  | zero => exact h0
  | succ n ih =>
    unfold State.runAheads
    extract_lets t
    have h1 : r.Keeps t := State.Keeps.foldl h0 fun _ _ h => State.runAhead_keeps _ _ h
    split
    · exact h1
    · exact ih h1

theorem State.pumpOne_keeps {r : State} {s0 : State} (a1 : _) (h0 : r.Keeps s0) : r.Keeps (State.pumpOne s0 a1) := by
  unfold State.pumpOne
  extract_lets y0 y1 y2
  have h3 : r.Keeps y0 := by
    unfold y0
    apply State.serveAll_keeps
    exact h0
  try clear_value y0
  have h4 : r.Keeps y1 := by
    unfold y1
    apply State.pumpPulls_keeps
    exact h3
  try clear_value y1
  have h5 : r.Keeps y2 := by
    unfold y2
    apply State.pumpWants_keeps
    exact h4
  try clear_value y2
  split
  · exact h5
  · apply State.runAheads_keeps
    exact h5

theorem State.pump_keeps {r : State} {s0 : State} (a1 : _) (h0 : r.Keeps s0) : r.Keeps (State.pump s0 a1) := by
  unfold State.pump
  apply State.Keeps.foldl
  · exact h0
  · intro s0 a1 h2
    try beta_reduce
    apply State.pumpOne_keeps
    exact h2

theorem State.pumpAll_keeps {r : State} {s0 : State} (h0 : r.Keeps s0) : r.Keeps (State.pumpAll s0) := by
  unfold State.pumpAll
  apply State.Keeps.foldl
  · exact h0
  · intro s0 a1 h2
    try beta_reduce
    apply State.pumpOne_keeps
    exact h2

theorem State.queuePulls_keeps {r : State} {s0 : State} (a1 : _) (a2 : _) (a3 : _) (a4 : _) (h0 : r.Keeps s0) : r.Keeps (State.queuePulls s0 a1 a2 a3 a4) := by
  unfold State.queuePulls
  extract_lets y0 y1 y2
  have h3 : r.Keeps y2 := by
    unfold y2
    apply State.setTile_keeps
    · exact h0
    · intro h4
      try beta_reduce
      assumption
  try clear_value y2
  apply State.modSkip_keeps
  exact h3

theorem State.pullAt_keeps {r : State} {s0 : State} (a1 : _) (a2 : _) (h0 : r.Keeps s0) : r.Keeps (State.pullAt s0 a1 a2) := by
  unfold State.pullAt
  extract_lets t q
  clear_value q
  cases q with
  | none => exact h0
  | some i =>
    dsimp only
    split
    · exact State.pump_keeps _ (State.queuePulls_keeps _ _ _ _ h0)
    · exact h0

theorem State.countEcc_keeps {r : State} {s0 : State} (a1 : _) (a2 : _) (h0 : r.Keeps s0) : r.Keeps (State.countEcc s0 a1 a2) := by
  unfold State.countEcc
  extract_lets y0
  split
  · exact h0.same rfl rfl rfl rfl rfl rfl
  · exact h0.same rfl rfl rfl rfl rfl rfl

theorem State.memLast_keeps {r : State} {s0 : State} (a1 : _) (a2 : _) (h0 : r.Keeps s0) : r.Keeps (State.memLast s0 a1 a2) := by
  unfold State.memLast
  split
  · exact h0
  · extract_lets y2 y3
    exact h0.same rfl rfl rfl rfl rfl rfl

theorem State.corrected_keeps {r : State} {s0 : State} (a1 : _) (h0 : r.Keeps s0) : r.Keeps (State.corrected s0 a1) := by
  unfold State.corrected
  extract_lets y0 y1 y2 y3 y4
  have h5 : r.Keeps y1 := by
    unfold y1
    apply State.countEcc_keeps
    exact h0
  try clear_value y1
  have h6 : r.Keeps y3 := by
    unfold y3
    exact h5.same rfl rfl rfl rfl rfl rfl
  try clear_value y3
  have h7 : r.Keeps y4 := by
    unfold y4
    exact h6.same rfl rfl rfl rfl rfl rfl
  try clear_value y4
  split
  · exact h0
  · apply State.memLast_keeps
    exact h7

theorem State.uncorrectable_keeps {r : State} {s0 : State} (a1 : _) (h0 : r.Keeps s0) : r.Keeps (State.uncorrectable s0 a1) := by
  unfold State.uncorrectable
  split
  · exact h0
  · extract_lets y2 y3 y4
    have h5 : r.Keeps y2 := by
      unfold y2
      apply State.countEcc_keeps
      exact h0
    try clear_value y2
    have h6 : r.Keeps y4 := by
      unfold y4
      exact h5.same rfl rfl rfl rfl rfl rfl
    try clear_value y4
    apply State.poisonSeen_keeps
    apply State.memLast_keeps
    apply State.mark_keeps
    exact h6

theorem State.applyEcc_keeps {r : State} {s0 : State} (a1 : _) (a2 : _) (h0 : r.Keeps s0) : r.Keeps (State.applyEcc s0 a1 a2) := by
  unfold State.applyEcc
  split
  · exact h0
  · apply State.corrected_keeps
    exact h0
  · apply State.uncorrectable_keeps
    exact h0

theorem State.applyEccs_keeps {r : State} {s0 : State} (a1 : _) (a2 : _) (h0 : r.Keeps s0) : r.Keeps (State.applyEccs s0 a1 a2) := by
  unfold State.applyEccs
  apply State.Keeps.foldl
  · exact h0
  · intro s0 a1 h2
    try beta_reduce
    apply State.applyEcc_keeps
    exact h2

theorem State.windowEcc_keeps {r : State} {s0 : State} (a1 : _) (a2 : _) (a3 : _) (h0 : r.Keeps s0) : r.Keeps (State.windowEcc s0 a1 a2 a3) := by
  unfold State.windowEcc
  split
  · exact h0
  · split
    · exact h0
    · apply State.modTile_keeps
      · exact h0
      · intro a4 h5
        try beta_reduce
        assumption
    · apply State.mark_keeps
      apply State.modTile_keeps
      · exact h0
      · intro a7 h8
        try beta_reduce
        assumption

theorem State.readEcc_keeps {r : State} {s0 : State} (a1 : _) (a2 : _) (h0 : r.Keeps s0) : r.Keeps (State.readEcc s0 a1 a2) := by
  unfold State.readEcc
  split
  · apply State.windowEcc_keeps
    exact h0
  · apply State.applyEcc_keeps
    exact h0
  · apply State.applyEcc_keeps
    exact h0
  · exact h0

theorem State.hostEcc_keeps {r : State} {s0 : State} (a1 : _) (a2 : _) (a3 : _) (h0 : r.Keeps s0) : r.Keeps (State.hostEcc s0 a1 a2 a3) := by
  unfold State.hostEcc
  apply State.Keeps.foldl
  · exact h0
  · intro s0 a1 h2
    try beta_reduce
    apply State.readEcc_keeps
    exact h2

theorem State.readReturn_keeps {r : State} {s0 : State} (a1 : _) (a2 : _) (h0 : r.Keeps s0) : r.Keeps (State.readReturn s0 a1 a2) := by
  unfold State.readReturn
  split
  · exact h0
  · split
    · exact h0
    · extract_lets y8 y9 y10 y11
      have h12 : r.Keeps y8 := by
        unfold y8
        apply State.countMoved_keeps
        apply State.applyEccs_keeps
        exact h0
      try clear_value y8
      have h13 : r.Keeps y9 := by
        unfold y9
        split
        · apply State.poisonSeen_keeps
          exact h12
        · exact h12
      try clear_value y9
      have h19 : r.Keeps y10 := by
        unfold y10
        apply State.modSkip_keeps
        exact h13
      try clear_value y10
      split
      · apply State.pump_keeps
        exact h19
      · apply State.pump_keeps
        apply State.modSkip_keeps
        exact h19

theorem State.toSkips_keeps {r : State} {s0 : State} (a1 : _) (h0 : r.Keeps s0) : r.Keeps (State.toSkips s0 a1) := by
  unfold State.toSkips
  apply State.Keeps.foldl
  · exact h0
  · intro s0 a1 h2
    try beta_reduce
    split
    · extract_lets y6 y7
      have h8 : r.Keeps y7 := by
        unfold y7
        split
        · split
          · apply State.carryMarked_keeps
            exact h2
          · exact h2
        · exact h2
      try clear_value y7
      apply State.modSkip_keeps
      exact h8
    · exact h2

theorem State.portGrants_keeps {r : State} {s0 : State} (a1 : _) (a2 : _) (a3 : _) (h0 : r.Keeps s0) : r.Keeps (State.portGrants s0 a1 a2 a3) := by
  unfold State.portGrants
  extract_lets y0
  have h1 : r.Keeps y0 := by
    unfold y0
    apply State.countActivity_keeps
    exact h0
  try clear_value y0
  split
  · exact h1
  · apply State.modTile_keeps
    · exact h1
    · intro a4 h5
      try beta_reduce
      assumption

theorem State.remotePort_keeps {r : State} {s0 : State} (a1 : _) (a2 : _) (a3 : _) (h0 : r.Keeps s0) : r.Keeps (State.remotePort s0 a1 a2 a3) := by
  unfold State.remotePort
  split
  · split
    · apply State.portGrants_keeps
      exact h0
    · exact h0
  · exact h0

theorem State.countHold_keeps {r : State} {s0 : State} (a1 : _) (a2 : _) (h0 : r.Keeps s0) : r.Keeps (State.countHold s0 a1 a2) := by
  unfold State.countHold
  split
  · apply State.modJob_keeps
    apply State.modSkip_keeps
    exact h0
  · exact h0

theorem State.issueWrite_keeps {r : State} {s0 : State} (a1 : _) (h0 : r.Keeps s0) : r.Keeps (State.issueWrite s0 a1) := by
  unfold State.issueWrite
  split
  · exact h0
  · split
    · exact h0
    · split
      · apply State.atLimit_keeps
        exact h0
      · split
        · apply State.modSkip_keeps
          apply State.copyBefore_keeps
          exact h0
        · extract_lets y15 y16 y17
          have h18 : r.Keeps y15 := by
            unfold y15
            apply State.countHold_keeps
            exact h0
          try clear_value y15
          have h19 : r.Keeps y17 := by
            unfold y17
            apply State.countMoved_keeps
            apply State.setSkip_keeps
            exact h18
          try clear_value y17
          split
          · apply State.touch_keeps
            exact h19
          · exact h19

theorem State.addElems_keeps {r : State} {s0 : State} (a1 : _) (a2 : _) (a3 : _) (h0 : r.Keeps s0) : r.Keeps (State.addElems s0 a1 a2 a3) := by
  unfold State.addElems
  extract_lets y0
  apply State.Keeps.foldl
  · exact h0
  · intro s1 a2 h3
    try beta_reduce
    extract_lets y4
    apply State.write_keeps
    exact h3

theorem State.addAtomics_keeps {r : State} {s0 : State} (a1 : _) (a2 : _) (a3 : _) (h0 : r.Keeps s0) : r.Keeps (State.addAtomics s0 a1 a2 a3) := by
  unfold State.addAtomics
  extract_lets y0
  apply State.Keeps.foldl
  · exact h0
  · intro s1 a2 h3
    try beta_reduce
    extract_lets y4
    split
    · exact h3
    · apply State.write_keeps
      exact h3

theorem State.performWrite_keeps {r : State} {s0 : State} (a1 : _) (h0 : r.Keeps s0) : r.Keeps (State.performWrite s0 a1) := by
  unfold State.performWrite
  split
  · split
    · apply State.addElems_keeps
      exact h0
    · apply State.addAtomics_keeps
      apply State.remotePort_keeps
      exact h0
  · extract_lets y7 y8 y9
    have h10 : r.Keeps y7 := by
      unfold y7
      apply State.remotePort_keeps
      exact h0
    try clear_value y7
    split
    · apply State.poisonsState_keeps
      apply State.writePoison_keeps
      split
      · exact h10
      · apply State.write_keeps
        exact h10
    · split
      · apply State.write_keeps
        exact h10
      · apply State.write_keeps
        exact h10

theorem State.writePairs_keeps {r : State} {s0 : State} (a1 : _) (a2 : _) (a3 : _) (h0 : r.Keeps s0) : r.Keeps (State.writePairs s0 a1 a2 a3) := by
  unfold State.writePairs
  apply State.Keeps.foldl
  · exact h0
  · intro s0 a1 h2
    try beta_reduce
    apply State.write_keeps
    exact h2

theorem State.consume_keeps {r : State} {s0 : State} (a1 : _) (a2 : _) (h0 : r.Keeps s0) : r.Keeps (State.consume s0 a1 a2) := by
  unfold State.consume
  split
  · exact h0
  · extract_lets y5 y6 y7 y8
    have h9 : r.Keeps y6 := by
      unfold y6
      apply State.modTile_keeps
      · exact h0
      · intro a10 h11
        try beta_reduce
        assumption
    try clear_value y6
    have h12 : r.Keeps y8 := by
      unfold y8
      split
      · exact h9.same rfl rfl rfl rfl rfl rfl
      · exact h9
    try clear_value y8
    apply State.memLast_keeps
    exact h12

theorem State.clearFrames_keeps {r : State} {s0 : State} (a1 : _) (a2 : _) (a3 : _) (h0 : r.Keeps s0) : r.Keeps (State.clearFrames s0 a1 a2 a3) := by
  unfold State.clearFrames
  apply State.Keeps.foldl
  · exact h0
  · intro s0 a1 h2
    try beta_reduce
    extract_lets y3 y4
    have h5 : r.Keeps y4 := by
      unfold y4
      apply State.zero_keeps
      exact h2
    try clear_value y4
    apply State.write_keeps
    exact h5

theorem State.computes_keeps {r : State} {s0 : State} (a1 : _) (a2 : _) (a3 : _) (h0 : r.Keeps s0) : r.Keeps (State.computes s0 a1 a2 a3) := by
  unfold State.computes
  extract_lets y0 y1 y2 y3
  have h4 : r.Keeps y1 := by
    unfold y1
    apply State.modTile_keeps
    · exact h0
    · intro a5 h6
      try beta_reduce
      assumption
  try clear_value y1
  have h7 : r.Keeps y2 := by
    unfold y2
    apply State.consume_keeps
    exact h4
  try clear_value y2
  have h8 : r.Keeps y3 := by
    unfold y3
    split
    · split
      · apply State.clearFrames_keeps
        exact h7
      · exact h7
    · exact h7
  try clear_value y3
  split
  · exact h7
  · extract_lets y22
    split
    · apply State.Keeps.foldl
      · exact h8
      · intro s24 a25 h26
        try beta_reduce
        split
        · apply State.writePairs_keeps
          exact h26
    · exact h8

theorem State.beginCompute_keeps {r : State} {s0 : State} (a1 : _) (h0 : r.Keeps s0) : r.Keeps (State.beginCompute s0 a1) := by
  unfold State.beginCompute
  extract_lets y0
  split
  · exact h0
  · split
    · exact h0
    · apply State.computes_keeps
      apply State.countActivity_keeps
      exact h0

theorem State.tileEccOne_keeps {r : State} {s0 : State} (a1 : _) (a2 : _) (a3 : _) (h0 : r.Keeps s0) : r.Keeps (State.tileEccOne s0 a1 a2 a3) := by
  unfold State.tileEccOne
  extract_lets y0 y1
  have h2 : r.Keeps y1 := by
    unfold y1
    apply State.modTile_keeps
    · exact h0
    · intro a3 h4
      try beta_reduce
      assumption
  try clear_value y1
  split
  · apply State.modTile_keeps
    · exact h0
    · intro a6 h7
      try beta_reduce
      assumption
  · split
    · exact h0
    · split
      · apply State.consume_keeps
        apply State.mark_keeps
        exact h2
      · exact h2

theorem State.tileEcc_keeps {r : State} {s0 : State} (a1 : _) (a2 : _) (a3 : _) (h0 : r.Keeps s0) : r.Keeps (State.tileEcc s0 a1 a2 a3) := by
  unfold State.tileEcc
  extract_lets y0
  have h1 : r.Keeps y0 := by
    unfold y0
    apply State.Keeps.foldl
    · exact h0
    · intro s2 a3 h4
      try beta_reduce
      apply State.tileEccOne_keeps
      exact h4
  try clear_value y0
  split
  · apply State.consume_keeps
    exact h1
  · exact h1

theorem Tile.mismatch_quarantined (t : Tile) (f : TileFaults) (b : Bool) : (t.mismatch f b).quarantined = t.quarantined := by
  unfold Tile.mismatch
  split <;> rfl

theorem State.unitFaults_keeps {r : State} {s0 : State} (a1 : _) (a2 : _) (h0 : r.Keeps s0) : r.Keeps (State.unitFaults s0 a1 a2).1 := by
  unfold State.unitFaults
  exact State.modTile_keeps (State.tileEcc_keeps _ _ _ h0) fun t q => by rw [Tile.mismatch_quarantined]; exact q

theorem State.readFrame_keeps {r : State} {s0 : State} (a1 : _) (a2 : _) (h0 : r.Keeps s0) : r.Keeps (State.readFrame s0 a1 a2) := by
  unfold State.readFrame
  split
  · apply State.consume_keeps
    exact h0
  · exact h0

theorem State.recordChecks_keeps {r : State} {s0 : State} (a1 : _) (a2 : _) (a3 : _) (a4 : _) (h0 : r.Keeps s0) : r.Keeps (State.recordChecks s0 a1 a2 a3 a4).1 := by
  unfold State.recordChecks
  split
  · split
    · dsimp only
      apply State.abortOp_keeps
      exact h0
    · dsimp only
      apply State.modOp_keeps
      exact h0

theorem Tile.post_quarantined (t : Tile) (e : FtqEntry) : (t.post e).quarantined = t.quarantined := by
  unfold Tile.post
  split <;> rfl

theorem Tile.postWaiting_quarantined (t : Tile) : t.postWaiting.quarantined = t.quarantined := by
  unfold Tile.postWaiting
  split
  · split
    · rfl
    · exact Tile.post_quarantined _ _
  · rfl

theorem State.afterRun_keeps {r : State} {s0 : State} (a1 : _) (a2 : _) (a3 : _) (a4 : _) (h0 : r.Keeps s0) : r.Keeps (State.afterRun s0 a1 a2 a3 a4) := by
  unfold State.afterRun
  refine State.settleLoad_keeps _ (State.modTile_keeps h0 fun t q => ?_)
  extract_lets last t1 frame ti tj t2 t3
  have e1 : t1.quarantined = true := q
  have e2 : t2.quarantined = true := by
    unfold t2
    split
    · rw [Tile.post_quarantined]; exact e1
    · exact e1
  split <;> exact e2

theorem Feed.fillBuffers_quarantined (x : Feed) (b : Nat) (p : Nat × Nat) (k l : Nat) (t : Tile) :
    (x.fillBuffers b p k l t).quarantined = t.quarantined := by
  have go : ∀ {α : Type} (f : Tile → α → Tile) (g : ∀ t a, (f t a).quarantined = t.quarantined) (l : List α) (t : Tile),
      (l.foldl f t).quarantined = t.quarantined := by
    intro α f g l
    induction l with
    | nil => intro t; rfl
    | cons a l ih => intro t; exact (ih _).trans (g _ _)
  unfold Feed.fillBuffers
  extract_lets c n put
  have hp : ∀ t b ls, (put t b ls).quarantined = t.quarantined := by
    intro t b ls
    unfold put
    refine go _ ?_ _ _
    intro _ _
    rfl
  split
  refine go _ ?_ _ _
  intro t q
  exact (hp _ _ _).trans (hp _ _ _)

theorem State.runEnds_keeps {r : State} {s0 : State} (a1 : _) (a2 : _) (a3 : _) (a4 : _) (a5 : _) (a6 : _) (a7 : _) (a8 : _) (h0 : r.Keeps s0) : r.Keeps (State.runEnds s0 a1 a2 a3 a4 a5 a6 a7 a8) := by
  unfold State.runEnds
  extract_lets s1 ps s2 s3 m s4 steps s5
  have h1 : r.Keeps s1 := State.modTile_keeps h0 fun t q => by rw [Feed.fillBuffers_quarantined]; exact q
  clear_value s1
  have h2 : r.Keeps s2 := by
    unfold s2
    split
    · exact h1
    · exact State.writePairs_keeps _ _ _ (State.modTile_keeps h1 fun _ q => q)
  clear_value s2
  have h3 : r.Keeps s3 := State.modTile_keeps h2 fun _ q => q
  clear_value s3
  have h4 : r.Keeps s4 := State.modJob_keeps _ _ h3
  clear_value s4 steps
  exact State.afterRun_keeps _ _ _ _ (State.countActivity_keeps _ _ _ _ (State.modTile_keeps h4 fun _ q => q))

theorem State.readSlot_keeps {r : State} {s0 : State} (a1 : _) (a2 : _) (a3 : _) (h0 : r.Keeps s0) : r.Keeps (State.readSlot s0 a1 a2 a3) := by
  unfold State.readSlot
  split
  · exact h0
  · apply State.readFrame_keeps
    exact h0

theorem State.kRunEnd_keeps {r : State} {s0 : State} (a1 : _) (a2 : _) (h0 : r.Keeps s0) : r.Keeps (State.kRunEnd s0 a1 a2) := by
  unfold State.kRunEnd
  extract_lets y0
  split
  · exact h0
  · split
    · split
      · exact h0
      · extract_lets y15
        split
        · split
          · exact h0
          · split
            · rename_i z22 z23 z24 z25
              have h26 : r.Keeps z23 := by
                refine State.Keeps.of_fst z25 ?_
                apply State.unitFaults_keeps
                exact h0
              split
              · apply State.quarantine_keeps
                exact h26
              · extract_lets y29
                have h30 : r.Keeps y29 := by
                  unfold y29
                  apply State.readSlot_keeps
                  exact h26
                try clear_value y29
                split
                · rename_i z31 z32 z33 z34
                  have h35 : r.Keeps z32 := by
                    refine State.Keeps.of_fst z34 ?_
                    apply State.recordChecks_keeps
                    exact h30
                  split
                  · exact h35
                  · apply State.runEnds_keeps
                    exact h35
    · exact h0

theorem State.bankAdds_keeps {r : State} {s0 : State} (a1 : _) (a2 : _) (a3 : _) (a4 : _) (h0 : r.Keeps s0) : r.Keeps (State.bankAdds s0 a1 a2 a3 a4) := by
  unfold State.bankAdds
  extract_lets y0 y1 y2 y3
  have h4 : r.Keeps y2 := by
    unfold y2
    apply State.writePairs_keeps
    exact h0
  try clear_value y2
  have h5 : r.Keeps y3 := by
    unfold y3
    apply State.modTile_keeps
    · exact h4
    · intro a6 h7
      try beta_reduce
      assumption
  try clear_value y3
  apply State.modJob_keeps
  exact h5

theorem Tile.toNextAdd_quarantined (t : Tile) (n : Nat) (ps : List (Nat × Nat × U32)) :
    (t.toNextAdd n ps).quarantined = t.quarantined := by
  unfold Tile.toNextAdd
  split
  · rfl
  · unfold Tile.bankCycle
    extract_lets
    split <;> rfl

theorem State.scattered_keeps {r : State} {s0 : State} (a1 : _) (a2 : _) (h0 : r.Keeps s0) : r.Keeps (State.scattered s0 a1 a2) := by
  unfold State.scattered
  extract_lets t
  split
  · exact h0
  · split
    · extract_lets x
      split
      split
      · exact h0
      · extract_lets t2
        split
        · exact h0
        · have h1 : r.Keeps (s0.setTile a1 t2) := State.setTile_keeps h0 fun q => by
            show (t.toNextAdd _ _).quarantined = true
            rw [Tile.toNextAdd_quarantined]; exact q
          split
          · rename_i e
            have h2 : r.Keeps ((s0.setTile a1 t2).unitFaults a1 a2).1 := State.unitFaults_keeps _ _ h1
            rw [e] at h2
            split
            · exact State.quarantine_keeps _ _ h2
            · exact State.bankAdds_keeps _ _ _ _ h2
    · exact h0

theorem State.jigPut_keeps {r : State} {s0 : State} (a1 : _) (a2 : _) (a3 : _) (h0 : r.Keeps s0) : r.Keeps (State.jigPut s0 a1 a2 a3) := by
  unfold State.jigPut
  extract_lets y0 y1
  have h2 : r.Keeps y1 := by
    unfold y1
    apply State.write_keeps
    exact h0
  try clear_value y1
  split
  · apply State.modTile_keeps
    · exact h2
    · intro a4 h5
      try beta_reduce
      assumption
  · apply State.modTile_keeps
    · exact h0
    · intro a7 h8
      try beta_reduce
      assumption

theorem State.jigWrite_keeps {r : State} {s0 : State} (a1 : _) (a2 : _) (a3 : _) (a4 : _) (h0 : r.Keeps s0) : r.Keeps (State.jigWrite s0 a1 a2 a3 a4) := by
  unfold State.jigWrite
  apply State.Keeps.foldl
  · apply State.countActivity_keeps
    exact h0
  · intro s0 a1 h2
    try beta_reduce
    extract_lets y3 y4 y5
    have h6 : r.Keeps y5 := by
      unfold y5
      apply State.jigPut_keeps
      exact h2
    try clear_value y5
    apply State.Keeps.foldl
    · exact h6
    · intro s7 a8 h9
      try beta_reduce
      apply State.jigPut_keeps
      exact h9

theorem State.countJig_keeps {r : State} {s0 : State} (a1 : _) (a2 : _) (h0 : r.Keeps s0) : r.Keeps (State.countJig s0 a1 a2) := by
  unfold State.countJig
  extract_lets y0
  apply State.modJob_keeps
  exact h0

theorem State.jigCount_keeps {r : State} {s0 : State} (a1 : _) (a2 : _) (a3 : _) (a4 : _) (a5 : _) (h0 : r.Keeps s0) : r.Keeps (State.jigCount s0 a1 a2 a3 a4 a5) := by
  unfold State.jigCount
  extract_lets y0
  apply State.countJig_keeps
  apply State.modOp_keeps
  exact h0

theorem State.jigTile_keeps {r : State} {s0 : State} (a1 : _) (a2 : _) (a3 : _) (a4 : _) (a5 : _) (a6 : _) (h0 : r.Keeps s0) : r.Keeps (State.jigTile s0 a1 a2 a3 a4 a5 a6) := by
  unfold State.jigTile
  extract_lets y0 y1 y2
  split
  · apply State.modTile_keeps
    · exact h0
    · intro a4 h5
      try beta_reduce
      assumption
  · split
    · split
      · apply State.jigWrite_keeps
        apply State.jigCount_keeps
        exact h0
    · split
      · apply State.jigWrite_keeps
        exact h0
      · apply State.jigWrite_keeps
        exact h0

theorem State.writeCaptures_keeps {r : State} {s0 : State} (a1 : _) (a2 : _) (a3 : _) (a4 : _) (a5 : _) (a6 : _) (h0 : r.Keeps s0) : r.Keeps (State.writeCaptures s0 a1 a2 a3 a4 a5 a6) := by
  unfold State.writeCaptures
  extract_lets y0
  apply State.modJob_keeps
  apply State.jigWrite_keeps
  exact h0

theorem State.writeScores_keeps {r : State} {s0 : State} (a1 : _) (a2 : _) (a3 : _) (a4 : _) (a5 : _) (a6 : _) (h0 : r.Keeps s0) : r.Keeps (State.writeScores s0 a1 a2 a3 a4 a5 a6) := by
  unfold State.writeScores
  extract_lets y0
  split
  · exact h0
  · split
    · apply State.jigWrite_keeps
      exact h0
    · apply State.jigWrite_keeps
      exact h0

theorem Feed.vectorRegs_quarantined (x : Feed) (b : Nat) (p : Nat × Nat) (f : Nat → Nat → Result) (t : Tile) :
    (x.vectorRegs b p f t).quarantined = t.quarantined := by
  have go : ∀ {α : Type} (f : Tile → α → Tile) (g : ∀ t a, (f t a).quarantined = t.quarantined) (l : List α) (t : Tile),
      (l.foldl f t).quarantined = t.quarantined := by
    intro α f g l
    induction l with
    | nil => intro t; rfl
    | cons a l ih => intro t; exact (ih _).trans (g _ _)
  unfold Feed.vectorRegs
  split
  extract_lets es fill t1 t2 vecs
  have h1 : t1.quarantined = t.quarantined := rfl
  have h2 : t2.quarantined = t1.quarantined := by
    unfold t2
    refine go _ (fun t e => ?_) _ _
    split
    · split <;> rfl
    · rfl
  rw [← h1, ← h2]
  refine go _ ?_ _ _
  intro _ _
  rfl

theorem State.finishTile_keeps {r : State} {s0 : State} (a1 : _) (a2 : _) (a3 : _) (a4 : _) (a5 : _) (h0 : r.Keeps s0) : r.Keeps (State.finishTile s0 a1 a2 a3 a4 a5).1 := by
  unfold State.finishTile
  extract_lets t x
  have h1 : r.Keeps (s0.recordChecks a2 x (x.epilogueTiles a2.it.batch a5) t).1 := State.recordChecks_keeps _ _ _ _ h0
  generalize s0.recordChecks a2 x (x.epilogueTiles a2.it.batch a5) t = c at *
  obtain ⟨s1, ok⟩ := c
  dsimp only at *
  split
  · exact h1
  · have h2 (f : _) : r.Keeps (s1.modTile a1 fun t => x.vectorRegs a2.it.batch a5 f t) := State.modTile_keeps h1 fun t q => by rw [Feed.vectorRegs_quarantined]; exact q
    split
    · exact State.writeScores_keeps _ _ _ _ _ _ (State.jigWrite_keeps _ _ _ _ (State.countJig_keeps _ _ (h2 _)))
    · exact State.writeCaptures_keeps _ _ _ _ _ _ (State.jigTile_keeps _ _ _ _ _ _ (h2 _))

theorem State.combineFrame_keeps {r : State} {s0 : State} (a1 : _) (a2 : _) (a3 : _) (a4 : _) (a5 : _) (h0 : r.Keeps s0) : r.Keeps (State.combineFrame s0 a1 a2 a3 a4 a5).1 := by
  unfold State.combineFrame
  extract_lets y0 y1 y2 y3 y4 y5 y6 y7
  have h8 : r.Keeps y1 := by
    unfold y1
    apply State.dropWork_keeps
    exact h0
  try clear_value y1
  have h9 : r.Keeps y2 := by
    unfold y2
    apply State.readFrame_keeps
    exact h0
  try clear_value y2
  have h10 : r.Keeps y5 := by
    unfold y5
    apply State.Keeps.foldl
    · apply State.writePairs_keeps
      exact h9
    · intro s11 a12 h13
      try beta_reduce
      apply State.mark_keeps
      exact h13
  try clear_value y5
  have h14 : r.Keeps y6 := by
    unfold y6
    apply State.write_keeps
    exact h10
  try clear_value y6
  have h15 : r.Keeps y7 := by
    unfold y7
    apply State.write_keeps
    exact h14
  try clear_value y7
  split
  · split
    · dsimp only
      apply State.endPlain_keeps
      exact h8
    · exact h8
  · split
    · dsimp only
      apply State.modTile_keeps
      · exact h15
      · intro a24 h25
        try beta_reduce
        assumption
    · exact h14

theorem State.retireEntry_keeps {r : State} {s0 : State} (a1 : _) (a2 : _) (a3 : _) (a4 : _) (h0 : r.Keeps s0) : r.Keeps (State.retireEntry s0 a1 a2 a3 a4) := by
  unfold State.retireEntry
  extract_lets p s1 free
  have h1 : r.Keeps s1 := State.modTile_keeps h0 fun t q => by rw [Tile.postWaiting_quarantined]; exact q
  have hf : ∀ x, r.Keeps x → r.Keeps (free x) := fun x h => State.modTile_keeps h fun _ q => q
  clear_value s1 free
  split
  · next v g _ _ _ =>
    have h2 := State.combineFrame_keeps a1 a2 g a3 p h1
    generalize s1.combineFrame a1 a2 g a3 p = c at *
    obtain ⟨s2, ok⟩ := c
    dsimp only at *
    split
    · exact h2
    · split
      · exact State.modTile_keeps h2 fun _ q => q
      · exact hf _ h2
  · next v _ _ =>
    have h2 := State.finishTile_keeps a1 a2 v (some a3) p (State.readFrame_keeps a1 (frameOffset a3.frame) h1)
    generalize (s1.readFrame a1 (frameOffset a3.frame)).finishTile a1 a2 v (some a3) p = c at *
    obtain ⟨s2, ok⟩ := c
    dsimp only at *
    split
    · exact State.modTile_keeps (State.write_keeps h2) fun _ q => q
    · exact h2
  · next v _ _ _ =>
    split
    · exact hf _ h1
    · have h2 := State.finishTile_keeps a1 a2 v (some a3) p (State.readFrame_keeps a1 (slotOffset a3.slot) h1)
      generalize (s1.readFrame a1 (slotOffset a3.slot)).finishTile a1 a2 v (some a3) p = c at *
      obtain ⟨s2, ok⟩ := c
      dsimp only at *
      split
      · exact hf _ h2
      · exact h2
  · exact h1

theorem State.evolveTile_keeps {r : State} {s0 : State} (a1 : _) (a2 : _) (a3 : _) (a4 : _) (a5 : _) (h0 : r.Keeps s0) : r.Keeps (State.evolveTile s0 a1 a2 a3 a4 a5).1 := by
  unfold State.evolveTile
  extract_lets y0 y1 y2 y3 y4 y5 y6
  have h7 : r.Keeps y2 := by
    unfold y2
    apply State.modOp_keeps
    exact h0
  try clear_value y2
  have h8 : r.Keeps y3 := by
    unfold y3
    apply State.jigWrite_keeps
    apply State.countJig_keeps
    apply State.countJig_keeps
    exact h7
  try clear_value y3
  have h9 : r.Keeps y4 := by
    unfold y4
    apply State.modTile_keeps
    · exact h8
    · intro a10 h11
      try beta_reduce
      assumption
  try clear_value y4
  split
  · dsimp only
    apply State.abortOp_keeps
    exact h0
  · dsimp only
    apply State.modJob_keeps
    exact h9

theorem State.retireTile_keeps {r : State} {s0 : State} (a1 : _) (a2 : _) (a3 : _) (a4 : _) (h0 : r.Keeps s0) : r.Keeps (State.retireTile s0 a1 a2 a3 a4) := by
  unfold State.retireTile
  extract_lets next
  have hn : ∀ c : State × Bool, r.Keeps c.1 → r.Keeps (next c) := by
    intro c h
    unfold next
    split
    · exact State.modTile_keeps h fun _ q => q
    · exact h
  clear_value next
  split
  · exact hn _ (State.jigWrite_keeps _ _ _ _ h0)
  · next v _ =>
    extract_lets x tL
    split
    · split
      · exact hn _ (State.finishTile_keeps _ _ _ _ _ h0)
      · exact hn _ (State.jigWrite_keeps _ _ _ _ h0)
    · split
      · have h1 := State.recordChecks_keeps a2 x (x.dTiles 0 a2.it.batch a4) a3 h0
        generalize s0.recordChecks a2 x (x.dTiles 0 a2.it.batch a4) a3 = c at *
        obtain ⟨s1, ok⟩ := c
        dsimp only at *
        split
        · exact h1
        · exact hn _ (State.finishTile_keeps _ _ _ _ _ h1)
      · have h1 := State.recordChecks_keeps a2 x (x.evolveTiles tL) a3 h0
        generalize s0.recordChecks a2 x (x.evolveTiles tL) a3 = c at *
        obtain ⟨s1, ok⟩ := c
        dsimp only at *
        split
        · exact h1
        · exact hn _ (State.evolveTile_keeps _ _ _ _ _ h1)

theorem State.retire_keeps {r : State} {s0 : State} (a1 : _) (a2 : _) (h0 : r.Keeps s0) : r.Keeps (State.retire s0 a1 a2) := by
  unfold State.retire
  extract_lets y0
  split
  · exact h0
  · split
    · exact h0
    · split
      · split
        · exact h0
        · split
          · rename_i z15 z16 z17 z18
            have h19 : r.Keeps z16 := by
              refine State.Keeps.of_fst z18 ?_
              apply State.unitFaults_keeps
              exact h0
            split
            · apply State.quarantine_keeps
              exact h19
            · apply State.retireEntry_keeps
              apply State.countActivity_keeps
              exact h19
      · split
        · exact h0
        · split
          · rename_i z28 z29 z30 z31
            have h32 : r.Keeps z29 := by
              refine State.Keeps.of_fst z31 ?_
              apply State.unitFaults_keeps
              exact h0
            split
            · apply State.quarantine_keeps
              exact h32
            · apply State.retireTile_keeps
              apply State.countActivity_keeps
              exact h32

theorem State.storeBlocks_keeps {r : State} {s0 : State} (a1 : _) (a2 : _) (a3 : _) (a4 : _) (h0 : r.Keeps s0) : r.Keeps (State.storeBlocks s0 a1 a2 a3 a4) := by
  unfold State.storeBlocks
  extract_lets y0 y1 y2 y3
  have h4 : r.Keeps y2 := by
    unfold y2
    split
    · exact h0
    · split
      · split
        · extract_lets y12
          have h13 : r.Keeps y12 := by
            unfold y12
            apply State.Keeps.foldl
            · exact h0
            · intro s14 a15 h16
              try beta_reduce
              apply State.jigWrite_keeps
              apply State.jigCount_keeps
              exact h16
          try clear_value y12
          apply State.jigWrite_keeps
          exact h13
      · split
        · split
          · extract_lets y23
            apply State.jigWrite_keeps
            apply State.jigWrite_keeps
            exact h0
        · apply State.jigWrite_keeps
          exact h0
  try clear_value y2
  split
  · apply State.Keeps.foldl
    · exact h4
    · intro s26 a27 h28
      try beta_reduce
      apply State.jigWrite_keeps
      apply State.countJig_keeps
      exact h28
  · exact h4

theorem State.storeItem_keeps {r : State} {s0 : State} (a1 : _) (a2 : _) (a3 : _) (h0 : r.Keeps s0) : r.Keeps (State.storeItem s0 a1 a2 a3) := by
  unfold State.storeItem
  extract_lets y0 y1 y2 y3 y4 y5 y6 y7
  have h8 : r.Keeps y1 := by
    unfold y1
    split
    · apply State.storeBlocks_keeps
      exact h0
    · exact h0
  try clear_value y1
  have h15 : r.Keeps y4 := by
    unfold y4
    split
    · split
      · apply State.modOp_keeps
        exact h8
      · exact h8
    · exact h8
  try clear_value y4
  have h24 : r.Keeps y5 := by
    unfold y5
    apply State.modOp_keeps
    exact h15
  try clear_value y5
  have h25 : r.Keeps y6 := by
    unfold y6
    apply State.countActivity_keeps
    exact h24
  try clear_value y6
  have h26 : r.Keeps y7 := by
    unfold y7
    apply State.modTile_keeps
    · exact h25
    · intro a27 h28
      try beta_reduce
      assumption
  try clear_value y7
  split
  · apply State.refuseAccess_keeps
    exact h8
  · apply State.toSkips_keeps
    exact h26

theorem State.beginStore_keeps {r : State} {s0 : State} (a1 : _) (h0 : r.Keeps s0) : r.Keeps (State.beginStore s0 a1) := by
  unfold State.beginStore
  extract_lets y0
  split
  · exact h0
  · extract_lets y6
    split
    · exact h0
    · split
      · split
        · apply State.pushMustWait_keeps
          exact h0
        · exact h0
      · apply State.storeItem_keeps
        exact h0

theorem State.itemDone_keeps {r : State} {s0 : State} (a1 : _) (a2 : _) (a3 : _) (a4 : _) (h0 : r.Keeps s0)
    (e : a2.quarantined = (s0.tile a1).quarantined) : r.Keeps (State.itemDone s0 a1 a2 a3 a4) := by
  unfold State.itemDone
  extract_lets c s1 s2 s3 s4 s5 s6
  have h1 : r.Keeps s1 := State.setTile_keeps h0 fun q => by rw [Tile.advance_quarantined, e]; exact q
  clear_value s1
  have h2 : r.Keeps s2 := State.modOp_keeps _ _ h1
  clear_value s2
  have h3 : r.Keeps s3 := by
    unfold s3
    split
    · exact State.itemFinal_keeps _ _ h2
    · exact h2
  clear_value s3
  have h4 : r.Keeps s4 := State.modJob_keeps _ _ h3
  clear_value s4
  have h5 : r.Keeps s5 := State.countSpan_keeps _ _ _ h4
  clear_value s5
  exact State.afterItems_keeps _ (State.settleLoad_keeps _ (State.carry_keeps _ _ _ _ h5))

theorem State.doneItem_keeps {r : State} {s0 : State} (a1 : _) (h0 : r.Keeps s0) : r.Keeps (State.doneItem s0 a1) := by
  unfold State.doneItem
  extract_lets t
  split
  · exact h0
  · split
    · exact State.settleLoad_keeps _ (State.setTile_keeps h0 fun q => by rw [Tile.advance_quarantined]; exact q)
    · exact State.itemDone_keeps _ _ _ _ h0 rfl

end Sys2Proof.Machine
end

