-- ==== Sys2Proof/Laws/KeepsStreams.lean ====
section
/-! SUPPORT. What the relation `State.Keeps` says of stream programs and training: each function respects it. -/

set_option maxRecDepth 20000

namespace Sys2Proof.Machine

theorem State.streamEffect_keeps {r : State} {s0 : State} (a1 : _) (a2 : _) (a3 : _) (h0 : r.Keeps s0) : r.Keeps (State.streamEffect s0 a1 a2 a3) := by
  unfold State.streamEffect
  extract_lets y0 y1 y2 y3
  have h4 : r.Keeps y2 := by
    unfold y2
    apply State.modStream_keeps
    exact h0
  try clear_value y2
  have h5 : r.Keeps y3 := by
    unfold y3
    apply State.modEntry_keeps
    exact h4
  try clear_value y3
  split
  · apply State.finishAt_keeps
    exact h5
  · split
    · split
      · exact h5
      · apply State.faultStream_keeps
        exact h5
    · exact h5

theorem State.streamReady_keeps {r : State} {s0 : State} (a1 : _) (a2 : _) (h0 : r.Keeps s0) : r.Keeps (State.streamReady s0 a1 a2) := by
  unfold State.streamReady
  extract_lets y0
  split
  · exact h0
  · split
    · apply State.modStream_keeps
      exact h0
    · exact h0

theorem State.streamBegins_keeps {r : State} {s0 : State} (a1 : _) (a2 : _) (a3 : _) (h0 : r.Keeps s0) : r.Keeps (State.streamBegins s0 a1 a2 a3) := by
  unfold State.streamBegins
  apply State.streamReady_keeps
  apply State.streamEffect_keeps
  exact h0

theorem State.shadowEffect_keeps {r : State} {s0 : State} (a1 : _) (a2 : _) (h0 : r.Keeps s0) : r.Keeps (State.shadowEffect s0 a1 a2) := by
  unfold State.shadowEffect
  split
  · apply State.streamBegins_keeps
    apply State.modStream_keeps
    exact h0
  · exact h0

theorem State.arm_keeps {r : State} {s0 : State} (a1 : _) (a2 : _) (a3 : _) (a4 : _) (h0 : r.Keeps s0) : r.Keeps (State.arm s0 a1 a2 a3 a4) := by
  unfold State.arm
  extract_lets y0 y1 y2 y3 y4
  have h5 : r.Keeps y4 := by
    unfold y4
    apply State.modEntry_keeps
    exact h0
  try clear_value y4
  split
  · apply State.streamBegins_keeps
    exact h0
  · apply State.streamBegins_keeps
    exact h0
  · apply State.streamBegins_keeps
    exact h0
  · apply State.modStream_keeps
    exact h5

theorem State.flagPut_keeps {r : State} {s0 : State} (a1 : _) (a2 : _) (a3 : _) (h0 : r.Keeps s0) : r.Keeps (State.flagPut s0 a1 a2 a3) := by
  unfold State.flagPut
  apply State.devWrite_keeps
  apply State.stpFlag_keeps
  exact h0

theorem State.xferPoisoned_keeps {r : State} {s0 : State} (a1 : _) (a2 : _) (a3 : _) (a4 : _) (a5 : _) (h0 : r.Keeps s0) : r.Keeps (State.xferPoisoned s0 a1 a2 a3 a4 a5) := by
  unfold State.xferPoisoned
  extract_lets y0 y1 y2 y3 y4
  have h5 : r.Keeps y1 := by
    unfold y1
    apply State.Keeps.foldl
    · exact h0
    · intro s6 a7 h8
      try beta_reduce
      apply State.mark_keeps
      exact h8
  try clear_value y1
  have h9 : r.Keeps y3 := by
    unfold y3
    apply State.modStream_keeps
    exact h5
  try clear_value y3
  have h10 : r.Keeps y4 := by
    unfold y4
    apply State.setWatermark_keeps
    apply State.modEntry_keeps
    exact h9
  try clear_value y4
  split
  · exact h10
  · apply State.faultStream_keeps
    exact h10

theorem State.xferEnd_keeps {r : State} {s0 : State} (a1 : _) (a2 : _) (h0 : r.Keeps s0) : r.Keeps (State.xferEnd s0 a1 a2) := by
  unfold State.xferEnd
  extract_lets y0 y1 y2
  have h3 : r.Keeps y2 := by
    unfold y2
    apply State.modStream_keeps
    exact h0
  try clear_value y2
  split
  · exact h0
  · extract_lets y9 y10 y11 y12
    have h13 : r.Keeps y10 := by
      unfold y10
      split
      · exact h3
      · apply State.flagPut_keeps
        exact h3
    try clear_value y10
    have h16 : r.Keeps y11 := by
      unfold y11
      apply State.modStream_keeps
      exact h13
    try clear_value y11
    have h17 : r.Keeps y12 := by
      unfold y12
      apply State.modEntry_keeps
      exact h16
    try clear_value y12
    split
    · apply State.xferPoisoned_keeps
      exact h0
    · split
      · apply State.streamReady_keeps
        apply State.modEntry_keeps
        exact h13
      · apply State.shadowEffect_keeps
        apply State.finishAt_keeps
        exact h17

theorem State.segFinal_keeps {r : State} {s0 : State} (a1 : _) (a2 : _) (a3 : _) (a4 : _) (a5 : _) (h0 : r.Keeps s0) : r.Keeps (State.segFinal s0 a1 a2 a3 a4 a5) := by
  unfold State.segFinal
  apply State.setWatermark_keeps
  apply State.setBit_keeps
  apply State.modStream_keeps
  exact h0

theorem State.segAck_keeps {r : State} {s0 : State} (a1 : _) (a2 : _) (a3 : _) (a4 : _) (a5 : _) (h0 : r.Keeps s0) : r.Keeps (State.segAck s0 a1 a2 a3 a4 a5) := by
  unfold State.segAck
  extract_lets y0 y1 y2
  have h3 : r.Keeps y2 := by
    unfold y2
    apply State.modStream_keeps
    exact h0
  try clear_value y2
  split
  · exact h0
  · split
    · exact h0
    · extract_lets y11 y12
      have h13 : r.Keeps y12 := by
        unfold y12
        split
        · apply State.segFinal_keeps
          exact h3
        · exact h3
      try clear_value y12
      split
      · exact h3
      · split
        · apply State.xferEnd_keeps
          exact h13
        · exact h13

theorem State.xferSpoils_keeps {r : State} {s0 : State} (a1 : _) (a2 : _) (a3 : _) (a4 : _) (h0 : r.Keeps s0) : r.Keeps (State.xferSpoils s0 a1 a2 a3 a4) := by
  unfold State.xferSpoils
  extract_lets y0
  apply State.setWatermark_keeps
  apply State.modEntry_keeps
  apply State.modStream_keeps
  exact h0

theorem State.xferRefused_keeps {r : State} {s0 : State} (a1 : _) (a2 : _) (a3 : _) (a4 : _) (h0 : r.Keeps s0) : r.Keeps (State.xferRefused s0 a1 a2 a3 a4) := by
  unfold State.xferRefused
  extract_lets y0 y1
  have h2 : r.Keeps y1 := by
    unfold y1
    apply State.xferSpoils_keeps
    apply State.dropWork_keeps
    exact h0
  try clear_value y1
  apply State.faultStream_keeps
  apply State.modStream_keeps
  exact h2

theorem State.emit_keeps {r : State} {s0 : State} (a1 : _) (a2 : _) (a3 : _) (a4 : _) (a5 : _) (a6 : _) (a7 : _) (h0 : r.Keeps s0) : r.Keeps (State.emit s0 a1 a2 a3 a4 a5 a6 a7) := by
  unfold State.emit
  extract_lets y0 y1 y2 y3 y4 y5 y6
  have h7 : r.Keeps y3 := by
    unfold y3
    apply State.modStream_keeps
    exact h0
  try clear_value y3
  have h8 : r.Keeps y4 := by
    unfold y4
    split
    · exact h7
    · apply State.xferSpoils_keeps
      exact h7
  try clear_value y4
  have h11 : r.Keeps y5 := by
    unfold y5
    apply State.Keeps.foldl
    · exact h8
    · intro s12 a13 h14
      try beta_reduce
      apply State.readEcc_keeps
      exact h14
  try clear_value y5
  have h15 : r.Keeps y6 := by
    unfold y6
    split
    · apply State.Keeps.foldl
      · exact h11
      · intro s17 a18 h19
        try beta_reduce
        apply State.carryMarked_keeps
        exact h19
    · exact h11
  try clear_value y6
  split
  · apply State.xferRefused_keeps
    exact h11
  · split
    · apply State.modSkip_keeps
      exact h15
    · apply State.Keeps.foldl
      · exact h15
      · intro s28 a29 h30
        try beta_reduce
        split
        · apply State.modSkip_keeps
          exact h30
        · extract_lets y36
          have h37 : r.Keeps y36 := by
            unfold y36
            apply State.performWrite_keeps
            apply State.touch_keeps
            exact h30
          try clear_value y36
          split
          · apply State.segAck_keeps
            exact h37
          · exact h37

theorem State.startXfer_keeps {r : State} {s0 : State} (a1 : _) (a2 : _) (a3 : _) (a4 : _) (a5 : _) (a6 : _) (h0 : r.Keeps s0) : r.Keeps (State.startXfer s0 a1 a2 a3 a4 a5 a6) := by
  unfold State.startXfer
  extract_lets y0 y1 y2 y3 y4 y5 y6 y7 y8
  have h9 : r.Keeps y0 := by
    unfold y0
    apply State.startEntry_keeps
    exact h0
  try clear_value y0
  have h10 : r.Keeps y1 := by
    unfold y1
    apply State.modStream_keeps
    exact h9
  try clear_value y1
  have h11 : r.Keeps y3 := by
    unfold y3
    apply State.Keeps.foldl
    · exact h10
    · intro s12 a13 h14
      try beta_reduce
      apply State.remotePort_keeps
      exact h14
  try clear_value y3
  have h15 : r.Keeps y5 := by
    unfold y5
    apply State.Keeps.foldl
    · exact h11
    · intro s16 a17 h18
      try beta_reduce
      apply State.readEcc_keeps
      exact h18
  try clear_value y5
  have h19 : r.Keeps y7 := by
    unfold y7
    split
    · apply State.Keeps.foldl
      · exact h10
      · intro s21 a22 h23
        try beta_reduce
        apply State.carry_keeps
        exact h23
    · exact h10
  try clear_value y7
  have h25 : r.Keeps y8 := by
    unfold y8
    apply State.Keeps.foldl
    · exact h19
    · intro s26 a27 h28
      try beta_reduce
      split
      · apply State.modSkip_keeps
        exact h28
      · exact h28
  try clear_value y8
  split
  · apply State.emit_keeps
    exact h15
  · apply State.Keeps.foldl
    · exact h25
    · intro s39 a40 h41
      try beta_reduce
      apply State.pump_keeps
      exact h41

theorem State.transferStart_keeps {r : State} {s0 : State} (a1 : _) (a2 : _) (a3 : _) (h0 : r.Keeps s0) : r.Keeps (State.transferStart s0 a1 a2 a3) := by
  unfold State.transferStart
  extract_lets y0
  split
  · exact h0
  · extract_lets y6
    split
    · exact h0
    · apply State.startXfer_keeps
      exact h0

theorem State.unstage_keeps {r : State} {s0 : State} (a1 : _) (a2 : _) (a3 : _) (a4 : _) (a5 : _) (h0 : r.Keeps s0) : r.Keeps (State.unstage s0 a1 a2 a3 a4 a5) := by
  unfold State.unstage
  apply State.Keeps.foldl
  · exact h0
  · intro s0 a1 h2
    try beta_reduce
    apply State.modSkip_keeps
    exact h2

theorem State.streamMoves_keeps {r : State} {s0 : State} (a1 : _) (a2 : _) (a3 : _) (a4 : _) (h0 : r.Keeps s0) : r.Keeps (State.streamMoves s0 a1 a2 a3 a4) := by
  unfold State.streamMoves
  extract_lets y0
  split
  · exact h0
  · extract_lets y6 y7 y8 y9 y10
    have h11 : r.Keeps y10 := by
      unfold y10
      apply State.unstage_keeps
      exact h0
    try clear_value y10
    split
    · exact h0
    · apply State.emit_keeps
      apply State.modStream_keeps
      exact h11

theorem State.streamData_keeps {r : State} {s0 : State} (a1 : _) (a2 : _) (h0 : r.Keeps s0) : r.Keeps (State.streamData s0 a1 a2) := by
  unfold State.streamData
  extract_lets y0 y1 y2
  have h3 : r.Keeps y2 := by
    unfold y2
    apply State.modSkip_keeps
    exact h0
  try clear_value y2
  apply State.Keeps.foldl
  · exact h3
  · intro s4 a5 h6
    try beta_reduce
    apply State.streamMoves_keeps
    exact h6

theorem State.skipReturn_keeps {r : State} {s0 : State} (a1 : _) (a2 : _) (h0 : r.Keeps s0) : r.Keeps (State.skipReturn s0 a1 a2) := by
  unfold State.skipReturn
  apply State.streamData_keeps
  apply State.readReturn_keeps
  exact h0

theorem State.hostEnded_keeps {r : State} {s0 : State} (a1 : _) (a2 : _) (a3 : _) (h0 : r.Keeps s0) : r.Keeps (State.hostEnded s0 a1 a2 a3) := by
  unfold State.hostEnded
  extract_lets y0 y1 y2 y3
  have h4 : r.Keeps y3 := by
    unfold y3
    apply State.Keeps.foldl
    · exact h0
    · intro s5 a6 h7
      try beta_reduce
      extract_lets y8 y9
      have h10 : r.Keeps y9 := by
        unfold y9
        apply State.modStream_keeps
        exact h7
      try clear_value y9
      split
      · apply State.faultStream_keeps
        exact h10
      · apply State.streamReady_keeps
        exact h10
  try clear_value y3
  exact h4.same rfl rfl rfl rfl rfl rfl

theorem State.writeBits_keeps {r : State} {s0 : State} (a1 : _) (a2 : _) (a3 : _) (a4 : _) (h0 : r.Keeps s0) : r.Keeps (State.writeBits s0 a1 a2 a3 a4) := by
  unfold State.writeBits
  extract_lets y0 y1 y2 y3 y4
  apply State.devWrite_keeps
  exact h0

theorem State.applyFirst_keeps {r : State} {s0 : State} (a1 : _) (a2 : _) (h0 : r.Keeps s0) : r.Keeps (State.applyFirst s0 a1 a2) := by
  unfold State.applyFirst
  split
  · exact h0
  · split
    · extract_lets y14 y15 y16 y17 y18 y19 y20 y21
      have h22 : r.Keeps y20 := by
        unfold y20
        apply State.Keeps.foldl
        · exact h0
        · intro s23 a24 h25
          try beta_reduce
          extract_lets y26 y27 y28
          have h29 : r.Keeps y27 := by
            unfold y27
            apply State.carry_keeps
            exact h25
          try clear_value y27
          have h30 : r.Keeps y28 := by
            unfold y28
            apply State.writeBits_keeps
            exact h29
          try clear_value y28
          split
          · exact h30
          · apply State.writeBits_keeps
            exact h30
      try clear_value y20
      have h33 : r.Keeps y21 := by
        unfold y21
        apply State.modOp_keeps
        exact h22
      try clear_value y21
      apply State.setWatermark_keeps
      exact h33
    · exact h0

theorem State.applyEnd_keeps {r : State} {s0 : State} (a1 : _) (h0 : r.Keeps s0) : r.Keeps (State.applyEnd s0 a1) := by
  unfold State.applyEnd
  split
  · exact h0
  · split
    · exact h0
    · extract_lets y7
      have h8 : r.Keeps y7 := by
        unfold y7
        apply State.modOp_keeps
        apply State.applyFirst_keeps
        exact h0
      try clear_value y7
      split
      · apply State.completeOp_keeps
        exact h8
      · exact h8

theorem State.beginCancel_keeps {r : State} {s0 : State} (a1 : _) (a2 : _) (h0 : r.Keeps s0) : r.Keeps (State.beginCancel s0 a1 a2) := by
  unfold State.beginCancel
  split
  · apply State.modWork_keeps
    exact h0
  · extract_lets y2 y3
    split
    · rename_i z4 z5 z6 z7
      have h8 : r.Keeps z5 := by
        refine State.Keeps.of_fst z7 ?_
        apply State.dropWork_keeps
        exact h0
      extract_lets y9 y10 y11 y12
      have h13 : r.Keeps y10 := by
        unfold y10
        split
        · apply State.freshen_keeps
          apply State.applyFirst_keeps
          exact h8
        · exact h8
      try clear_value y10
      have h16 : r.Keeps y11 := by
        unfold y11
        apply State.modWork_keeps
        exact h13
      try clear_value y11
      have h17 : r.Keeps y12 := by
        unfold y12
        split
        · apply State.modStream_keeps
          exact h16
        · exact h16
      try clear_value y12
      split
      · apply State.modWork_keeps
        exact h17
      · exact h17

theorem State.dropUnrun_keeps {r : State} {s0 : State} (a1 : _) (h0 : r.Keeps s0) : r.Keeps (State.dropUnrun s0 a1) := by
  unfold State.dropUnrun
  extract_lets y0
  have h1 : r.Keeps y0 := by
    unfold y0
    split
    · apply State.endSpan_keeps
      exact h0
    · exact h0
  try clear_value y0
  split
  · split
    · split
      · apply State.finishAt_keeps
        apply State.modStream_keeps
        exact h1
      · apply State.finishAt_keeps
        exact h1
    · apply State.finishAt_keeps
      exact h1
  · split
    · apply State.finishAt_keeps
      apply State.pushEnded_keeps
      exact h1
    · apply State.finishAt_keeps
      exact h1

theorem State.endCancellers_keeps {r : State} {s0 : State} (a1 : _) (a2 : _) (a3 : _) (a4 : _) (h0 : r.Keeps s0) : r.Keeps (State.endCancellers s0 a1 a2 a3 a4) := by
  unfold State.endCancellers
  apply State.Keeps.foldl
  · exact h0
  · intro s0 a1 h2
    try beta_reduce
    split
    · split
      · apply State.finish_keeps
        exact h2
      · exact h2
    · exact h2

theorem State.cancelled_keeps {r : State} {s0 : State} (a1 : _) (h0 : r.Keeps s0) : r.Keeps (State.cancelled s0 a1) := by
  unfold State.cancelled
  split
  · exact h0
  · split
    · exact h0
    · extract_lets y7 y8 y9 y10 y11 y12
      have h13 : r.Keeps y7 := by
        unfold y7
        split
        · apply State.endSpan_keeps
          exact h0
        · exact h0
      try clear_value y7
      have h23 : r.Keeps y10 := by
        unfold y10
        apply State.finishAt_keeps
        exact h13
      try clear_value y10
      have h24 : r.Keeps y11 := by
        unfold y11
        apply State.modStream_keeps
        exact h23
      try clear_value y11
      split
      · apply State.shadowEffect_keeps
        apply State.endCancellers_keeps
        exact h24
      · split
        · extract_lets y30
          have h31 : r.Keeps y30 := by
            unfold y30
            apply State.endPlain_keeps
            exact h13
          try clear_value y30
          apply State.endCancellers_keeps
          exact h31
        · apply State.endCancellers_keeps
          apply State.finishAt_keeps
          exact h13

theorem State.judged_keeps {r : State} {s0 : State} (a1 : _) (a2 : _) (a3 : _) (h0 : r.Keeps s0) : r.Keeps (State.judged s0 a1 a2 a3) := by
  unfold State.judged
  extract_lets y0 y1
  apply State.Keeps.foldl
  · exact h0
  · intro s2 a3 h4
    try beta_reduce
    apply State.modCtx_keeps
    exact h4

theorem State.barrierEnd_keeps {r : State} {s0 : State} (a1 : _) (h0 : r.Keeps s0) : r.Keeps (State.barrierEnd s0 a1) := by
  unfold State.barrierEnd
  split
  · exact h0
  · extract_lets h bad aborted gone f1 f2 fail s1
    have hf : ∀ st, r.Keeps (fail st) := fun st =>
      State.judged_keeps _ _ _ (State.finish_keeps _ _ _ (State.modJob_keeps _ _ (State.failBehind_keeps _ _ h0)))
    have h1 : r.Keeps s1 := State.signal_keeps _ (State.judged_keeps _ _ _ (State.finish_keeps _ _ _ h0))
    clear_value fail s1
    (repeat' split) <;> first | exact h0 | exact h1 | exact hf _ | exact State.flagPut_keeps _ _ _ h1

theorem State.closeSets_keeps {r : State} {s0 : State} (a1 : _) (h0 : r.Keeps s0) : r.Keeps (State.closeSets s0 a1) := by
  unfold State.closeSets
  split
  · exact h0
  · apply State.Keeps.foldl
    · exact h0
    · intro s5 a6 h7
      try beta_reduce
      apply State.closeSet_keeps
      exact h7

theorem State.newAttempt_keeps {r : State} {s0 : State} (a1 : _) (a2 : _) (a3 : _) (h0 : r.Keeps s0) : r.Keeps (State.newAttempt s0 a1 a2 a3) := by
  unfold State.newAttempt
  extract_lets y0 y1 y2 y3 y4 y5 y6
  have h7 : r.Keeps y3 := by
    unfold y3
    apply State.Keeps.foldl
    · exact h0
    · intro s8 a9 h10
      try beta_reduce
      split
      · apply State.endSpan_keeps
        exact h10
      · exact h10
  try clear_value y3
  have h16 : r.Keeps y4 := by
    unfold y4
    apply State.closeSets_keeps
    exact h7
  try clear_value y4
  have h17 : r.Keeps y5 := by
    unfold y5
    apply State.Keeps.foldl
    · exact h16
    · intro s18 a19 h20
      try beta_reduce
      apply State.modCtx_keeps
      exact h20
  try clear_value y5
  have h21 : r.Keeps y6 := by
    unfold y6
    apply State.modJob_keeps
    exact h17
  try clear_value y6
  apply State.finish_keeps
  exact h21

theorem State.gradOpens_keeps {r : State} {s0 : State} (a1 : _) (h0 : r.Keeps s0) : r.Keeps (State.gradOpens s0 a1) := by
  unfold State.gradOpens
  split
  · exact h0
  · split
    · exact h0
    · split
      · exact h0
      · extract_lets y12 y13 y14 y15 y16 y17
        split
        · apply State.finish_keeps
          exact h0
        · split
          · apply State.finish_keeps
            exact h0
          · split
            · apply State.finish_keeps
              exact h0
            · extract_lets y27
              apply State.finish_keeps
              apply State.modJob_keeps
              exact h0

theorem State.phaseMarks_keeps {r : State} {s0 : State} (a1 : _) (h0 : r.Keeps s0) : r.Keeps (State.phaseMarks s0 a1) := by
  unfold State.phaseMarks
  split
  · exact h0
  · split
    · exact h0
    · split
      · exact h0
      · extract_lets y12 y13 y14
        have h15 : r.Keeps y13 := by
          unfold y13
          apply State.endSpan_keeps
          exact h0
        try clear_value y13
        have h16 : r.Keeps y14 := by
          unfold y14
          apply State.modCtx_keeps
          exact h15
        try clear_value y14
        apply State.finish_keeps
        exact h16

theorem State.opStart_keeps {r : State} {s0 : State} (a1 : _) (h0 : r.Keeps s0) : r.Keeps (State.opStart s0 a1) := by
  unfold State.opStart
  split
  · exact h0
  · split
    · split
      · apply State.pushMustWait_keeps
        exact h0
      · apply State.pumpAll_keeps
        apply State.startOp_keeps
        exact h0
    · exact h0

end Sys2Proof.Machine
end

