-- ==== Sys2Proof/Laws/KeepsFabric.lean ====
section
/-! SUPPORT. What the relation `State.Keeps` says of the fabric and the collectives: each function respects it. -/

set_option maxRecDepth 20000

namespace Sys2Proof.Machine

theorem State.sendFlit_keeps {r : State} {s0 : State} (a1 : _) (a2 : _) (a3 : _) (a4 : _) (h0 : r.Keeps s0) : r.Keeps (State.sendFlit s0 a1 a2 a3 a4) := by
  unfold State.sendFlit
  split
  · exact h0
  · extract_lets y2
    apply State.send_keeps
    apply State.setPort_keeps
    exact h0

theorem State.sendTraining_keeps {r : State} {s0 : State} (a1 : _) (h0 : r.Keeps s0) : r.Keeps (State.sendTraining s0 a1) := by
  unfold State.sendTraining
  apply State.send_keeps
  exact h0

theorem State.pushFlits_keeps {r : State} {s0 : State} (a1 : _) (a2 : _) (h0 : r.Keeps s0) : r.Keeps (State.pushFlits s0 a1 a2) := by
  induction a2 generalizing s0 with
  | zero => exact h0
  | succ n ih =>
    unfold State.pushFlits
    extract_lets x pay s1
    split
    · exact h0
    · split
      · exact State.sendFlit_keeps _ _ _ _ h0
      · exact ih (State.sendFlit_keeps _ _ _ _ (State.setPort_keeps _ _ h0))

theorem State.pushAll_keeps {r : State} {s0 : State} (a1 : _) (h0 : r.Keeps s0) : r.Keeps (State.pushAll s0 a1) := by
  unfold State.pushAll
  apply State.pushFlits_keeps
  exact h0

theorem State.ackFlits_keeps {r : State} {s0 : State} (a1 : _) (a2 : _) (h0 : r.Keeps s0) : r.Keeps (State.ackFlits s0 a1 a2) := by
  unfold State.ackFlits
  split
  · apply State.pushAll_keeps
    apply State.modPort_keeps
    exact h0
  · exact h0

theorem State.replayFrom_keeps {r : State} {s0 : State} (a1 : _) (a2 : _) (h0 : r.Keeps s0) : r.Keeps (State.replayFrom s0 a1 a2) := by
  unfold State.replayFrom
  extract_lets y0 y1 y2
  have h3 : r.Keeps y2 := by
    unfold y2
    apply State.setPort_keeps
    exact h0
  try clear_value y2
  split
  · exact h0
  · apply State.Keeps.foldl
    · exact h3
    · intro s6 a7 h8
      try beta_reduce
      apply State.sendFlit_keeps
      exact h8

theorem State.resumePort_keeps {r : State} {s0 : State} (a1 : _) (h0 : r.Keeps s0) : r.Keeps (State.resumePort s0 a1) := by
  unfold State.resumePort
  split
  · apply State.replayFrom_keeps
    exact h0
  · exact h0

theorem State.sendNak_keeps {r : State} {s0 : State} (a1 : _) (h0 : r.Keeps s0) : r.Keeps (State.sendNak s0 a1) := by
  unfold State.sendNak
  apply State.sendFlit_keeps
  apply State.modPort_keeps
  exact h0

theorem State.flitTaken_keeps {r : State} {s0 : State} (a1 : _) (a2 : _) (h0 : r.Keeps s0) : r.Keeps (State.flitTaken s0 a1 a2) := by
  unfold State.flitTaken
  extract_lets y0 y1
  have h2 : r.Keeps y0 := by
    unfold y0
    apply State.modPort_keeps
    exact h0
  try clear_value y0
  have h3 : r.Keeps y1 := by
    unfold y1
    apply State.ackFlits_keeps
    exact h2
  try clear_value y1
  split
  · apply State.sendFlit_keeps
    exact h3
  · exact h3

theorem State.flitIn_keeps {r : State} {s0 : State} (a1 : _) (a2 : _) (h0 : r.Keeps s0) : r.Keeps (State.flitIn s0 a1 a2) := by
  unfold State.flitIn
  split
  · exact h0
  · extract_lets y2 y3
    have h4 : r.Keeps y2 := by
      unfold y2
      apply State.modPort_keeps
      exact h0
    try clear_value y2
    split
    · apply State.sendNak_keeps
      exact h4
    · split
      · apply State.sendNak_keeps
        apply State.modPort_keeps
        exact h4
      · split
        · apply State.ackFlits_keeps
          exact h4
        · split
          · apply State.flitTaken_keeps
            exact h4
          · split
            · apply State.ackFlits_keeps
              apply State.sendNak_keeps
              exact h4
            · apply State.ackFlits_keeps
              exact h4

theorem State.nakIn_keeps {r : State} {s0 : State} (a1 : _) (a2 : _) (h0 : r.Keeps s0) : r.Keeps (State.nakIn s0 a1 a2) := by
  unfold State.nakIn
  split
  · apply State.pushAll_keeps
    apply State.replayFrom_keeps
    apply State.modPort_keeps
    exact h0
  · exact h0

theorem State.ackTimer_keeps {r : State} {s0 : State} (a1 : _) (h0 : r.Keeps s0) : r.Keeps (State.ackTimer s0 a1) := by
  unfold State.ackTimer
  apply State.sendFlit_keeps
  exact h0

theorem State.noteUnacked_keeps {r : State} {s0 : State} (a1 : _) (a2 : _) (h0 : r.Keeps s0) : r.Keeps (State.noteUnacked s0 a1 a2) := by
  unfold State.noteUnacked
  exact h0.same rfl rfl rfl rfl rfl rfl

theorem State.routeOut_keeps {r : State} {s0 : State} (a1 : _) (h0 : r.Keeps s0) : r.Keeps (State.routeOut s0 a1) := by
  unfold State.routeOut
  split
  · split
    · exact h0.same rfl rfl rfl rfl rfl rfl
    · extract_lets y5 y6
      have h7 : r.Keeps y5 := by
        unfold y5
        apply State.send_keeps
        apply State.noteUnacked_keeps
        exact h0
      try clear_value y5
      apply State.pushAll_keeps
      apply State.modPort_keeps
      exact h7
  · extract_lets y10 y11
    have h12 : r.Keeps y10 := by
      unfold y10
      apply State.noteUnacked_keeps
      exact h0
    try clear_value y10
    exact h12.same rfl rfl rfl rfl rfl rfl

theorem State.sendPacket_keeps {r : State} {s0 : State} (a1 : _) (h0 : r.Keeps s0) : r.Keeps (State.sendPacket s0 a1) := by
  unfold State.sendPacket
  extract_lets y0 y1
  have h2 : r.Keeps y1 := by
    unfold y1
    split
    · exact h0.same rfl rfl rfl rfl rfl rfl
    · exact h0
  try clear_value y1
  apply State.routeOut_keeps
  exact h2

theorem State.sendPackets_keeps {r : State} {s0 : State} (a1 : _) (h0 : r.Keeps s0) : r.Keeps (State.sendPackets s0 a1) := by
  unfold State.sendPackets
  apply State.Keeps.foldl
  · exact h0
  · intro s0 a1 h2
    try beta_reduce
    apply State.sendPacket_keeps
    exact h2

theorem State.retryWaiting_keeps {r : State} {s0 : State} (h0 : r.Keeps s0) : r.Keeps (State.retryWaiting s0) := by
  unfold State.retryWaiting
  extract_lets y0 y1 y2
  have h3 : r.Keeps y2 := by
    unfold y2
    exact h0.same rfl rfl rfl rfl rfl rfl
  try clear_value y2
  apply State.Keeps.foldl
  · exact h3
  · intro s4 a5 h6
    try beta_reduce
    split
    · apply State.routeOut_keeps
      exact h6
    · exact h6.same rfl rfl rfl rfl rfl rfl

theorem State.portLost_keeps {r : State} {s0 : State} (a1 : _) (a2 : _) (h0 : r.Keeps s0) : r.Keeps (State.portLost s0 a1 a2) := by
  unfold State.portLost
  extract_lets y0 y1
  have h2 : r.Keeps y1 := by
    unfold y1
    apply State.modPort_keeps
    exact h0
  try clear_value y1
  apply State.Keeps.foldl
  · exact h2
  · intro s3 a4 h5
    try beta_reduce
    apply State.routeOut_keeps
    exact h5

theorem State.retrain_keeps {r : State} {s0 : State} (a1 : _) (a2 : _) (h0 : r.Keeps s0) : r.Keeps (State.retrain s0 a1 a2) := by
  unfold State.retrain
  extract_lets y0 y1
  split
  · exact h0
  · split
    · apply State.portLost_keeps
      exact h0
    · apply State.sendTraining_keeps
      apply State.setPort_keeps
      exact h0

theorem State.laneEvents_keeps {r : State} {s0 : State} (a1 : _) (a2 : _) (h0 : r.Keeps s0) : r.Keeps (State.laneEvents s0 a1 a2) := by
  unfold State.laneEvents
  apply State.Keeps.foldl
  · exact h0
  · intro s0 a1 h2
    try beta_reduce
    apply State.event_keeps
    exact h2

theorem State.comesUp_keeps {r : State} {s0 : State} (a1 : _) (a2 : _) (h0 : r.Keeps s0) : r.Keeps (State.comesUp s0 a1 a2) := by
  unfold State.comesUp
  extract_lets y0
  have h1 : r.Keeps y0 := by
    unfold y0
    apply State.modPort_keeps
    exact h0
  try clear_value y0
  apply State.retryWaiting_keeps
  apply State.pushAll_keeps
  apply State.resumePort_keeps
  exact h1

theorem State.noteMargin_keeps {r : State} {s0 : State} (a1 : _) (h0 : r.Keeps s0) : r.Keeps (State.noteMargin s0 a1) := by
  unfold State.noteMargin
  split
  · exact h0.same rfl rfl rfl rfl rfl rfl
  · exact h0

theorem State.trained_keeps {r : State} {s0 : State} (a1 : _) (a2 : _) (h0 : r.Keeps s0) : r.Keeps (State.trained s0 a1 a2) := by
  unfold State.trained
  extract_lets y0 y1 y2 y3 y4 y5
  have h6 : r.Keeps y3 := by
    unfold y3
    apply State.noteMargin_keeps
    apply State.laneEvents_keeps
    apply State.setPort_keeps
    exact h0
  try clear_value y3
  have h7 : r.Keeps y5 := by
    unfold y5
    exact h6.same rfl rfl rfl rfl rfl rfl
  try clear_value y5
  split
  · exact h0
  · split
    · apply State.portLost_keeps
      exact h7
    · apply State.comesUp_keeps
      exact h7

theorem State.enablePort_keeps {r : State} {s0 : State} (a1 : _) (a2 : _) (h0 : r.Keeps s0) : r.Keeps (State.enablePort s0 a1 a2) := by
  unfold State.enablePort
  extract_lets y0
  split
  · split
    · exact h0
    · split
      · apply State.setPort_keeps
        exact h0
      · apply State.sendTraining_keeps
        apply State.setPort_keeps
        exact h0
  · apply State.portLost_keeps
    apply State.modPort_keeps
    exact h0

theorem State.writeFid_keeps {r : State} {s0 : State} (a1 : _) (h0 : r.Keeps s0) : r.Keeps (State.writeFid s0 a1) := by
  unfold State.writeFid
  extract_lets y0 y1 y2
  have h3 : r.Keeps y2 := by
    unfold y2
    apply State.Keeps.foldl
    · exact h0.same rfl rfl rfl rfl rfl rfl
    · intro s4 a5 h6
      try beta_reduce
      apply State.resumePort_keeps
      exact h6
  try clear_value y2
  apply State.Keeps.foldl
  · apply State.retryWaiting_keeps
    exact h3
  · intro s7 a8 h9
    try beta_reduce
    apply State.pushAll_keeps
    exact h9

theorem State.dropped_keeps {r : State} {s0 : State} (h0 : r.Keeps s0) : r.Keeps (State.dropped s0) := by
  unfold State.dropped
  exact h0.same rfl rfl rfl rfl rfl rfl

theorem State.forward_keeps {r : State} {s0 : State} (a1 : _) (h0 : r.Keeps s0) : r.Keeps (State.forward s0 a1) := by
  unfold State.forward
  split
  · exact h0
  · apply State.routeOut_keeps
    exact h0

theorem State.receive_keeps {r : State} {s0 : State} (a1 : _) (a2 : _) (h0 : r.Keeps s0) (g2 : ∀ x0 x1 x2, r.Keeps x0 → r.Keeps (a2 x0 x1 x2)) : r.Keeps (State.receive s0 a1 a2) := by
  unfold State.receive
  split
  · apply State.forward_keeps
    exact h0
  · split
    · apply State.dropped_keeps
      exact h0
    · with_reducible apply g2
      exact h0

theorem State.released_keeps {r : State} {s0 : State} (a1 : _) (h0 : r.Keeps s0) : r.Keeps (State.released s0 a1) := by
  unfold State.released
  exact h0.same rfl rfl rfl rfl rfl rfl

theorem State.ackIn_keeps {r : State} {s0 : State} (a1 : _) (h0 : r.Keeps s0) : r.Keeps (State.ackIn s0 a1) := by
  unfold State.ackIn
  apply State.receive_keeps
  · exact h0
  · intro s0 a1 a2 h3
    try beta_reduce
    apply State.released_keeps
    exact h3

theorem State.ackTimeout_keeps {r : State} {s0 : State} (a1 : _) (h0 : r.Keeps s0) : r.Keeps (State.ackTimeout s0 a1) := by
  unfold State.ackTimeout
  split
  · apply State.routeOut_keeps
    exact h0
  · exact h0

theorem State.endColl_keeps {r : State} {s0 : State} (a1 : _) (a2 : _) (a3 : _) (h0 : r.Keeps s0) : r.Keeps (State.endColl s0 a1 a2 a3) := by
  unfold State.endColl
  apply State.finish_keeps
  exact h0

theorem State.failColl_keeps {r : State} {s0 : State} (a1 : _) (a2 : _) (h0 : r.Keeps s0) : r.Keeps (State.failColl s0 a1 a2) := by
  unfold State.failColl
  extract_lets y0
  apply State.endColl_keeps
  exact h0

theorem State.countAborts_keeps {r : State} {s0 : State} (a1 : _) (a2 : _) (h0 : r.Keeps s0) : r.Keeps (State.countAborts s0 a1 a2) := by
  unfold State.countAborts
  apply State.modJob_keeps
  exact h0

theorem State.endAttempt_keeps {r : State} {s0 : State} (a1 : _) (h0 : r.Keeps s0) : r.Keeps (State.endAttempt s0 a1) := by
  unfold State.endAttempt
  split
  · exact h0
  · extract_lets y5
    have h6 : r.Keeps y5 := by
      unfold y5
      apply State.modJob_keeps
      exact h0
    try clear_value y5
    apply State.Keeps.foldl
    · exact h6
    · intro s7 a8 h9
      try beta_reduce
      apply State.failColl_keeps
      exact h9

theorem State.abortAttempt_keeps {r : State} {s0 : State} (a1 : _) (h0 : r.Keeps s0) : r.Keeps (State.abortAttempt s0 a1) := by
  unfold State.abortAttempt
  apply State.endAttempt_keeps
  apply State.countAborts_keeps
  exact h0

theorem State.sendAbort_keeps {r : State} {s0 : State} (a1 : _) (a2 : _) (h0 : r.Keeps s0) : r.Keeps (State.sendAbort s0 a1 a2) := by
  unfold State.sendAbort
  split
  · exact h0
  · extract_lets y5 y6
    apply State.endAttempt_keeps
    apply State.countAborts_keeps
    apply State.sendPackets_keeps
    exact h0

theorem State.breakColl_keeps {r : State} {s0 : State} (a1 : _) (a2 : _) (a3 : _) (h0 : r.Keeps s0) : r.Keeps (State.breakColl s0 a1 a2 a3) := by
  unfold State.breakColl
  apply State.sendAbort_keeps
  apply State.failColl_keeps
  exact h0

theorem State.noteWait_keeps {r : State} {s0 : State} (a1 : _) (h0 : r.Keeps s0) : r.Keeps (State.noteWait s0 a1) := by
  unfold State.noteWait
  split
  · exact h0
  · split
    · extract_lets y11 y12
      have h13 : r.Keeps y12 := by
        unfold y12
        apply State.modColl_keeps
        exact h0
      try clear_value y12
      split
      · apply State.settle_keeps
        exact h13
      · exact h13
    · exact h0

theorem State.collIssue_keeps {r : State} {s0 : State} (a1 : _) (a2 : _) (a3 : _) (h0 : r.Keeps s0) : r.Keeps (State.collIssue s0 a1 a2 a3) := by
  unfold State.collIssue
  extract_lets y0 y1 y2 y3
  have h4 : r.Keeps y2 := by
    unfold y2
    apply State.modColl_keeps
    exact h0
  try clear_value y2
  have h5 : r.Keeps y3 := by
    unfold y3
    split
    · apply State.Keeps.foldl
      · exact h4
      · intro s7 a8 h9
        try beta_reduce
        apply State.carryMarked_keeps
        exact h9
    · exact h4
  try clear_value y3
  apply State.modSkip_keeps
  exact h5

theorem State.collWrite_keeps {r : State} {s0 : State} (a1 : _) (a2 : _) (a3 : _) (h0 : r.Keeps s0) : r.Keeps (State.collWrite s0 a1 a2 a3) := by
  unfold State.collWrite
  split
  · exact h0
  · apply State.modColl_keeps
    exact h0

theorem State.flushColl_keeps {r : State} {s0 : State} (a1 : _) (h0 : r.Keeps s0) : r.Keeps (State.flushColl s0 a1) := by
  unfold State.flushColl
  split
  · exact h0
  · split
    · split
      · apply State.Keeps.foldl
        · apply State.modColl_keeps
          exact h0
        · intro s12 a13 h14
          try beta_reduce
          apply State.collIssue_keeps
          exact h14
      · exact h0
    · exact h0

theorem State.collReads_keeps {r : State} {s0 : State} (a1 : _) (a2 : _) (h0 : r.Keeps s0) : r.Keeps (State.collReads s0 a1 a2) := by
  unfold State.collReads
  extract_lets y0
  apply State.modSkip_keeps
  exact h0

theorem State.sendStatic_keeps {r : State} {s0 : State} (a1 : _) (a2 : _) (a3 : _) (h0 : r.Keeps s0) : r.Keeps (State.sendStatic s0 a1 a2 a3) := by
  unfold State.sendStatic
  apply State.Keeps.foldl
  · exact h0
  · intro s0 a1 h2
    try beta_reduce
    split
    · split
      · apply State.sendPackets_keeps
        apply State.collReads_keeps
        apply State.modColl_keeps
        exact h2
      · exact h2
    · exact h2

theorem State.computeRoots_keeps {r : State} {s0 : State} (a1 : _) (a2 : _) (a3 : _) (h0 : r.Keeps s0) : r.Keeps (State.computeRoots s0 a1 a2 a3) := by
  unfold State.computeRoots
  apply State.Keeps.foldl
  · exact h0
  · intro s0 a1 h2
    try beta_reduce
    split
    · exact h2
    · extract_lets y8 y9 y10 y11
      have h12 : r.Keeps y11 := by
        unfold y11
        apply State.modColl_keeps
        exact h2
      try clear_value y11
      split
      · exact h2
      · split
        · exact h12
        · apply State.collWrite_keeps
          exact h12

theorem State.sendRoots_keeps {r : State} {s0 : State} (a1 : _) (a2 : _) (a3 : _) (h0 : r.Keeps s0) : r.Keeps (State.sendRoots s0 a1 a2 a3) := by
  unfold State.sendRoots
  apply State.Keeps.foldl
  · exact h0
  · intro s0 a1 h2
    try beta_reduce
    split
    · exact h2
    · split
      · exact h2
      · extract_lets y10 y11
        apply State.sendPackets_keeps
        apply State.modColl_keeps
        exact h2

theorem State.pumpColl_keeps {r : State} {s0 : State} (a1 : _) (h0 : r.Keeps s0) : r.Keeps (State.pumpColl s0 a1) := by
  unfold State.pumpColl
  split
  · exact h0
  · split
    · exact h0
    · split
      · exact h0
      · extract_lets y15 y16 y17
        have h18 : r.Keeps y15 := by
          unfold y15
          apply State.sendStatic_keeps
          exact h0
        try clear_value y15
        have h19 : r.Keeps y16 := by
          unfold y16
          split
          · apply State.sendRoots_keeps
            apply State.computeRoots_keeps
            exact h18
          · exact h18
        try clear_value y16
        have h27 : r.Keeps y17 := by
          unfold y17
          apply State.modColl_keeps
          exact h19
        try clear_value y17
        split
        · exact h19
        · split
          · exact h19
          · apply State.sendPackets_keeps
            exact h27

theorem State.heard_keeps {r : State} {s0 : State} (a1 : _) (a2 : _) (h0 : r.Keeps s0) : r.Keeps (State.heard s0 a1 a2) := by
  unfold State.heard
  apply State.modJob_keeps
  apply State.modColl_keeps
  exact h0

theorem State.greeting_keeps {r : State} {s0 : State} (a1 : _) (a2 : _) (a3 : _) (h0 : r.Keeps s0) : r.Keeps (State.greeting s0 a1 a2 a3) := by
  unfold State.greeting
  split
  · split
    · apply State.breakColl_keeps
      exact h0
    · extract_lets y6 y7
      have h8 : r.Keeps y6 := by
        unfold y6
        apply State.heard_keeps
        exact h0
      try clear_value y6
      have h9 : r.Keeps y7 := by
        unfold y7
        split
        · apply State.pumpColl_keeps
          apply State.modColl_keeps
          exact h8
        · apply State.modColl_keeps
          exact h8
      try clear_value y7
      apply State.noteWait_keeps
      apply State.flushColl_keeps
      exact h9
  · extract_lets y14
    split
    · exact h0
    · apply State.modJob_keeps
      exact h0

theorem State.greetingIn_keeps {r : State} {s0 : State} (a1 : _) (h0 : r.Keeps s0) : r.Keeps (State.greetingIn s0 a1) := by
  unfold State.greetingIn
  apply State.receive_keeps
  · exact h0
  · intro s0 a1 a2 h3
    try beta_reduce
    apply State.greeting_keeps
    exact h3

theorem State.takeData_keeps {r : State} {s0 : State} (a1 : _) (a2 : _) (a3 : _) (a4 : _) (h0 : r.Keeps s0) : r.Keeps (State.takeData s0 a1 a2 a3 a4) := by
  unfold State.takeData
  extract_lets y0 y1 y2
  have h3 : r.Keeps y1 := by
    unfold y1
    apply State.modColl_keeps
    apply State.heard_keeps
    exact h0
  try clear_value y1
  have h4 : r.Keeps y2 := by
    unfold y2
    apply State.collWrite_keeps
    exact h3
  try clear_value y2
  apply State.noteWait_keeps
  apply State.flushColl_keeps
  apply State.pumpColl_keeps
  exact h4

theorem State.delivers_keeps {r : State} {s0 : State} (a1 : _) (a2 : _) (a3 : _) (h0 : r.Keeps s0) : r.Keeps (State.delivers s0 a1 a2 a3) := by
  unfold State.delivers
  extract_lets y0 y1
  have h2 : r.Keeps y0 := by
    unfold y0
    apply State.countLink_keeps
    apply State.sendPacket_keeps
    exact h0
  try clear_value y0
  have h3 : r.Keeps y1 := by
    unfold y1
    apply State.modJob_keeps
    exact h2
  try clear_value y1
  split
  · exact h2
  · split
    · exact h3
    · split
      · exact h3
      · apply State.takeData_keeps
        exact h3

theorem State.dataIn_keeps {r : State} {s0 : State} (a1 : _) (h0 : r.Keeps s0) : r.Keeps (State.dataIn s0 a1) := by
  unfold State.dataIn
  apply State.receive_keeps
  · exact h0
  · intro s0 a1 a2 h3
    try beta_reduce
    apply State.delivers_keeps
    exact h3

theorem State.abortPacket_keeps {r : State} {s0 : State} (a1 : _) (a2 : _) (a3 : _) (h0 : r.Keeps s0) : r.Keeps (State.abortPacket s0 a1 a2 a3) := by
  unfold State.abortPacket
  split
  · split
    · apply State.countAborts_keeps
      exact h0
    · apply State.abortAttempt_keeps
      exact h0
  · apply State.modJob_keeps
    apply State.countAborts_keeps
    exact h0

theorem State.abortIn_keeps {r : State} {s0 : State} (a1 : _) (h0 : r.Keeps s0) : r.Keeps (State.abortIn s0 a1) := by
  unfold State.abortIn
  apply State.receive_keeps
  · exact h0
  · intro s0 a1 a2 h3
    try beta_reduce
    apply State.abortPacket_keeps
    exact h3

theorem State.earlyAbort_keeps {r : State} {s0 : State} (a1 : _) (h0 : r.Keeps s0) : r.Keeps (State.earlyAbort s0 a1) := by
  unfold State.earlyAbort
  split
  · exact h0
  · split
    · apply State.endAttempt_keeps
      exact h0
    · exact h0

theorem State.launchColl_keeps {r : State} {s0 : State} (a1 : _) (a2 : _) (a3 : _) (a4 : _) (h0 : r.Keeps s0) : r.Keeps (State.launchColl s0 a1 a2 a3 a4) := by
  unfold State.launchColl
  extract_lets y0 y1 y2 y3 y4 y5 y6 y7 y8 y9 y10
  have h11 : r.Keeps y2 := by
    unfold y2
    apply State.startEntry_keeps
    exact h0
  try clear_value y2
  have h12 : r.Keeps y3 := by
    unfold y3
    apply State.modWork_keeps
    exact h11
  try clear_value y3
  have h13 : r.Keeps y6 := by
    unfold y6
    apply State.modJob_keeps
    exact h12
  try clear_value y6
  have h14 : r.Keeps y7 := by
    unfold y7
    apply State.sendPackets_keeps
    exact h13
  try clear_value y7
  have h15 : r.Keeps y8 := by
    unfold y8
    apply State.collWrite_keeps
    exact h14
  try clear_value y8
  have h16 : r.Keeps y9 := by
    unfold y9
    apply State.flushColl_keeps
    apply State.pumpColl_keeps
    exact h15
  try clear_value y9
  have h17 : r.Keeps y10 := by
    unfold y10
    apply State.Keeps.foldl
    · exact h16
    · intro s18 a19 h20
      try beta_reduce
      split
      · apply State.greeting_keeps
        exact h20
      · exact h20
  try clear_value y10
  apply State.noteWait_keeps
  exact h17

theorem State.startColl_keeps {r : State} {s0 : State} (a1 : _) (h0 : r.Keeps s0) : r.Keeps (State.startColl s0 a1) := by
  unfold State.startColl
  split
  · exact h0
  · split
    · exact h0
    · split
      · exact h0
      · split
        · apply State.failColl_keeps
          exact h0
        · extract_lets y14 y15
          split
          · apply State.failColl_keeps
            exact h0
          · split
            · apply State.failColl_keeps
              exact h0
            · split
              · apply State.failColl_keeps
                exact h0
              · apply State.launchColl_keeps
                exact h0

theorem State.peerLate_keeps {r : State} {s0 : State} (a1 : _) (h0 : r.Keeps s0) : r.Keeps (State.peerLate s0 a1) := by
  unfold State.peerLate
  split
  · exact h0
  · split
    · split
      · apply State.breakColl_keeps
        exact h0
      · exact h0
    · exact h0

theorem State.resultColl_keeps {r : State} {s0 : State} (a1 : _) (a2 : _) (a3 : _) (a4 : _) (h0 : r.Keeps s0) : r.Keeps (State.resultColl s0 a1 a2 a3 a4) := by
  unfold State.resultColl
  extract_lets y0 y1 y2
  split
  · extract_lets y9 y10 y11
    have h12 : r.Keeps y11 := by
      unfold y11
      split
      · exact h0
      · apply State.devWrite_keeps
        apply State.carry_keeps
        exact h0
    try clear_value y11
    apply State.endColl_keeps
    exact h12
  · extract_lets y19 y20 y21 y22
    have h23 : r.Keeps y20 := by
      unfold y20
      apply State.Keeps.foldl
      · exact h0
      · intro s24 a25 h26
        try beta_reduce
        apply State.devWrite_keeps
        apply State.carry_keeps
        exact h26
    try clear_value y20
    split
    · apply State.endColl_keeps
      exact h23
    · split
      · apply State.endColl_keeps
        exact h23
      · apply State.endColl_keeps
        apply State.freshen_keeps
        apply State.freshen_keeps
        exact h23

theorem State.collAck_keeps {r : State} {s0 : State} (a1 : _) (a2 : _) (h0 : r.Keeps s0) : r.Keeps (State.collAck s0 a1 a2) := by
  unfold State.collAck
  extract_lets y0
  have h1 : r.Keeps y0 := by
    unfold y0
    apply State.modColl_keeps
    exact h0
  try clear_value y0
  split
  · apply State.setWatermark_keeps
    exact h1
  · exact h1

end Sys2Proof.Machine
end

