-- ==== Sys2Proof/Laws/KeepsHost.lean ====
section
/-! SUPPORT. What the relation `State.Keeps` says of the host port and the jobs: each function respects it. -/

set_option maxRecDepth 20000

namespace Sys2Proof.Machine

theorem State.hostCount_keeps {r : State} {s0 : State} (a1 : _) (h0 : r.Keeps s0) : r.Keeps (State.hostCount s0 a1) := by
  unfold State.hostCount
  exact h0.same rfl rfl rfl rfl rfl rfl

theorem State.tx_keeps {r : State} {s0 : State} (a1 : _) (h0 : r.Keeps s0) : r.Keeps (State.tx s0 a1) := by
  unfold State.tx
  exact h0.same rfl rfl rfl rfl rfl rfl

theorem State.txResume_keeps {r : State} {s0 : State} (h0 : r.Keeps s0) : r.Keeps (State.txResume s0) := by
  unfold State.txResume
  split
  · exact h0
  · apply State.Keeps.foldl
    · exact h0.same rfl rfl rfl rfl rfl rfl
    · intro s2 a3 h4
      try beta_reduce
      apply State.hostCount_keeps
      apply State.send_keeps
      exact h4

theorem State.passTo_keeps {r : State} {s0 : State} (a1 : _) (h0 : r.Keeps s0) : r.Keeps (State.passTo s0 a1) := by
  unfold State.passTo
  apply State.txResume_keeps
  exact h0.same rfl rfl rfl rfl rfl rfl

theorem State.txQp_keeps {r : State} {s0 : State} (a1 : _) (a2 : _) (h0 : r.Keeps s0) : r.Keeps (State.txQp s0 a1 a2) := by
  unfold State.txQp
  apply State.tx_keeps
  exact h0

theorem State.txsQp_keeps {r : State} {s0 : State} (a1 : _) (a2 : _) (h0 : r.Keeps s0) : r.Keeps (State.txsQp s0 a1 a2) := by
  unfold State.txsQp
  apply State.Keeps.foldl
  · exact h0
  · intro s0 a1 h2
    try beta_reduce
    apply State.txQp_keeps
    exact h2

theorem State.hostCounts_keeps {r : State} {s0 : State} (a1 : _) (a2 : _) (h0 : r.Keeps s0) : r.Keeps (State.hostCounts s0 a1 a2) := by
  unfold State.hostCounts
  exact h0.same rfl rfl rfl rfl rfl rfl

theorem State.hostRetrain_keeps {r : State} {s0 : State} (h0 : r.Keeps s0) : r.Keeps (State.hostRetrain s0) := by
  unfold State.hostRetrain
  split
  · exact h0
  · exact h0.same rfl rfl rfl rfl rfl rfl

theorem State.hostLaneLost_keeps {r : State} {s0 : State} (a1 : _) (h0 : r.Keeps s0) : r.Keeps (State.hostLaneLost s0 a1) := by
  unfold State.hostLaneLost
  split
  · apply State.hostRetrain_keeps
    exact h0
  · exact h0

theorem State.hostTrained_keeps {r : State} {s0 : State} (a1 : _) (h0 : r.Keeps s0) : r.Keeps (State.hostTrained s0 a1) := by
  unfold State.hostTrained
  split
  · exact h0
  · extract_lets y2 y3 y4
    exact h0.same rfl rfl rfl rfl rfl rfl

theorem State.dropFrame_keeps {r : State} {s0 : State} (a1 : _) (h0 : r.Keeps s0) : r.Keeps (State.dropFrame s0 a1) := by
  unfold State.dropFrame
  split
  · exact h0
  · extract_lets y2
    have h3 : r.Keeps y2 := by
      unfold y2
      apply State.hostCount_keeps
      exact h0
    try clear_value y2
    split
    · apply State.hostCount_keeps
      exact h3
    · apply State.hostCount_keeps
      exact h3
    · apply State.hostCount_keeps
      apply State.hostCounts_keeps
      apply State.hostCounts_keeps
      exact h3
    · apply State.hostCount_keeps
      exact h3
    · apply State.hostCount_keeps
      exact h3
    · apply State.hostCount_keeps
      exact h3
    · apply State.hostCount_keeps
      exact h3

theorem State.rxFills_keeps {r : State} {s0 : State} (a1 : _) (h0 : r.Keeps s0) : r.Keeps (State.rxFills s0 a1) := by
  unfold State.rxFills
  extract_lets y0 y1 y2
  have h3 : r.Keeps y1 := by
    unfold y1
    split
    · apply State.hostCount_keeps
      apply State.send_keeps
      exact h0
    · exact h0
  try clear_value y1
  exact h3.same rfl rfl rfl rfl rfl rfl

theorem State.frameCounted_keeps {r : State} {s0 : State} (a1 : _) (h0 : r.Keeps s0) : r.Keeps (State.frameCounted s0 a1) := by
  unfold State.frameCounted
  apply State.rxFills_keeps
  apply State.hostCounts_keeps
  apply State.hostCount_keeps
  exact h0

theorem State.frameIn_keeps {r : State} {s0 : State} (a1 : _) (a2 : _) (a3 : _) (a4 : _) (h0 : r.Keeps s0) (g4 : ∀ x0, r.Keeps x0 → r.Keeps (a4 x0)) : r.Keeps (State.frameIn s0 a1 a2 a3 a4) := by
  unfold State.frameIn
  split
  · exact h0
  · extract_lets y2
    have h3 : r.Keeps y2 := by
      unfold y2
      apply State.frameCounted_keeps
      exact h0
    try clear_value y2
    split
    · exact h3
    · split
      · apply State.hostCount_keeps
        exact h3
      · split
        · apply State.hostCount_keeps
          exact h3
        · with_reducible apply g4
          exact h3

theorem State.arp_keeps {r : State} {s0 : State} (a1 : _) (a2 : _) (a3 : _) (h0 : r.Keeps s0) : r.Keeps (State.arp s0 a1 a2 a3) := by
  unfold State.arp
  apply State.frameIn_keeps
  · exact h0
  · intro s0 h1
    try beta_reduce
    split
    · apply State.tx_keeps
      exact h1
    · exact h1

theorem State.neighborAsked_keeps {r : State} {s0 : State} (a1 : _) (a2 : _) (a3 : _) (h0 : r.Keeps s0) : r.Keeps (State.neighborAsked s0 a1 a2 a3) := by
  unfold State.neighborAsked
  apply State.frameIn_keeps
  · exact h0
  · intro s0 h1
    try beta_reduce
    split
    · apply State.tx_keeps
      exact h1
    · exact h1

theorem State.echoAsked_keeps {r : State} {s0 : State} (a1 : _) (a2 : _) (a3 : _) (a4 : _) (h0 : r.Keeps s0) : r.Keeps (State.echoAsked s0 a1 a2 a3 a4) := by
  unfold State.echoAsked
  apply State.frameIn_keeps
  · exact h0
  · intro s0 h1
    try beta_reduce
    split
    · exact h1
    · extract_lets y4 y5 y6
      split
      · exact h1
      · apply State.tx_keeps
        exact h1.same rfl rfl rfl rfl rfl rfl

theorem State.pfc_keeps {r : State} {s0 : State} (a1 : _) (a2 : _) (h0 : r.Keeps s0) : r.Keeps (State.pfc s0 a1 a2) := by
  unfold State.pfc
  split
  · exact h0
  · extract_lets y2 y3
    have h4 : r.Keeps y2 := by
      unfold y2
      apply State.hostCounts_keeps
      apply State.hostCount_keeps
      exact h0
    try clear_value y2
    split
    · apply State.txResume_keeps
      exact h4.same rfl rfl rfl rfl rfl rfl
    · exact h4

theorem State.hostPoison_keeps {r : State} {s0 : State} (a1 : _) (h0 : r.Keeps s0) : r.Keeps (State.hostPoison s0 a1) := by
  unfold State.hostPoison
  apply State.poisonSeen_keeps
  apply State.memLast_keeps
  exact h0.same rfl rfl rfl rfl rfl rfl

theorem State.hostIn_keeps {r : State} {s0 : State} (a1 : _) (a2 : _) (h0 : r.Keeps s0) : r.Keeps (State.hostIn s0 a1 a2) := by
  unfold State.hostIn
  split
  · apply State.Keeps.foldl
    · exact h0
    · intro s1 a2 h3
      try beta_reduce
      apply State.carry_keeps
      exact h3
  · exact h0

theorem State.hostOut_keeps {r : State} {s0 : State} (a1 : _) (a2 : _) (h0 : r.Keeps s0) : r.Keeps (State.hostOut s0 a1 a2) := by
  unfold State.hostOut
  split
  · apply State.Keeps.foldl
    · exact h0
    · intro s1 a2 h3
      try beta_reduce
      apply State.carry_keeps
      apply State.carry_keeps
      exact h3
  · exact h0

theorem State.cutMessage_keeps {r : State} {s0 : State} (a1 : _) (h0 : r.Keeps s0) : r.Keeps (State.cutMessage s0 a1) := by
  unfold State.cutMessage
  extract_lets y0
  split
  · apply State.modXfer_keeps
    exact h0
  · exact h0

theorem State.fatalNak_keeps {r : State} {s0 : State} (a1 : _) (a2 : _) (h0 : r.Keeps s0) : r.Keeps (State.fatalNak s0 a1 a2) := by
  unfold State.fatalNak
  extract_lets y0
  apply State.txQp_keeps
  apply State.hostCount_keeps
  apply State.modQp_keeps
  apply State.cutMessage_keeps
  exact h0

theorem State.sendCnp_keeps {r : State} {s0 : State} (a1 : _) (h0 : r.Keeps s0) : r.Keeps (State.sendCnp s0 a1) := by
  unfold State.sendCnp
  extract_lets y0
  split
  · apply State.txQp_keeps
    apply State.hostCount_keeps
    apply State.modQp_keeps
    exact h0
  · exact h0

theorem State.ackPsn_keeps {r : State} {s0 : State} (a1 : _) (a2 : _) (a3 : _) (h0 : r.Keeps s0) : r.Keeps (State.ackPsn s0 a1 a2 a3) := by
  unfold State.ackPsn
  extract_lets y0
  split
  · apply State.txQp_keeps
    apply State.modQp_keeps
    exact h0
  · apply State.modQp_keeps
    exact h0

theorem State.roceIn_keeps {r : State} {s0 : State} (a1 : _) (a2 : _) (a3 : _) (a4 : _) (h0 : r.Keeps s0) (g3 : ∀ x0 x1, r.Keeps x0 → r.Keeps (a3 x0 x1)) (g4 : ∀ x0 x1, r.Keeps x0 → r.Keeps (a4 x0 x1)) : r.Keeps (State.roceIn s0 a1 a2 a3 a4) := by
  unfold State.roceIn
  apply State.frameIn_keeps
  · exact h0
  · intro s0 h1
    try beta_reduce
    split
    · exact h1
    · split
      · apply State.hostCount_keeps
        exact h1
      · split
        · apply State.hostCount_keeps
          exact h1
        · extract_lets y11 y12 y13
          have h14 : r.Keeps y11 := by
            unfold y11
            split
            · apply State.sendCnp_keeps
              exact h1
            · exact h1
          try clear_value y11
          split
          · with_reducible apply g3
            apply State.modQp_keeps
            exact h14
          · split
            · split
              · exact h14
              · apply State.txQp_keeps
                apply State.hostCount_keeps
                apply State.modQp_keeps
                exact h14
            · with_reducible apply g4
              exact h14

theorem againAck_keeps {r : State} (a0 : _) {s1 : State} (a2 : _) (h1 : r.Keeps s1) : r.Keeps (againAck a0 s1 a2) := by
  unfold againAck
  apply State.txQp_keeps
  exact h1

theorem State.cnpIn_keeps {r : State} {s0 : State} (a1 : _) (h0 : r.Keeps s0) : r.Keeps (State.cnpIn s0 a1) := by
  unfold State.cnpIn
  apply State.frameIn_keeps
  · exact h0
  · intro s0 h1
    try beta_reduce
    split
    · exact h1
    · split
      · apply State.hostCount_keeps
        exact h1
      · split
        · apply State.hostCount_keeps
          exact h1
        · apply State.modQp_keeps
          apply State.hostCount_keeps
          exact h1

theorem State.rateRestore_keeps {r : State} {s0 : State} (a1 : _) (h0 : r.Keeps s0) : r.Keeps (State.rateRestore s0 a1) := by
  unfold State.rateRestore
  apply State.modQp_keeps
  exact h0

theorem State.roceInvalid_keeps {r : State} {s0 : State} (a1 : _) (h0 : r.Keeps s0) : r.Keeps (State.roceInvalid s0 a1) := by
  unfold State.roceInvalid
  apply State.roceIn_keeps
  · exact h0
  · intro s0 a1 h2
    try beta_reduce
    apply State.fatalNak_keeps
    exact h2
  · intro s3 a4 h5
    try beta_reduce
    apply State.fatalNak_keeps
    exact h5

theorem State.resetQps_keeps {r : State} {s0 : State} (a1 : _) (h0 : r.Keeps s0) : r.Keeps (State.resetQps s0 a1) := by
  unfold State.resetQps
  exact h0.same rfl rfl rfl rfl rfl rfl

theorem State.hostAck_keeps {r : State} {s0 : State} (a1 : _) (a2 : _) (h0 : r.Keeps s0) : r.Keeps (State.hostAck s0 a1 a2) := by
  unfold State.hostAck
  extract_lets y0 y1
  split
  · exact h0
  · apply State.setWatermark_keeps
    apply State.modXfer_keeps
    exact h0

theorem State.abortXfer_keeps {r : State} {s0 : State} (a1 : _) (a2 : _) (a3 : _) (a4 : _) (h0 : r.Keeps s0) : r.Keeps (State.abortXfer s0 a1 a2 a3 a4) := by
  unfold State.abortXfer
  extract_lets y0 y1 y2
  split
  · exact h0
  · apply State.hostEnded_keeps
    apply State.finishAt_keeps
    apply State.setXfer_keeps
    exact h0

theorem State.xferComplete_keeps {r : State} {s0 : State} (a1 : _) (h0 : r.Keeps s0) : r.Keeps (State.xferComplete s0 a1) := by
  unfold State.xferComplete
  extract_lets y0 y1 y2 y3
  have h4 : r.Keeps y3 := by
    unfold y3
    apply State.setXfer_keeps
    exact h0
  try clear_value y3
  split
  · exact h0
  · apply State.hostEnded_keeps
    apply State.finishAt_keeps
    exact h4

theorem State.hostTimedOut_keeps {r : State} {s0 : State} (a1 : _) (h0 : r.Keeps s0) : r.Keeps (State.hostTimedOut s0 a1) := by
  unfold State.hostTimedOut
  split
  · extract_lets y6
    have h7 : r.Keeps y6 := by
      unfold y6
      apply State.xferComplete_keeps
      apply State.passTo_keeps
      exact h0
    try clear_value y6
    apply State.abortXfer_keeps
    exact h7
  · exact h0

theorem State.xferPacket_keeps {r : State} {s0 : State} (a1 : _) (a2 : _) (a3 : _) (h0 : r.Keeps s0) : r.Keeps (State.xferPacket s0 a1 a2 a3) := by
  unfold State.xferPacket
  extract_lets y0 y1
  have h2 : r.Keeps y1 := by
    unfold y1
    split
    · apply State.startEntry_keeps
      exact h0
    · exact h0
  try clear_value y1
  apply State.modXfer_keeps
  apply State.countLink_keeps
  exact h2

theorem State.openXfer_keeps {r : State} {s0 : State} (a1 : _) (a2 : _) (a3 : _) (h0 : r.Keeps s0) : r.Keeps (State.openXfer s0 a1 a2 a3).1 := by
  unfold State.openXfer
  split
  · exact h0
  · extract_lets y5 y6 y7 y8 y9
    have h10 : r.Keeps y8 := by
      unfold y8
      apply State.modEntry_keeps
      apply State.setXfer_keeps
      exact h0
    try clear_value y8
    split
    · dsimp only
      apply State.xferComplete_keeps
      exact h10
    · exact h10

theorem State.closeXfer_keeps {r : State} {s0 : State} (a1 : _) (h0 : r.Keeps s0) : r.Keeps (State.closeXfer s0 a1) := by
  unfold State.closeXfer
  extract_lets y0 y1
  have h2 : r.Keeps y0 := by
    unfold y0
    apply State.xferComplete_keeps
    exact h0
  try clear_value y0
  split
  · apply State.setXfer_keeps
    exact h2
  · apply State.setXfer_keeps
    exact h2
  · apply State.abortXfer_keeps
    exact h2

theorem State.releaseXfers_keeps {r : State} {s0 : State} (a1 : _) (h0 : r.Keeps s0) : r.Keeps (State.releaseXfers s0 a1) := by
  unfold State.releaseXfers
  apply State.Keeps.foldl
  · exact h0
  · intro s0 a1 h2
    try beta_reduce
    apply State.closeXfer_keeps
    exact h2

theorem State.fenceXfers_keeps {r : State} {s0 : State} (a1 : _) (h0 : r.Keeps s0) : r.Keeps (State.fenceXfers s0 a1) := by
  unfold State.fenceXfers
  apply State.Keeps.foldl
  · exact h0
  · intro s0 a1 h2
    try beta_reduce
    apply State.abortXfer_keeps
    exact h2

theorem State.writePayload_keeps {r : State} {s0 : State} (a1 : _) (a2 : _) (h0 : r.Keeps s0) : r.Keeps (State.writePayload s0 a1 a2) := by
  unfold State.writePayload
  extract_lets y0 y1 y2 y3 y4 y5
  have h6 : r.Keeps y4 := by
    unfold y4
    apply State.modQp_keeps
    exact h0
  try clear_value y4
  have h7 : r.Keeps y5 := by
    unfold y5
    split
    · apply State.hostCount_keeps
      exact h6
    · apply State.toSkips_keeps
      apply State.hostIn_keeps
      apply State.xferPacket_keeps
      exact h6
  try clear_value y5
  apply State.ackPsn_keeps
  exact h7

theorem State.beginWrite_keeps {r : State} {s0 : State} (a1 : _) (a2 : _) (a3 : _) (a4 : _) (h0 : r.Keeps s0) : r.Keeps (State.beginWrite s0 a1 a2 a3 a4) := by
  unfold State.beginWrite
  apply State.modQp_keeps
  exact h0

theorem State.rdmaWrite_keeps {r : State} {s0 : State} (a1 : _) (h0 : r.Keeps s0) : r.Keeps (State.rdmaWrite s0 a1) := by
  unfold State.rdmaWrite
  apply State.roceIn_keeps
  · exact h0
  · intro s0 a1 h2
    try beta_reduce
    extract_lets y3
    split
    · split
      · apply State.fatalNak_keeps
        exact h2
      · split
        · apply State.fatalNak_keeps
          exact h2
        · apply State.abortXfer_keeps
          apply State.fatalNak_keeps
          exact h2
        · apply State.writePayload_keeps
          apply State.beginWrite_keeps
          exact h2
        · split
          · apply State.writePayload_keeps
            apply State.beginWrite_keeps
            exact h2
          · apply State.fatalNak_keeps
            apply State.beginWrite_keeps
            exact h2
    · split
      · apply State.fatalNak_keeps
        exact h2
      · split
        · apply State.writePayload_keeps
          exact h2
        · apply State.fatalNak_keeps
          exact h2
  · intro s24 a25 h26
    try beta_reduce
    apply againAck_keeps
    exact h26

theorem State.respond_keeps {r : State} {s0 : State} (a1 : _) (a2 : _) (h0 : r.Keeps s0) : r.Keeps (State.respond s0 a1 a2).1 := by
  unfold State.respond
  extract_lets y0 y1 y2 y3
  have h4 : r.Keeps y0 := by
    unfold y0
    apply State.hostEcc_keeps
    exact h0
  try clear_value y0
  have h5 : r.Keeps y2 := by
    unfold y2
    split
    · apply State.hostPoison_keeps
      exact h4
    · exact h4
  try clear_value y2
  have h11 : r.Keeps y3 := by
    unfold y3
    apply State.hostOut_keeps
    exact h5
  try clear_value y3
  dsimp only
  apply State.txsQp_keeps
  exact h11

theorem State.performRead_keeps {r : State} {s0 : State} (a1 : _) (a2 : _) (a3 : _) (h0 : r.Keeps s0) : r.Keeps (State.performRead s0 a1 a2 a3) := by
  unfold State.performRead
  extract_lets y0
  have h1 : r.Keeps y0 := by
    unfold y0
    apply State.modQp_keeps
    exact h0
  try clear_value y0
  split
  · rename_i z2 z3 z4 z5
    have h6 : r.Keeps z3 := by
      refine State.Keeps.of_fst z5 ?_
      apply State.respond_keeps
      exact h1
    extract_lets y7 y8 y9
    have h10 : r.Keeps y7 := by
      unfold y7
      apply State.xferPacket_keeps
      exact h6
    try clear_value y7
    have h11 : r.Keeps y8 := by
      unfold y8
      apply State.modXfer_keeps
      exact h10
    try clear_value y8
    apply State.setWatermark_keeps
    exact h11

theorem State.rdmaRead_keeps {r : State} {s0 : State} (a1 : _) (h0 : r.Keeps s0) : r.Keeps (State.rdmaRead s0 a1) := by
  unfold State.rdmaRead
  apply State.roceIn_keeps
  · exact h0
  · intro s0 a1 h2
    try beta_reduce
    extract_lets y3
    split
    · apply State.fatalNak_keeps
      exact h2
    · split
      · apply State.txQp_keeps
        apply State.hostCount_keeps
        apply State.modQp_keeps
        exact h2
      · apply State.performRead_keeps
        exact h2
      · apply State.fatalNak_keeps
        exact h2
  · intro s14 a15 h16
    try beta_reduce
    extract_lets y17 y18
    split
    · apply State.respond_keeps
      exact h16
    · apply State.txQp_keeps
      exact h16

theorem State.mapTake_keeps {r : State} {s0 : State} (a1 : _) (h0 : r.Keeps s0) : r.Keeps (State.mapTake s0 a1) := by
  unfold State.mapTake
  split
  · exact h0
  · split
    · exact h0
    · split
      · exact h0
      · extract_lets y12 y13
        split
        · apply State.finish_keeps
          exact h0
        · apply State.finish_keeps
          apply State.modJob_keeps
          exact h0

theorem State.cancelEntry_keeps {r : State} {s0 : State} (a1 : _) (a2 : _) (h0 : r.Keeps s0) : r.Keeps (State.cancelEntry s0 a1 a2) := by
  unfold State.cancelEntry
  split
  · apply State.beginCancel_keeps
    exact h0
  · apply State.dropUnrun_keeps
    exact h0

theorem State.endReleases_keeps {r : State} {s0 : State} (h0 : r.Keeps s0) : r.Keeps (State.endReleases s0) := by
  unfold State.endReleases
  apply State.Keeps.foldl
  · exact h0
  · intro s0 a1 h2
    try beta_reduce
    apply State.finish_keeps
    exact h2

theorem State.cancelDone_keeps {r : State} {s0 : State} (a1 : _) (h0 : r.Keeps s0) : r.Keeps (State.cancelDone s0 a1) := by
  unfold State.cancelDone
  apply State.endReleases_keeps
  apply State.cancelled_keeps
  exact h0

theorem State.retireCtx_keeps {r : State} {s0 : State} (a1 : _) (h0 : r.Keeps s0) : r.Keeps (State.retireCtx s0 a1) := by
  unfold State.retireCtx
  extract_lets y0
  have h1 : r.Keeps y0 := by
    unfold y0
    apply State.setCtx_keeps
    exact h0
  try clear_value y0
  exact h1.same rfl rfl rfl rfl rfl rfl

theorem State.dropCtx_keeps {r : State} {s0 : State} (a1 : _) (h0 : r.Keeps s0) : r.Keeps (State.dropCtx s0 a1) := by
  unfold State.dropCtx
  extract_lets y0 y1
  have h2 : r.Keeps y0 := by
    unfold y0
    split
    · apply State.endSpan_keeps
      exact h0
    · exact h0
  try clear_value y0
  have h8 : r.Keeps y1 := by
    unfold y1
    apply State.retireCtx_keeps
    exact h2
  try clear_value y1
  exact h8.same rfl rfl rfl rfl rfl rfl

theorem State.modifyJob_keeps {r : State} {s0 : State} (a1 : _) (a2 : _) (a3 : _) (h0 : r.Keeps s0) : r.Keeps (State.modifyJob s0 a1 a2 a3) := by
  unfold State.modifyJob
  extract_lets y0 y1
  have h2 : r.Keeps y1 := by
    unfold y1
    apply State.modJob_keeps
    exact h0
  try clear_value y1
  split
  · apply State.finish_keeps
    exact h2
  · apply State.startEntry_keeps
    exact h2

theorem State.restrict_keeps {r : State} {s0 : State} (a1 : _) (h0 : r.Keeps s0) : r.Keeps (State.restrict s0 a1) := by
  unfold State.restrict
  split
  · exact h0
  · exact h0.same rfl rfl rfl rfl rfl rfl

theorem State.unrestrict_keeps {r : State} {s0 : State} (h0 : r.Keeps s0) : r.Keeps (State.unrestrict s0) := by
  unfold State.unrestrict
  split
  · exact h0
  · split
    · exact h0.same rfl rfl rfl rfl rfl rfl
    · split
      · exact h0.same rfl rfl rfl rfl rfl rfl
      · exact h0.same rfl rfl rfl rfl rfl rfl

theorem State.releaseJob_keeps {r : State} {s0 : State} (a1 : _) (a2 : _) (h0 : r.Keeps s0) : r.Keeps (State.releaseJob s0 a1 a2) := by
  unfold State.releaseJob
  extract_lets y0 y1 y2
  have h3 : r.Keeps y0 := by
    unfold y0
    apply State.Keeps.foldl
    · exact h0
    · intro s4 a5 h6
      try beta_reduce
      split
      · apply State.cancelEntry_keeps
        exact h6
      · exact h6
  try clear_value y0
  have h12 : r.Keeps y1 := by
    unfold y1
    apply State.resetQps_keeps
    apply State.releaseXfers_keeps
    exact h3
  try clear_value y1
  have h13 : r.Keeps y2 := by
    unfold y2
    apply State.Keeps.foldl
    · exact h12
    · intro s14 a15 h16
      try beta_reduce
      apply State.dropCtx_keeps
      exact h16
  try clear_value y2
  apply State.unrestrict_keeps
  apply State.modJob_keeps
  apply State.startEntry_keeps
  exact h13

theorem State.unask_keeps {r : State} {s0 : State} (a1 : _) (h0 : r.Keeps s0) : r.Keeps (State.unask s0 a1) := by
  unfold State.unask
  apply State.Keeps.foldl
  · exact h0
  · intro s0 a1 h2
    try beta_reduce
    apply State.modTile_keeps
    · exact h2
    · intro a3 h4
      try beta_reduce
      assumption

theorem State.retireJob_keeps {r : State} {s0 : State} (a1 : _) (h0 : r.Keeps s0) : r.Keeps (State.retireJob s0 a1) := by
  unfold State.retireJob
  extract_lets y0
  have h1 : r.Keeps y0 := by
    unfold y0
    apply State.setJob_keeps
    exact h0
  try clear_value y0
  exact h1.same rfl rfl rfl rfl rfl rfl

theorem State.zeroingEnds_keeps {r : State} {s0 : State} (a1 : _) (h0 : r.Keeps s0) : r.Keeps (State.zeroingEnds s0 a1) := by
  unfold State.zeroingEnds
  split
  · exact h0
  · split
    · split
      · exact h0
      · extract_lets y10 y11
        have h12 : r.Keeps y10 := by
          unfold y10
          apply State.Keeps.foldl
          · exact h0
          · intro s13 a14 h15
            try beta_reduce
            apply State.zero_keeps
            exact h15
        try clear_value y10
        have h16 : r.Keeps y11 := by
          unfold y11
          apply State.unask_keeps
          apply State.Keeps.foldl
          · exact h12
          · intro s17 a18 h19
            try beta_reduce
            apply State.zeroTile_keeps
            exact h19
        try clear_value y11
        apply State.finish_keeps
        apply State.resetQps_keeps
        apply State.retireJob_keeps
        exact h16
    · extract_lets y22 y23 y24
      have h25 : r.Keeps y23 := by
        unfold y23
        apply State.unask_keeps
        apply State.Keeps.foldl
        · exact h0
        · intro s26 a27 h28
          try beta_reduce
          apply State.zeroTile_keeps
          exact h28
      try clear_value y23
      have h29 : r.Keeps y24 := by
        unfold y24
        apply State.modJob_keeps
        exact h25
      try clear_value y24
      split
      · exact h0
      · apply State.Keeps.foldl
        · exact h29
        · intro s32 a33 h34
          try beta_reduce
          apply State.finish_keeps
          exact h34

theorem State.releaseCtx_keeps {r : State} {s0 : State} (a1 : _) (a2 : _) (h0 : r.Keeps s0) : r.Keeps (State.releaseCtx s0 a1 a2) := by
  unfold State.releaseCtx
  extract_lets y0 y1
  have h2 : r.Keeps y0 := by
    unfold y0
    apply State.startEntry_keeps
    exact h0
  try clear_value y0
  have h3 : r.Keeps y1 := by
    unfold y1
    apply State.Keeps.foldl
    · exact h2
    · intro s4 a5 h6
      try beta_reduce
      split
      · apply State.cancelEntry_keeps
        exact h6
      · exact h6
  try clear_value y1
  apply State.endReleases_keeps
  apply State.dropCtx_keeps
  exact h3

theorem State.opCancelled_keeps {r : State} {s0 : State} (a1 : _) (a2 : _) (h0 : r.Keeps s0) : r.Keeps (State.opCancelled s0 a1 a2) := by
  unfold State.opCancelled
  split
  · apply State.finish_keeps
    exact h0
  · split
    · apply State.beginCancel_keeps
      apply State.startEntry_keeps
      exact h0
    · apply State.finish_keeps
      apply State.dropUnrun_keeps
      exact h0

theorem State.streamCancelled_keeps {r : State} {s0 : State} (a1 : _) (a2 : _) (a3 : _) (h0 : r.Keeps s0) : r.Keeps (State.streamCancelled s0 a1 a2 a3) := by
  unfold State.streamCancelled
  extract_lets y0 y1
  have h2 : r.Keeps y1 := by
    unfold y1
    split
    · apply State.finishAt_keeps
      apply State.modStream_keeps
      exact h0
    · exact h0
  try clear_value y1
  split
  · apply State.beginCancel_keeps
    apply State.startEntry_keeps
    exact h2
  · apply State.beginCancel_keeps
    apply State.startEntry_keeps
    exact h2
  · apply State.beginCancel_keeps
    apply State.startEntry_keeps
    exact h2
  · apply State.finish_keeps
    exact h2

end Sys2Proof.Machine
end

