-- ==== Sys2Proof/Laws/KeepsResilience.lean ====
section
/-! SUPPORT. What the relation `State.Keeps` says of pairs, the fence and recovery: each function respects it. -/

set_option maxRecDepth 20000

namespace Sys2Proof.Machine

theorem State.recordLate_keeps {r : State} {s0 : State} (a1 : _) (h0 : r.Keeps s0) : r.Keeps (State.recordLate s0 a1) := by
  unfold State.recordLate
  split
  · exact h0
  · split
    · split
      · exact h0
      · extract_lets y13
        apply State.modJob_keeps
        exact h0
    · exact h0

theorem State.clearLoss_keeps {r : State} {s0 : State} (a1 : _) (a2 : _) (h0 : r.Keeps s0) : r.Keeps (State.clearLoss s0 a1 a2) := by
  unfold State.clearLoss
  apply State.modJob_keeps
  exact h0

theorem State.lossPasses_keeps {r : State} {s0 : State} (a1 : _) (a2 : _) (h0 : r.Keeps s0) : r.Keeps (State.lossPasses s0 a1 a2) := by
  unfold State.lossPasses
  split
  · exact h0
  · split
    · split
      · apply State.passTo_keeps
        exact h0
      · exact h0
    · exact h0

theorem State.peerIsLost_keeps {r : State} {s0 : State} (a1 : _) (a2 : _) (h0 : r.Keeps s0) : r.Keeps (State.peerIsLost s0 a1 a2) := by
  unfold State.peerIsLost
  split
  · exact h0
  · split
    · exact h0
    · extract_lets y10 y11
      split
      · exact h0
      · apply State.modJob_keeps
        exact h0

theorem State.spareIsDue_keeps {r : State} {s0 : State} (a1 : _) (h0 : r.Keeps s0) : r.Keeps (State.spareIsDue s0 a1) := by
  unfold State.spareIsDue
  apply State.modJob_keeps
  exact h0

theorem State.setPolicy_keeps {r : State} {s0 : State} (a1 : _) (a2 : _) (h0 : r.Keeps s0) : r.Keeps (State.setPolicy s0 a1 a2) := by
  unfold State.setPolicy
  apply State.modJob_keeps
  exact h0

theorem State.fence_keeps {r : State} {s0 : State} (h0 : r.Keeps s0) : r.Keeps (State.fence s0) := by
  unfold State.fence
  apply State.Keeps.foldl
  · exact h0
  · intro s0 a1 h2
    try beta_reduce
    split
    · apply State.fenceXfers_keeps
      exact h2
    · exact h2

theorem State.setState_keeps {r : State} {s0 : State} (a1 : _) (a2 : _) (h0 : r.Keeps s0) : r.Keeps (State.setState s0 a1 a2) := by
  unfold State.setState
  extract_lets y0
  apply State.modJob_keeps
  apply State.write_keeps
  apply State.write_keeps
  exact h0

theorem State.startCkpt_keeps {r : State} {s0 : State} (a1 : _) (a2 : _) (a3 : _) (h0 : r.Keeps s0) : r.Keeps (State.startCkpt s0 a1 a2 a3) := by
  unfold State.startCkpt
  split
  · exact h0
  · split
    · exact h0
    · extract_lets y10 y11 y12
      have h13 : r.Keeps y12 := by
        unfold y12
        apply State.write_keeps
        exact h0
      try clear_value y12
      apply State.modJob_keeps
      exact h13

theorem State.endCkpt_keeps {r : State} {s0 : State} (a1 : _) (a2 : _) (a3 : _) (a4 : _) (h0 : r.Keeps s0) : r.Keeps (State.endCkpt s0 a1 a2 a3 a4) := by
  unfold State.endCkpt
  extract_lets y0 y1
  have h2 : r.Keeps y1 := by
    unfold y1
    split
    · exact h0
    · apply State.write_keeps
      exact h0
  try clear_value y1
  apply State.modJob_keeps
  exact h2

theorem State.ckptComplete_keeps {r : State} {s0 : State} (a1 : _) (h0 : r.Keeps s0) : r.Keeps (State.ckptComplete s0 a1) := by
  unfold State.ckptComplete
  extract_lets y0
  have h1 : r.Keeps y0 := by
    unfold y0
    apply State.ckptReads_keeps
    exact h0
  try clear_value y0
  split
  · exact h1
  · split
    · apply State.endCkpt_keeps
      exact h1
    · exact h1

theorem State.mirrorGoes_keeps {r : State} {s0 : State} (a1 : _) (h0 : r.Keeps s0) : r.Keeps (State.mirrorGoes s0 a1) := by
  unfold State.mirrorGoes
  extract_lets y0
  have h1 : r.Keeps y0 := by
    unfold y0
    apply State.mirrorReads_keeps
    exact h0
  try clear_value y0
  split
  · exact h1
  · split
    · exact h1
    · split
      · exact h1
      · extract_lets y17 y18
        have h19 : r.Keeps y17 := by
          unfold y17
          apply State.sendPackets_keeps
          exact h1
        try clear_value y17
        have h20 : r.Keeps y18 := by
          unfold y18
          apply State.sendPacket_keeps
          exact h19
        try clear_value y18
        apply State.modJob_keeps
        exact h20

theorem State.startMirror_keeps {r : State} {s0 : State} (a1 : _) (a2 : _) (a3 : _) (h0 : r.Keeps s0) : r.Keeps (State.startMirror s0 a1 a2 a3) := by
  unfold State.startMirror
  split
  · exact h0
  · split
    · extract_lets y11 y12
      have h13 : r.Keeps y12 := by
        unfold y12
        apply State.modJob_keeps
        exact h0
      try clear_value y12
      split
      · apply State.mirrorGoes_keeps
        exact h13
      · exact h13
    · exact h0

theorem State.partnerReady_keeps {r : State} {s0 : State} (a1 : _) (a2 : _) (h0 : r.Keeps s0) : r.Keeps (State.partnerReady s0 a1 a2) := by
  unfold State.partnerReady
  split
  · apply State.modJob_keeps
    exact h0
  · split
    · apply State.modJob_keeps
      exact h0
    · apply State.mirrorGoes_keeps
      exact h0

theorem State.tellReady_keeps {r : State} {s0 : State} (a1 : _) (h0 : r.Keeps s0) : r.Keeps (State.tellReady s0 a1) := by
  unfold State.tellReady
  split
  · exact h0
  · split
    · split
      · apply State.sendPacket_keeps
        exact h0
      · exact h0
    · exact h0

theorem State.commitStep_keeps {r : State} {s0 : State} (a1 : _) (a2 : _) (h0 : r.Keeps s0) : r.Keeps (State.commitStep s0 a1 a2) := by
  unfold State.commitStep
  extract_lets y0 y1 y2 y3 y4 y5
  split
  · extract_lets y11 y12 y13
    have h14 : r.Keeps y11 := by
      unfold y11
      apply State.modJob_keeps
      exact h0
    try clear_value y11
    have h15 : r.Keeps y12 := by
      unfold y12
      split
      · apply State.startMirror_keeps
        exact h14
      · exact h14
    try clear_value y12
    have h18 : r.Keeps y13 := by
      unfold y13
      split
      · apply State.startCkpt_keeps
        exact h15
      · exact h15
    try clear_value y13
    apply State.finish_keeps
    exact h18

theorem State.commitTake_keeps {r : State} {s0 : State} (a1 : _) (h0 : r.Keeps s0) : r.Keeps (State.commitTake s0 a1) := by
  unfold State.commitTake
  split
  · exact h0
  · split
    · exact h0
    · split
      · exact h0
      · split
        · apply State.finish_keeps
          exact h0
        · split
          · apply State.finish_keeps
            exact h0
          · split
            · apply State.finish_keeps
              exact h0
            · apply State.commitStep_keeps
              exact h0

theorem State.freeStep_keeps {r : State} {s0 : State} (a1 : _) (h0 : r.Keeps s0) : r.Keeps (State.freeStep s0 a1) := by
  unfold State.freeStep
  apply State.Keeps.foldl
  · apply State.closeSets_keeps
    exact h0
  · intro s0 a1 h2
    try beta_reduce
    apply State.modCtx_keeps
    exact h2

theorem State.startRestore_keeps {r : State} {s0 : State} (a1 : _) (a2 : _) (a3 : _) (h0 : r.Keeps s0) : r.Keeps (State.startRestore s0 a1 a2 a3) := by
  unfold State.startRestore
  split
  · exact h0
  · split
    · exact h0
    · extract_lets y10 y11
      have h12 : r.Keeps y11 := by
        unfold y11
        apply State.startEntry_keeps
        apply State.restrict_keeps
        exact h0
      try clear_value y11
      split
      · extract_lets y17
        have h18 : r.Keeps y17 := by
          unfold y17
          apply State.modJob_keeps
          exact h12
        try clear_value y17
        split
        · apply State.sendPacket_keeps
          exact h18
        · exact h18

theorem State.copyOver_keeps {r : State} {s0 : State} (a1 : _) (a2 : _) (a3 : _) (a4 : _) (h0 : r.Keeps s0) : r.Keeps (State.copyOver s0 a1 a2 a3 a4) := by
  unfold State.copyOver
  apply State.copyRange_keeps
  apply State.copyBefore_keeps
  exact h0

theorem State.endRestore_keeps {r : State} {s0 : State} (a1 : _) (a2 : _) (a3 : _) (h0 : r.Keeps s0) : r.Keeps (State.endRestore s0 a1 a2 a3) := by
  unfold State.endRestore
  extract_lets y0 y1 y2 y3 y4 y5
  have h6 : r.Keeps y3 := by
    unfold y3
    split
    · exact h0
    · apply State.Keeps.foldl
      · exact h0
      · intro s9 a10 h11
        try beta_reduce
        apply State.copyOver_keeps
        exact h11
  try clear_value y3
  have h12 : r.Keeps y5 := by
    unfold y5
    apply State.freeStep_keeps
    exact h6
  try clear_value y5
  split
  · apply State.finish_keeps
    apply State.unrestrict_keeps
    apply State.modJob_keeps
    exact h6
  · apply State.finish_keeps
    apply State.unrestrict_keeps
    apply State.modJob_keeps
    exact h12

theorem State.restoreEnds_keeps {r : State} {s0 : State} (a1 : _) (h0 : r.Keeps s0) : r.Keeps (State.restoreEnds s0 a1) := by
  unfold State.restoreEnds
  split
  · exact h0
  · split
    · split
      · apply State.endRestore_keeps
        exact h0
      · exact h0
    · exact h0

theorem State.helloDecides_keeps {r : State} {s0 : State} (a1 : _) (a2 : _) (h0 : r.Keeps s0) : r.Keeps (State.helloDecides s0 a1 a2) := by
  unfold State.helloDecides
  split
  · exact h0
  · split
    · split
      · exact h0
      · extract_lets y13 y14 y15 y16
        split
        · apply State.finish_keeps
          apply State.modJob_keeps
          exact h0
        · apply State.finish_keeps
          apply State.tellReady_keeps
          apply State.modJob_keeps
          exact h0
    · exact h0

theorem State.unpair_keeps {r : State} {s0 : State} (a1 : _) (h0 : r.Keeps s0) : r.Keeps (State.unpair s0 a1) := by
  unfold State.unpair
  extract_lets y0
  have h1 : r.Keeps y0 := by
    unfold y0
    split
    · split
      · apply State.finish_keeps
        exact h0
      · exact h0
    · exact h0
  try clear_value y0
  apply State.modJob_keeps
  exact h1

theorem State.startPair_keeps {r : State} {s0 : State} (a1 : _) (a2 : _) (a3 : _) (h0 : r.Keeps s0) : r.Keeps (State.startPair s0 a1 a2 a3) := by
  unfold State.startPair
  split
  · exact h0
  · split
    · exact h0
    · extract_lets sec q s1 s2 hello early s3 s4
      have h1 : r.Keeps s1 := State.startEntry_keeps _ (State.unpair_keeps _ h0)
      have h2 : r.Keeps s2 := by
        unfold s2
        split
        · exact State.write_keeps (State.write_keeps h1)
        · exact h1
      have h4 : r.Keeps s4 := State.sendPacket_keeps _ (State.modJob_keeps _ _ h2)
      clear_value s4 s3 early
      cases early with
      | none => exact h4
      | some k => exact State.helloDecides_keeps _ _ h4

theorem State.pairLate_keeps {r : State} {s0 : State} (a1 : _) (h0 : r.Keeps s0) : r.Keeps (State.pairLate s0 a1) := by
  unfold State.pairLate
  split
  · split
    · apply State.finish_keeps
      apply State.modJob_keeps
      exact h0
    · exact h0
  · exact h0

theorem State.pairHeard_keeps {r : State} {s0 : State} (a1 : _) (a2 : _) (h0 : r.Keeps s0) : r.Keeps (State.pairHeard s0 a1 a2) := by
  unfold State.pairHeard
  apply State.modJob_keeps
  exact h0

theorem State.pairReceive_keeps {r : State} {s0 : State} (a1 : _) (a2 : _) (h0 : r.Keeps s0) (g2 : ∀ x0 x1 x2, r.Keeps x0 → r.Keeps (a2 x0 x1 x2)) : r.Keeps (State.pairReceive s0 a1 a2) := by
  unfold State.pairReceive
  split
  · apply State.dropped_keeps
    exact h0
  · split
    · apply State.forward_keeps
      exact h0
    · split
      · apply State.dropped_keeps
        exact h0
      · extract_lets y9
        have h10 : r.Keeps y9 := by
          unfold y9
          apply State.pairHeard_keeps
          exact h0
        try clear_value y9
        split
        · with_reducible apply g2
          exact h10
        · exact h10

theorem State.storePieces_keeps {r : State} {s0 : State} (a1 : _) (a2 : _) (h0 : r.Keeps s0) : r.Keeps (State.storePieces s0 a1 a2) := by
  unfold State.storePieces
  extract_lets y0
  have h1 : r.Keeps y0 := by
    unfold y0
    apply State.write_keeps
    exact h0
  try clear_value y0
  apply State.Keeps.foldl
  · exact h1
  · intro s2 a3 h4
    try beta_reduce
    split
    · apply State.poisonSeen_keeps
      apply State.mark_keeps
      exact h4
    · exact h4

theorem State.copyArrives_keeps {r : State} {s0 : State} (a1 : _) (a2 : _) (a3 : _) (h0 : r.Keeps s0) : r.Keeps (State.copyArrives s0 a1 a2 a3) := by
  unfold State.copyArrives
  extract_lets y0 y1 y2
  have h3 : r.Keeps y0 := by
    unfold y0
    apply State.sendPacket_keeps
    exact h0
  try clear_value y0
  split
  · split
    · exact h3
    · split
      · split
        · exact h3
        · split
          · exact h3
          · apply State.modJob_keeps
            apply State.storePieces_keeps
            apply State.copyBefore_keeps
            exact h3
      · split
        · exact h3
        · extract_lets y26
          split
          · exact h3
          · split
            · extract_lets y33 y34 y35
              have h36 : r.Keeps y33 := by
                unfold y33
                split
                · apply State.write_keeps
                  exact h3
                · exact h3
              try clear_value y33
              have h39 : r.Keeps y35 := by
                unfold y35
                apply State.storePieces_keeps
                apply State.copyBefore_keeps
                exact h36
              try clear_value y35
              apply State.modJob_keeps
              exact h39
  · exact h3

theorem State.mirrorData_keeps {r : State} {s0 : State} (a1 : _) (h0 : r.Keeps s0) : r.Keeps (State.mirrorData s0 a1) := by
  unfold State.mirrorData
  apply State.pairReceive_keeps
  · exact h0
  · intro s0 a1 a2 h3
    try beta_reduce
    apply State.copyArrives_keeps
    exact h3

theorem State.imageAsked_keeps {r : State} {s0 : State} (a1 : _) (a2 : _) (a3 : _) (h0 : r.Keeps s0) : r.Keeps (State.imageAsked s0 a1 a2 a3) := by
  unfold State.imageAsked
  split
  · split
    · exact h0
    · split
      · apply State.partnerReady_keeps
        exact h0
      · split
        · apply State.sendPackets_keeps
          exact h0
        · exact h0
  · exact h0

theorem State.mirrorAsked_keeps {r : State} {s0 : State} (a1 : _) (h0 : r.Keeps s0) : r.Keeps (State.mirrorAsked s0 a1) := by
  unfold State.mirrorAsked
  apply State.pairReceive_keeps
  · exact h0
  · intro s0 a1 a2 h3
    try beta_reduce
    apply State.imageAsked_keeps
    exact h3

theorem State.pairGreets_keeps {r : State} {s0 : State} (a1 : _) (a2 : _) (a3 : _) (h0 : r.Keeps s0) : r.Keeps (State.pairGreets s0 a1 a2 a3) := by
  unfold State.pairGreets
  split
  · split
    · split
      · apply State.helloDecides_keeps
        exact h0
      · exact h0
    · apply State.modJob_keeps
      exact h0
  · split
    · apply State.modJob_keeps
      exact h0
    · exact h0

theorem State.pairJoin_keeps {r : State} {s0 : State} (a1 : _) (h0 : r.Keeps s0) : r.Keeps (State.pairJoin s0 a1) := by
  unfold State.pairJoin
  apply State.pairReceive_keeps
  · exact h0
  · intro s0 a1 a2 h3
    try beta_reduce
    apply State.pairGreets_keeps
    exact h3

theorem State.mirrorAck_keeps {r : State} {s0 : State} (a1 : _) (h0 : r.Keeps s0) : r.Keeps (State.mirrorAck s0 a1) := by
  unfold State.mirrorAck
  apply State.pairReceive_keeps
  · exact h0
  · intro s0 a1 a2 h3
    try beta_reduce
    apply State.released_keeps
    exact h3

theorem State.keepImage_keeps {r : State} {s0 : State} (a1 : _) (a2 : _) (a3 : _) (a4 : _) (a5 : _) (a6 : _) (h0 : r.Keeps s0) : r.Keeps (State.keepImage s0 a1 a2 a3 a4 a5 a6) := by
  unfold State.keepImage
  extract_lets y0 y1 y2
  have h3 : r.Keeps y0 := by
    unfold y0
    apply State.write_keeps
    exact h0
  try clear_value y0
  have h4 : r.Keeps y1 := by
    unfold y1
    apply State.modJob_keeps
    exact h3
  try clear_value y1
  have h5 : r.Keeps y2 := by
    unfold y2
    apply State.tellReady_keeps
    exact h4
  try clear_value y2
  split
  · apply State.startCkpt_keeps
    exact h5
  · exact h5

theorem State.imageReceived_keeps {r : State} {s0 : State} (a1 : _) (h0 : r.Keeps s0) : r.Keeps (State.imageReceived s0 a1) := by
  unfold State.imageReceived
  split
  · exact h0
  · split
    · split
      · split
        · apply State.keepImage_keeps
          exact h0
        · exact h0
      · exact h0
    · exact h0

theorem State.beginApply_keeps {r : State} {s0 : State} (a1 : _) (h0 : r.Keeps s0) : r.Keeps (State.beginApply s0 a1) := by
  unfold State.beginApply
  apply State.modJob_keeps
  exact h0

theorem State.pairTimesOut_keeps {r : State} {s0 : State} (a1 : _) (h0 : r.Keeps s0) : r.Keeps (State.pairTimesOut s0 a1) := by
  unfold State.pairTimesOut
  split
  · split
    · exact h0
    · apply State.beginApply_keeps
      apply State.modJob_keeps
      exact h0
  · exact h0

theorem State.heartbeat_keeps {r : State} {s0 : State} (a1 : _) (h0 : r.Keeps s0) : r.Keeps (State.heartbeat s0 a1) := by
  unfold State.heartbeat
  split
  · exact h0
  · split
    · split
      · exact h0
      · apply State.sendPacket_keeps
        exact h0
    · exact h0

theorem State.failoverEnds_keeps {r : State} {s0 : State} (a1 : _) (a2 : _) (a3 : _) (h0 : r.Keeps s0) : r.Keeps (State.failoverEnds s0 a1 a2 a3) := by
  unfold State.failoverEnds
  split
  · exact h0
  · extract_lets y5 y6
    have h7 : r.Keeps y6 := by
      unfold y6
      apply State.freeStep_keeps
      exact h0
    try clear_value y6
    apply State.finish_keeps
    apply State.modJob_keeps
    exact h7

theorem State.startFailover_keeps {r : State} {s0 : State} (a1 : _) (a2 : _) (h0 : r.Keeps s0) : r.Keeps (State.startFailover s0 a1 a2) := by
  unfold State.startFailover
  extract_lets y0
  have h1 : r.Keeps y0 := by
    unfold y0
    apply State.startEntry_keeps
    exact h0
  try clear_value y0
  split
  · split
    · apply State.failoverEnds_keeps
      exact h1
    · apply State.beginApply_keeps
      exact h1
  · exact h1

theorem State.useImage_keeps {r : State} {s0 : State} (a1 : _) (a2 : _) (a3 : _) (a4 : _) (h0 : r.Keeps s0) : r.Keeps (State.useImage s0 a1 a2 a3 a4) := by
  unfold State.useImage
  extract_lets y0 y1 y2
  have h3 : r.Keeps y0 := by
    unfold y0
    apply State.Keeps.foldl
    · exact h0
    · intro s4 a5 h6
      try beta_reduce
      apply State.copyOver_keeps
      exact h6
  try clear_value y0
  have h7 : r.Keeps y2 := by
    unfold y2
    apply State.modJob_keeps
    exact h3
  try clear_value y2
  split
  · apply State.failoverEnds_keeps
    exact h7
  · exact h7

theorem State.imageApplied_keeps {r : State} {s0 : State} (a1 : _) (h0 : r.Keeps s0) : r.Keeps (State.imageApplied s0 a1) := by
  unfold State.imageApplied
  split
  · exact h0
  · split
    · split
      · apply State.useImage_keeps
        exact h0
      · exact h0
    · exact h0

theorem State.grant_keeps {r : State} {s0 : State} (a1 : _) (h0 : r.Keeps s0) : r.Keeps (State.grant s0 a1).1 := by
  unfold State.grant
  extract_lets y0 y1 y2 y3 y4 y5 y6
  dsimp only
  apply State.fence_keeps
  exact h0.same rfl rfl rfl rfl rfl rfl

theorem State.leaseLapses_keeps {r : State} {s0 : State} (h0 : r.Keeps s0) : r.Keeps (State.leaseLapses s0) := by
  unfold State.leaseLapses
  split
  · exact h0
  · apply State.fence_keeps
    exact h0.same rfl rfl rfl rfl rfl rfl

theorem State.beginAttempt_keeps {r : State} {s0 : State} (a1 : _) (a2 : _) (a3 : _) (h0 : r.Keeps s0) : r.Keeps (State.beginAttempt s0 a1 a2 a3) := by
  unfold State.beginAttempt
  extract_lets y0
  apply State.modJob_keeps
  apply State.earlyAbort_keeps
  apply State.newAttempt_keeps
  exact h0

theorem State.stepTake_keeps {r : State} {s0 : State} (a1 : _) (h0 : r.Keeps s0) : r.Keeps (State.stepTake s0 a1) := by
  unfold State.stepTake
  split
  · exact h0
  · split
    · exact h0
    · split
      · exact h0
      · apply State.beginAttempt_keeps
        exact h0

theorem State.peerTimeout_keeps {r : State} {s0 : State} (a1 : _) (h0 : r.Keeps s0) : r.Keeps (State.peerTimeout s0 a1) := by
  unfold State.peerTimeout
  apply State.peerLate_keeps
  apply State.recordLate_keeps
  exact h0

theorem State.collTake_keeps {r : State} {s0 : State} (a1 : _) (h0 : r.Keeps s0) : r.Keeps (State.collTake s0 a1) := by
  unfold State.collTake
  split
  · exact h0
  · split
    · exact h0
    · split
      · split
        · apply State.clearLoss_keeps
          apply State.resultColl_keeps
          exact h0
        · exact h0
      · exact h0

end Sys2Proof.Machine
end

