-- ==== Sys2Proof/Laws/KeepsPower.lean ====
section
/-! SUPPORT. What the relation `State.Keeps` says of the life of the device, memory and power: each function respects it. -/

set_option maxRecDepth 20000

namespace Sys2Proof.Machine

theorem State.setDate_keeps {r : State} {s0 : State} (a1 : _) (h0 : r.Keeps s0) : r.Keeps (State.setDate s0 a1) := by
  unfold State.setDate
  split
  · extract_lets y2 y3
    apply State.event_keeps
    exact h0.same rfl rfl rfl rfl rfl rfl
  · apply State.event_keeps
    exact h0

theorem State.scrubRead_keeps {r : State} {s0 : State} (a1 : _) (a2 : _) (a3 : _) (h0 : r.Keeps s0) : r.Keeps (State.scrubRead s0 a1 a2 a3) := by
  unfold State.scrubRead
  split
  · exact h0
  · extract_lets y2 y3 y4
    have h5 : r.Keeps y2 := by
      unfold y2
      apply State.applyEcc_keeps
      exact h0
    try clear_value y2
    split
    · exact h5.same rfl rfl rfl rfl rfl rfl
    · exact h5

theorem State.writtenBack_keeps {r : State} {s0 : State} (a1 : _) (h0 : r.Keeps s0) : r.Keeps (State.writtenBack s0 a1) := by
  unfold State.writtenBack
  split
  · exact h0
  · exact h0.same rfl rfl rfl rfl rfl rfl

theorem State.retireUnit_keeps {r : State} {s0 : State} (a1 : _) (h0 : r.Keeps s0) : r.Keeps (State.retireUnit s0 a1) := by
  unfold State.retireUnit
  extract_lets s1 s2
  have h2 : r.Keeps s2 := by
    refine ⟨fun x => ⟨(h0.sound x).mem, fun v g => ?_⟩, h0.svn, h0.pending, h0.quarantine⟩
    show lookup false (store false s0.poison a1 true) v = true
    have g' : lookup false (store false s0.retired a1 true) v = true := g
    rw [lookup_store] at g' ⊢
    split
    · rfl
    · next c => rw [if_neg c] at g'; exact (h0.sound x).retired v g'
  clear_value s2
  exact State.event_keeps _ _ (State.poisonSeen_keeps _ (State.memLast_keeps _ _ h2))

theorem State.retireRow_keeps {r : State} {s0 : State} (a1 : _) (h0 : r.Keeps s0) : r.Keeps (State.retireRow s0 a1) := by
  unfold State.retireRow
  extract_lets y0 y1
  have h2 : r.Keeps y0 := by
    unfold y0
    apply State.Keeps.foldl
    · exact h0
    · intro s3 a4 h5
      try beta_reduce
      apply State.retireUnit_keeps
      exact h5
  try clear_value y0
  split
  · apply State.permWrite_keeps
    exact h2
  · exact h2.same rfl rfl rfl rfl rfl rfl

theorem State.softRepair_keeps {r : State} {s0 : State} (a1 : _) (h0 : r.Keeps s0) : r.Keeps (State.softRepair s0 a1) := by
  unfold State.softRepair
  split
  · exact h0
  · extract_lets y2 y3 y4 y5
    have h6 : r.Keeps y4 := by
      unfold y4
      exact h0.same rfl rfl rfl rfl rfl rfl
    try clear_value y4
    split
    · exact h6.same rfl rfl rfl rfl rfl rfl
    · apply State.retireRow_keeps
      exact h6

theorem State.startMemTest_keeps {r : State} {s0 : State} (a1 : _) (a2 : _) (h0 : r.Keeps s0) : r.Keeps (State.startMemTest s0 a1 a2) := by
  unfold State.startMemTest
  extract_lets y0 y1
  have h2 : r.Keeps y0 := by
    unfold y0
    apply State.startEntry_keeps
    apply State.restrict_keeps
    exact h0
  try clear_value y0
  exact h2.same rfl rfl rfl rfl rfl rfl

theorem State.memTestEnds_keeps {r : State} {s0 : State} (a1 : _) (h0 : r.Keeps s0) : r.Keeps (State.memTestEnds s0 a1) := by
  unfold State.memTestEnds
  split
  · exact h0
  · extract_lets y5 y6 y7 y8 y9 y10
    have h11 : r.Keeps y6 := by
      unfold y6
      apply State.Keeps.foldl
      · exact h0
      · intro s12 a13 h14
        try beta_reduce
        apply State.applyEcc_keeps
        exact h14
    try clear_value y6
    have h15 : r.Keeps y7 := by
      unfold y7
      apply State.zero_keeps
      exact h11
    try clear_value y7
    have h16 : r.Keeps y10 := by
      unfold y10
      apply State.unrestrict_keeps
      exact h15.same rfl rfl rfl rfl rfl rfl
    try clear_value y10
    apply State.finish_keeps
    exact h16

theorem State.atomicLane_keeps {r : State} {s0 : State} (a1 : _) (a2 : _) (a3 : _) (a4 : _) (h0 : r.Keeps s0) : r.Keeps (State.atomicLane s0 a1 a2 a3 a4).1 := by
  unfold State.atomicLane
  extract_lets y0 y1 y2 y3
  split
  · exact h0
  · dsimp only
    split
    · apply State.devWrite_keeps
      exact h0
    · apply State.write_keeps
      exact h0

theorem State.runLanes_keeps {r : State} {s0 : State} (a1 : _) (a2 : _) (a3 : _) (h0 : r.Keeps s0) : r.Keeps (State.runLanes s0 a1 a2 a3).1 := by
  induction a3 generalizing s0 with
  | nil => exact h0
  | cons l a ih => exact ih (State.atomicLane_keeps _ _ _ _ h0)

theorem State.flagWrite_keeps {r : State} {s0 : State} (a1 : _) (a2 : _) (h0 : r.Keeps s0) : r.Keeps (State.flagWrite s0 a1 a2) := by
  unfold State.flagWrite
  split
  · apply State.flagPut_keeps
    exact h0
  · exact h0

theorem State.refuseAtomic_keeps {r : State} {s0 : State} (a1 : _) (a2 : _) (h0 : r.Keeps s0) : r.Keeps (State.refuseAtomic s0 a1 a2) := by
  unfold State.refuseAtomic
  extract_lets y0
  have h1 : r.Keeps y0 := by
    unfold y0
    apply State.send_keeps
    exact h0
  try clear_value y0
  split
  · split
    · exact h1
    · split
      · apply State.endPlain_keeps
        exact h1
      · exact h1
  · exact h1

theorem State.atomic_keeps {r : State} {s0 : State} (a1 : _) (a2 : _) (h0 : r.Keeps s0) : r.Keeps (State.atomic s0 a1 a2) := by
  unfold State.atomic
  extract_lets y0 y1 y2 y3
  have h4 : r.Keeps y2 := by
    unfold y2
    apply State.Keeps.foldl
    · apply State.portGrants_keeps
      exact h0
    · intro s5 a6 h7
      try beta_reduce
      apply State.windowEcc_keeps
      exact h7
  try clear_value y2
  have h8 : r.Keeps y3.1 := by
    unfold y3
    apply State.runLanes_keeps
    exact h4
  try clear_value y3
  split
  · apply State.refuseAtomic_keeps
    exact h0
  · split
    · apply State.send_keeps
      exact h8
    · exact h8

theorem State.programEnds_keeps {r : State} {s0 : State} (a1 : _) (h0 : r.Keeps s0) : r.Keeps (State.programEnds s0 a1) := by
  unfold State.programEnds
  split
  · exact h0
  · extract_lets y6 y7
    have h8 : r.Keeps y7 := by
      unfold y7
      apply State.modOp_keeps
      exact h0
    try clear_value y7
    split
    · split
      · apply State.endPlain_keeps
        exact h8
      · exact h8
    · exact h8

theorem State.programStops_keeps {r : State} {s0 : State} (a1 : _) (a2 : _) (h0 : r.Keeps s0) : r.Keeps (State.programStops s0 a1 a2) := by
  unfold State.programStops
  split
  · apply State.endOp_keeps
    exact h0
  · exact h0

theorem State.setRail_keeps {r : State} {s0 : State} (a1 : _) (a2 : _) (h0 : r.Keeps s0) : r.Keeps (State.setRail s0 a1 a2) := by
  unfold State.setRail
  exact h0.same rfl rfl rfl rfl rfl rfl

theorem State.aimRail_keeps {r : State} {s0 : State} (a1 : _) (a2 : _) (h0 : r.Keeps s0) : r.Keeps (State.aimRail s0 a1 a2) := by
  unfold State.aimRail
  exact h0.same rfl rfl rfl rfl rfl rfl

theorem State.setRamp_keeps {r : State} {s0 : State} (a1 : _) (a2 : _) (h0 : r.Keeps s0) : r.Keeps (State.setRamp s0 a1 a2) := by
  unfold State.setRamp
  exact h0.same rfl rfl rfl rfl rfl rfl

theorem State.throttleOne_keeps {r : State} {s0 : State} (a1 : _) (h0 : r.Keeps s0) : r.Keeps (State.throttleOne s0 a1) := by
  unfold State.throttleOne
  extract_lets y0 y1 y2 y3 y4 y5 y6 y7 y8 y9
  exact h0.same rfl rfl rfl rfl rfl rfl

theorem State.throttleNow_keeps {r : State} {s0 : State} (h0 : r.Keeps s0) : r.Keeps (State.throttleNow s0) := by
  unfold State.throttleNow
  apply State.Keeps.foldl
  · exact h0
  · intro s0 a1 h2
    try beta_reduce
    apply State.throttleOne_keeps
    exact h2

theorem State.heldOver_keeps {r : State} {s0 : State} (a1 : _) (h0 : r.Keeps s0) : r.Keeps (State.heldOver s0 a1) := by
  unfold State.heldOver
  split
  · exact h0.same rfl rfl rfl rfl rfl rfl
  · exact h0

theorem State.trySwitch_keeps {r : State} {s0 : State} (a1 : _) (h0 : r.Keeps s0) : r.Keeps (State.trySwitch s0 a1) := by
  unfold State.trySwitch
  extract_lets y0 y1 y2 y3
  have h4 : r.Keeps y2 := by
    unfold y2
    apply State.heldOver_keeps
    exact h0
  try clear_value y2
  split
  · exact h0
  · split
    · exact h0
    · split
      · split
        · exact h0
        · apply State.setPaddock_keeps
          exact h0.same rfl rfl rfl rfl rfl rfl
      · apply State.setPaddock_keeps
        exact h4.same rfl rfl rfl rfl rfl rfl

theorem State.replacedOne_keeps {r : State} {s0 : State} (h0 : r.Keeps s0) : r.Keeps (State.replacedOne s0) := by
  unfold State.replacedOne
  exact h0.same rfl rfl rfl rfl rfl rfl

theorem State.retarget_keeps {r : State} {s0 : State} (a1 : _) (a2 : _) (h0 : r.Keeps s0) : r.Keeps (State.retarget s0 a1 a2) := by
  unfold State.retarget
  extract_lets y0 y1
  have h2 : r.Keeps y1 := by
    unfold y1
    split
    · apply State.replacedOne_keeps
      exact h0
    · exact h0
  try clear_value y1
  split
  · apply State.setPaddock_keeps
    apply State.heldOver_keeps
    exact h2
  · split
    · exact h2
    · apply State.setPaddock_keeps
      apply State.heldOver_keeps
      exact h2

theorem State.holdRamp_keeps {r : State} {s0 : State} (a1 : _) (h0 : r.Keeps s0) : r.Keeps (State.holdRamp s0 a1) := by
  unfold State.holdRamp
  split
  · apply State.setRamp_keeps
    exact h0
  · apply State.setRamp_keeps
    exact h0
  · exact h0

theorem State.moveRail_keeps {r : State} {s0 : State} (a1 : _) (h0 : r.Keeps s0) : r.Keeps (State.moveRail s0 a1) := by
  unfold State.moveRail
  extract_lets y0 y1 y2
  have h3 : r.Keeps y0 := by
    unfold y0
    apply State.holdRamp_keeps
    exact h0
  try clear_value y0
  split
  · apply State.setRamp_keeps
    apply State.aimRail_keeps
    exact h3
  · split
    · apply State.aimRail_keeps
      exact h3
    · split
      · apply State.setRamp_keeps
        apply State.setRail_keeps
        apply State.aimRail_keeps
        exact h3
      · apply State.aimRail_keeps
        exact h3

theorem State.runQuarter_keeps {r : State} {s0 : State} (a1 : _) (h0 : r.Keeps s0) : r.Keeps (State.runQuarter s0 a1) := by
  unfold State.runQuarter
  apply State.moveRail_keeps
  apply State.Keeps.foldl
  · exact h0
  · intro s0 a1 h2
    try beta_reduce
    apply State.trySwitch_keeps
    exact h2

theorem State.regrant_keeps {r : State} {s0 : State} (h0 : r.Keeps s0) : r.Keeps (State.regrant s0) := by
  unfold State.regrant
  extract_lets y0
  have h1 : r.Keeps y0 := by
    unfold y0
    apply State.Keeps.foldl
    · exact h0
    · intro s2 a3 h4
      try beta_reduce
      split
      · extract_lets y6
        apply State.retarget_keeps
        apply State.modPaddock_keeps
        exact h4
      · apply State.modPaddock_keeps
        apply State.heldOver_keeps
        exact h4
  try clear_value y0
  apply State.throttleNow_keeps
  apply State.Keeps.foldl
  · exact h1
  · intro s8 a9 h10
    try beta_reduce
    apply State.runQuarter_keeps
    exact h10

theorem State.vrmCeilings_keeps {r : State} {s0 : State} (h0 : r.Keeps s0) : r.Keeps (State.vrmCeilings s0) := by
  unfold State.vrmCeilings
  apply State.Keeps.foldl
  · exact h0
  · intro s0 a1 h2
    try beta_reduce
    extract_lets y3 y4
    apply State.modPaddock_keeps
    exact h2

theorem State.stepOc_keeps {r : State} {s0 : State} (a1 : _) (h0 : r.Keeps s0) : r.Keeps (State.stepOc s0 a1) := by
  unfold State.stepOc
  split
  · apply State.modPaddock_keeps
    exact h0
  · apply State.modPaddock_keeps
    exact h0

theorem State.shutdown_keeps {r : State} {s0 : State} (a1 : _) (h0 : r.Keeps s0) : r.Keeps (State.shutdown s0 a1) := by
  unfold State.shutdown
  exact h0.same rfl rfl rfl rfl rfl rfl

theorem State.faultShutdown_keeps {r : State} {s0 : State} (a1 : _) (h0 : r.Keeps s0) : r.Keeps (State.faultShutdown s0 a1) := by
  unfold State.faultShutdown
  split
  · exact h0
  · apply State.shutdown_keeps
    apply State.event_keeps
    apply State.raiseOtp_keeps
    · exact h0
    · intro a2 a3
      try beta_reduce
      rfl

theorem State.thermalShutdown_keeps {r : State} {s0 : State} (h0 : r.Keeps s0) : r.Keeps (State.thermalShutdown s0) := by
  unfold State.thermalShutdown
  split
  · exact h0
  · apply State.shutdown_keeps
    apply State.event_keeps
    apply State.raiseOtp_keeps
    · exact h0
    · intro a2 a3
      try beta_reduce
      rfl

theorem State.memEnergy_keeps {r : State} {s0 : State} (a1 : _) (a2 : _) (h0 : r.Keeps s0) : r.Keeps (State.memEnergy s0 a1 a2) := by
  unfold State.memEnergy
  split
  · apply State.modJob_keeps
    apply State.modCtx_keeps
    exact h0
  · exact h0

theorem State.setCarry_keeps {r : State} {s0 : State} (a1 : _) (a2 : _) (h0 : r.Keeps s0) : r.Keeps (State.setCarry s0 a1 a2) := by
  unfold State.setCarry
  exact h0.same rfl rfl rfl rfl rfl rfl

theorem State.addOverhead_keeps {r : State} {s0 : State} (a1 : _) (h0 : r.Keeps s0) : r.Keeps (State.addOverhead s0 a1) := by
  unfold State.addOverhead
  exact h0.same rfl rfl rfl rfl rfl rfl

theorem State.divideBy_keeps {r : State} {s0 : State} (a1 : _) (a2 : _) (a3 : _) (h0 : r.Keeps s0)
    (g : ∀ w ∈ a3, ∀ x n, r.Keeps x → r.Keeps (w.2 x n)) : r.Keeps (State.divideBy s0 a1 a2 a3) := by
  unfold State.divideBy
  extract_lets all total given
  split
  · exact State.setCarry_keeps _ _ (State.addOverhead_keeps _ h0)
  · have go : ∀ (f : Nat × (State → Nat → State) → Nat) (l : List (Nat × (State → Nat → State))) (s : State), r.Keeps s →
        (∀ w ∈ l, ∀ x n, r.Keeps x → r.Keeps (w.2 x n)) → r.Keeps (l.foldl (fun s w => w.2 s (f w)) s) := by
      intro f l
      induction l with
      | nil => exact fun s h _ => h
      | cons w l ih =>
        exact fun s h g => ih _ (g w List.mem_cons_self _ _ h) fun v m => g v (List.mem_cons_of_mem _ m)
    exact State.setCarry_keeps _ _ (go (fun w => all * w.1 / total) _ _ h0 g)

theorem State.paddockEnergy_keeps {r : State} {s0 : State} (a1 : _) (a2 : _) (h0 : r.Keeps s0) : r.Keeps (State.paddockEnergy s0 a1 a2) := by
  unfold State.paddockEnergy
  split
  · exact State.addOverhead_keeps _ h0
  · extract_lets own rest ctxs
    refine State.divideBy_keeps _ _ _ (State.modJob_keeps _ _ h0) fun w m => ?_
    rcases List.mem_cons.1 m with rfl | m
    · exact fun x n hx => hx
    · obtain ⟨c, -, rfl⟩ := List.mem_map.1 m
      exact fun x n hx => State.modCtx_keeps _ _ hx

theorem State.clearActivity_keeps {r : State} {s0 : State} (h0 : r.Keeps s0) : r.Keeps (State.clearActivity s0) := by
  unfold State.clearActivity
  exact h0.same rfl rfl rfl rfl rfl rfl

theorem State.countEnergy_keeps {r : State} {s0 : State} (h0 : r.Keeps s0) : r.Keeps (State.countEnergy s0) := by
  unfold State.countEnergy
  extract_lets e total y1 s1 s2 ctxs host fabric mesh
  have h1 : r.Keeps s1 := h0.same rfl rfl rfl rfl rfl rfl
  clear_value e total s1
  have h2 : r.Keeps s2 := by
    refine State.Keeps.foldl h1 fun s q h => State.divideBy_keeps _ _ _ h fun w m => ?_
    obtain ⟨p, -, rfl⟩ := List.mem_map.1 m
    exact fun x n hx => State.paddockEnergy_keeps _ _ hx
  clear_value s2
  have hc : ∀ tier, ∀ w ∈ ctxs tier, ∀ x n, r.Keeps x → r.Keeps (w.2 x n) := by
    intro tier w m
    obtain ⟨c, -, rfl⟩ := List.mem_map.1 m
    exact fun x n hx => State.memEnergy_keeps _ _ hx
  have hl : ∀ w ∈ host ++ fabric, ∀ x n, r.Keeps x → r.Keeps (w.2 x n) := by
    intro w m
    rcases List.mem_append.1 m with m | m <;> obtain ⟨jn, -, rfl⟩ := List.mem_map.1 m <;>
      exact fun x n hx => State.modJob_keeps _ _ hx
  have hm : ∀ w ∈ mesh, ∀ x n, r.Keeps x → r.Keeps (w.2 x n) := by
    intro w m
    obtain ⟨jn, -, rfl⟩ := List.mem_map.1 m
    exact fun x n hx => State.modJob_keeps _ _ hx
  clear_value ctxs host fabric mesh
  refine State.clearActivity_keeps ?_
  · refine State.divideBy_keeps _ _ _ ?_ hm
    refine State.divideBy_keeps _ _ _ ?_ hl
    refine State.divideBy_keeps _ _ _ ?_ (hc 1)
    exact State.divideBy_keeps _ _ _ h2 (hc 0)

theorem State.readTelemetry_keeps {r : State} {s0 : State} (a1 : _) (h0 : r.Keeps s0) : r.Keeps (State.readTelemetry s0 a1) := by
  unfold State.readTelemetry
  extract_lets y0 y1 y2 y3
  have h4 : r.Keeps y3 := by
    unfold y3
    exact h0.same rfl rfl rfl rfl rfl rfl
  try clear_value y3
  apply State.Keeps.foldl
  · exact h4
  · intro s5 a6 h7
    try beta_reduce
    extract_lets y8
    apply State.modPaddock_keeps
    exact h7

theorem State.readHour_keeps {r : State} {s0 : State} (h0 : r.Keeps s0) : r.Keeps (State.readHour s0) := by
  unfold State.readHour
  extract_lets y0 y1 y2 y3 y4
  exact h0.same rfl rfl rfl rfl rfl rfl

theorem State.thermalPeriod_keeps {r : State} {s0 : State} (a1 : _) (h0 : r.Keeps s0) : r.Keeps (State.thermalPeriod s0 a1) := by
  unfold State.thermalPeriod
  extract_lets y0
  apply State.modPaddock_keeps
  exact h0

theorem State.takeCap_keeps {r : State} {s0 : State} (h0 : r.Keeps s0) : r.Keeps (State.takeCap s0) := by
  unfold State.takeCap
  split
  · exact h0.same rfl rfl rfl rfl rfl rfl
  · exact h0

theorem State.capPeriod_keeps {r : State} {s0 : State} (h0 : r.Keeps s0) : r.Keeps (State.capPeriod s0) := by
  unfold State.capPeriod
  extract_lets y0 y1 y2 y3 y4
  have h5 : r.Keeps y3 := by
    unfold y3
    exact h0.same rfl rfl rfl rfl rfl rfl
  try clear_value y3
  have h6 : r.Keeps y4 := by
    unfold y4
    apply State.Keeps.foldl
    · exact h5
    · intro s7 a8 h9
      try beta_reduce
      extract_lets y10 y11 y12 y13
      have h14 : r.Keeps y13 := by
        unfold y13
        apply State.stepOc_keeps
        apply State.thermalPeriod_keeps
        exact h9
      try clear_value y13
      apply State.modPaddock_keeps
      exact h14
  try clear_value y4
  apply State.countEnergy_keeps
  apply State.regrant_keeps
  apply State.vrmCeilings_keeps
  exact h6

theorem State.noteVrm_keeps {r : State} {s0 : State} (a1 : _) (a2 : _) (h0 : r.Keeps s0) : r.Keeps (State.noteVrm s0 a1 a2) := by
  unfold State.noteVrm
  extract_lets y0 y1
  have h2 : r.Keeps y1 := by
    unfold y1
    exact h0.same rfl rfl rfl rfl rfl rfl
  try clear_value y1
  split
  · exact h0.same rfl rfl rfl rfl rfl rfl
  · exact h0.same rfl rfl rfl rfl rfl rfl
  · extract_lets y7
    exact h0.same rfl rfl rfl rfl rfl rfl
  · split
    · apply State.event_keeps
      exact h2
    · exact h2
  · split
    · apply State.faultShutdown_keeps
      exact h0
    · exact h0

theorem State.readVrms_keeps {r : State} {s0 : State} (a1 : _) (h0 : r.Keeps s0) : r.Keeps (State.readVrms s0 a1) := by
  unfold State.readVrms
  split
  · exact h0
  · extract_lets y3
    have h4 : r.Keeps y3 := by
      unfold y3
      apply State.Keeps.foldl
      · exact h0
      · intro s5 a6 h7
        try beta_reduce
        apply State.noteVrm_keeps
        exact h7
    try clear_value y3
    apply State.Keeps.foldl
    · exact h4
    · intro s8 a9 h10
      try beta_reduce
      apply State.noteVrm_keeps
      exact h10

theorem State.capLoop_keeps {r : State} {s0 : State} (a1 : _) (h0 : r.Keeps s0) : r.Keeps (State.capLoop s0 a1) := by
  unfold State.capLoop
  split
  · exact h0
  · extract_lets y2
    have h3 : r.Keeps y2 := by
      unfold y2
      apply State.readVrms_keeps
      apply State.readHour_keeps
      apply State.readTelemetry_keeps
      apply State.takeCap_keeps
      exact h0
    try clear_value y2
    split
    · exact h3
    · split
      · apply State.thermalShutdown_keeps
        exact h3
      · apply State.capPeriod_keeps
        exact h3

theorem State.telemetryIsLost_keeps {r : State} {s0 : State} (h0 : r.Keeps s0) : r.Keeps (State.telemetryIsLost s0) := by
  unfold State.telemetryIsLost
  split
  · apply State.regrant_keeps
    apply State.vrmCeilings_keeps
    exact h0.same rfl rfl rfl rfl rfl rfl
  · exact h0

theorem State.thermalStep_keeps {r : State} {s0 : State} (a1 : _) (h0 : r.Keeps s0) : r.Keeps (State.thermalStep s0 a1) := by
  unfold State.thermalStep
  extract_lets y0 y1
  split
  · exact h0
  · split
    · apply State.regrant_keeps
      apply State.modPaddock_keeps
      exact h0
    · split
      · apply State.regrant_keeps
        apply State.modPaddock_keeps
        exact h0
      · exact h0

theorem State.vrmReached_keeps {r : State} {s0 : State} (a1 : _) (h0 : r.Keeps s0) : r.Keeps (State.vrmReached s0 a1) := by
  unfold State.vrmReached
  split
  · apply State.throttleNow_keeps
    apply State.runQuarter_keeps
    apply State.setRail_keeps
    exact h0
  · split
    · apply State.setRamp_keeps
      exact h0
    · exact h0

theorem State.droop_keeps {r : State} {s0 : State} (a1 : _) (a2 : _) (h0 : r.Keeps s0) : r.Keeps (State.droop s0 a1 a2) := by
  unfold State.droop
  extract_lets y0 y1
  split
  · exact h0
  · apply State.throttleNow_keeps
    apply State.holdRamp_keeps
    apply State.setPaddock_keeps
    exact h0

theorem State.droopEnds_keeps {r : State} {s0 : State} (a1 : _) (h0 : r.Keeps s0) : r.Keeps (State.droopEnds s0 a1) := by
  unfold State.droopEnds
  extract_lets y0 y1
  split
  · exact h0
  · apply State.throttleNow_keeps
    apply State.runQuarter_keeps
    apply State.setPaddock_keeps
    exact h0

theorem State.brake_keeps {r : State} {s0 : State} (h0 : r.Keeps s0) : r.Keeps (State.brake s0) := by
  unfold State.brake
  split
  · exact h0
  · extract_lets y2 y3
    have h4 : r.Keeps y3 := by
      unfold y3
      exact h0.same rfl rfl rfl rfl rfl rfl
    try clear_value y3
    apply State.regrant_keeps
    apply State.Keeps.foldl
    · exact h4
    · intro s5 a6 h7
      try beta_reduce
      apply State.modPaddock_keeps
      exact h7

theorem State.brakeEnds_keeps {r : State} {s0 : State} (h0 : r.Keeps s0) : r.Keeps (State.brakeEnds s0) := by
  unfold State.brakeEnds
  extract_lets y0 y1
  have h2 : r.Keeps y1 := by
    unfold y1
    exact h0.same rfl rfl rfl rfl rfl rfl
  try clear_value y1
  apply State.regrant_keeps
  apply State.Keeps.foldl
  · exact h2
  · intro s3 a4 h5
    try beta_reduce
    apply State.modPaddock_keeps
    exact h5

theorem State.vrmAlert_keeps {r : State} {s0 : State} (a1 : _) (a2 : _) (h0 : r.Keeps s0) : r.Keeps (State.vrmAlert s0 a1 a2) := by
  unfold State.vrmAlert
  split
  · exact h0
  · extract_lets y2 y3
    have h4 : r.Keeps y3 := by
      unfold y3
      apply State.noteVrm_keeps
      exact h0
    try clear_value y3
    split
    · apply State.regrant_keeps
      apply State.vrmCeilings_keeps
      exact h4
    · apply State.regrant_keeps
      apply State.vrmCeilings_keeps
      exact h4
    · extract_lets y12
      have h13 : r.Keeps y12 := by
        unfold y12
        split
        · exact h4
        · apply State.Keeps.foldl
          · exact h4
          · intro s16 a17 h18
            try beta_reduce
            apply State.stepOc_keeps
            exact h18
      try clear_value y12
      apply State.regrant_keeps
      apply State.vrmCeilings_keeps
      exact h13
    · exact h4

theorem State.vrmRecovered_keeps {r : State} {s0 : State} (a1 : _) (h0 : r.Keeps s0) : r.Keeps (State.vrmRecovered s0 a1) := by
  unfold State.vrmRecovered
  extract_lets y0
  split
  · split
    · exact h0
    · apply State.regrant_keeps
      apply State.vrmCeilings_keeps
      exact h0.same rfl rfl rfl rfl rfl rfl
  · split
    · exact h0
    · apply State.regrant_keeps
      apply State.vrmCeilings_keeps
      exact h0.same rfl rfl rfl rfl rfl rfl
  · split
    · exact h0
    · apply State.Keeps.foldl
      · exact h0.same rfl rfl rfl rfl rfl rfl
      · intro s10 a11 h12
        try beta_reduce
        apply State.signal_keeps
        exact h12
  · exact h0
  · exact h0

theorem State.setCap_keeps {r : State} {s0 : State} (a1 : _) (h0 : r.Keeps s0) : r.Keeps (State.setCap s0 a1) := by
  unfold State.setCap
  exact h0.same rfl rfl rfl rfl rfl rfl

theorem State.setPoints_keeps {r : State} {s0 : State} (a1 : _) (a2 : _) (h0 : r.Keeps s0) : r.Keeps (State.setPoints s0 a1 a2) := by
  unfold State.setPoints
  apply State.modJob_keeps
  exact h0

end Sys2Proof.Machine
end

