-- ==== Sys2Proof/Laws/KeepsBoot.lean ====
section
/-! SUPPORT. What the relation `State.Keeps` says of boot, resets and registers: each function respects it. -/

set_option maxRecDepth 20000

namespace Sys2Proof.Machine

theorem State.putHeader_keeps {r : State} {s0 : State} (a1 : _) (h0 : r.Keeps s0) : r.Keeps (State.putHeader s0 a1) := by
  unfold State.putHeader
  extract_lets y0 y1 y2 y3
  exact h0.same rfl rfl rfl rfl rfl rfl

theorem State.halt_keeps {r : State} {s0 : State} (h0 : r.Keeps s0) : r.Keeps (State.halt s0) := by
  unfold State.halt
  exact h0.same rfl rfl rfl rfl rfl rfl

theorem State.bankFailed_keeps {r : State} {s0 : State} (a1 : _) (a2 : _) (h0 : r.Keeps s0) : r.Keeps (State.bankFailed s0 a1 a2) := by
  unfold State.bankFailed
  extract_lets y0 y1 y2 y3 y4 y5
  have h6 : r.Keeps y1 := by
    unfold y1
    exact h0.same rfl rfl rfl rfl rfl rfl
  try clear_value y1
  have h7 : r.Keeps y2 := by
    unfold y2
    apply State.event_keeps
    exact h6
  try clear_value y2
  have h8 : r.Keeps y3 := by
    unfold y3
    apply State.putHeader_keeps
    exact h7
  try clear_value y3
  split
  · exact h8.same rfl rfl rfl rfl rfl rfl
  · exact h7.same rfl rfl rfl rfl rfl rfl

theorem State.runStage1_keeps {r : State} {s0 : State} (a1 : _) (h0 : r.Keeps s0) : r.Keeps (State.runStage1 s0 a1) := by
  unfold State.runStage1
  extract_lets y0 y1
  exact h0.same rfl rfl rfl rfl rfl rfl

theorem State.runMain_keeps {r : State} {s0 : State} (h0 : r.Keeps s0) : r.Keeps (State.runMain s0) := by
  unfold State.runMain
  extract_lets y0 y1 y2 y3 y4 y5
  exact h0.same rfl rfl rfl rfl rfl rfl

theorem State.setLock_keeps {r : State} {s0 : State} (a1 : _) (a2 : _) (h0 : r.Keeps s0) : r.Keeps (State.setLock s0 a1 a2) := by
  unfold State.setLock
  extract_lets y0 y1
  exact h0.same rfl rfl rfl rfl rfl rfl

theorem State.nextPll_keeps {r : State} {s0 : State} (h0 : r.Keeps s0) : r.Keeps (State.nextPll s0) := by
  unfold State.nextPll
  extract_lets y0 y1 y2 y3
  have h4 : r.Keeps y2 := by
    unfold y2
    exact h0.same rfl rfl rfl rfl rfl rfl
  try clear_value y2
  split
  · exact h4.same rfl rfl rfl rfl rfl rfl
  · exact h4

theorem State.pllLocks_keeps {r : State} {s0 : State} (a1 : _) (h0 : r.Keeps s0) : r.Keeps (State.pllLocks s0 a1) := by
  unfold State.pllLocks
  split
  · apply State.nextPll_keeps
    apply State.setLock_keeps
    exact h0
  · split
    · extract_lets y3 y4 y5
      have h6 : r.Keeps y3 := by
        unfold y3
        apply State.setLock_keeps
        exact h0
      try clear_value y3
      have h7 : r.Keeps y5 := by
        unfold y5
        exact h6.same rfl rfl rfl rfl rfl rfl
      try clear_value y5
      split
      · apply State.Keeps.foldl
        · exact h7
        · intro s12 a13 h14
          try beta_reduce
          apply State.retrain_keeps
          exact h14
      · apply State.hostRetrain_keeps
        exact h7
      · exact h7
    · exact h0

theorem State.pllFails_keeps {r : State} {s0 : State} (a1 : _) (h0 : r.Keeps s0) : r.Keeps (State.pllFails s0 a1) := by
  unfold State.pllFails
  split
  · exact h0
  · split
    · exact h0.same rfl rfl rfl rfl rfl rfl
    · apply State.nextPll_keeps
      apply State.Keeps.foldl
      · exact h0
      · intro s7 a8 h9
        try beta_reduce
        apply State.modPort_keeps
        exact h9
    · apply State.nextPll_keeps
      exact h0.same rfl rfl rfl rfl rfl rfl
    · apply State.nextPll_keeps
      exact h0

theorem State.warmAsked_keeps {r : State} {s0 : State} (a1 : _) (h0 : r.Keeps s0) : r.Keeps (State.warmAsked s0 a1) := by
  unfold State.warmAsked
  split
  · exact h0
  · exact h0.same rfl rfl rfl rfl rfl rfl

theorem State.pllLost_keeps {r : State} {s0 : State} (a1 : _) (h0 : r.Keeps s0) : r.Keeps (State.pllLost s0 a1) := by
  unfold State.pllLost
  split
  · exact h0
  · extract_lets y2 y3 y4 y5
    have h6 : r.Keeps y2 := by
      unfold y2
      apply State.setLock_keeps
      exact h0
    try clear_value y2
    have h7 : r.Keeps y4 := by
      unfold y4
      apply State.event_keeps
      exact h6.same rfl rfl rfl rfl rfl rfl
    try clear_value y4
    split
    · apply State.warmAsked_keeps
      exact h7
    · exact h7.same rfl rfl rfl rfl rfl rfl

theorem State.relockFails_keeps {r : State} {s0 : State} (a1 : _) (h0 : r.Keeps s0) : r.Keeps (State.relockFails s0 a1) := by
  unfold State.relockFails
  split
  · apply State.warmAsked_keeps
    exact h0
  · exact h0

theorem State.resetRises_keeps {r : State} {s0 : State} (a1 : _) (h0 : r.Keeps s0) : r.Keeps (State.resetRises s0 a1) := by
  unfold State.resetRises
  split
  · exact h0
  · extract_lets y2 y3 y4
    have h5 : r.Keeps y4 := by
      unfold y4
      exact h0.same rfl rfl rfl rfl rfl rfl
    try clear_value y4
    split
    · exact h5
    · apply State.halt_keeps
      exact h5

theorem State.romStarts_keeps {r : State} {s0 : State} (h0 : r.Keeps s0) : r.Keeps (State.romStarts s0) := by
  unfold State.romStarts
  extract_lets y0 y1 y2
  have h3 : r.Keeps y0 := by
    unfold y0
    apply State.raiseOtp_keeps
    · exact h0
    · intro a4 a5
      try beta_reduce
      rfl
  try clear_value y0
  exact h3.same rfl rfl rfl rfl rfl rfl

theorem State.romEnds_keeps {r : State} {s0 : State} (h0 : r.Keeps s0) : r.Keeps (State.romEnds s0) := by
  unfold State.romEnds
  split
  · exact h0
  · extract_lets y2 y3
    have h4 : r.Keeps y2 := by
      unfold y2
      apply State.romStarts_keeps
      exact h0
    try clear_value y2
    split
    · apply State.runStage1_keeps
      exact h4
    · extract_lets y9
      have h10 : r.Keeps y9 := by
        unfold y9
        apply State.bankFailed_keeps
        exact h4
      try clear_value y9
      split
      · apply State.runStage1_keeps
        exact h10
      · apply State.halt_keeps
        apply State.bankFailed_keeps
        exact h10

theorem State.stage1Ends_keeps {r : State} {s0 : State} (h0 : r.Keeps s0) : r.Keeps (State.stage1Ends s0) := by
  unfold State.stage1Ends
  split
  · exact h0
  · extract_lets y2 y3
    split
    · split
      · exact h0.same rfl rfl rfl rfl rfl rfl
      · apply State.halt_keeps
        exact h0.same rfl rfl rfl rfl rfl rfl
    · apply State.runMain_keeps
      exact h0
    · apply State.halt_keeps
      exact h0.same rfl rfl rfl rfl rfl rfl
    · split
      · apply State.halt_keeps
        apply State.bankFailed_keeps
        exact h0
      · extract_lets y24
        have h25 : r.Keeps y24 := by
          unfold y24
          apply State.bankFailed_keeps
          exact h0
        try clear_value y24
        split
        · apply State.runMain_keeps
          apply State.runStage1_keeps
          exact h25
        · apply State.halt_keeps
          apply State.bankFailed_keeps
          exact h25

theorem State.quarantineRow_keeps {r : State} {s0 : State} (a1 : _) (a2 : _) (h0 : r.Keeps s0) : r.Keeps (State.quarantineRow s0 a1 a2) := by
  unfold State.quarantineRow
  apply State.Keeps.foldl
  · exact h0
  · intro s0 a1 h2
    try beta_reduce
    apply State.Keeps.foldl
    · exact h2
    · intro s3 a4 h5
      try beta_reduce
      apply State.modTile_keeps
      · exact h5
      · intro a6 h7
        try beta_reduce
        rfl

theorem State.bankReady_keeps {r : State} {s0 : State} (h0 : r.Keeps s0) : r.Keeps (State.bankReady s0) := by
  unfold State.bankReady
  extract_lets h b y1 s1
  have h1 : r.Keeps s1 := by
    unfold s1
    split
    · exact ⟨fun x => ⟨(h0.sound x).mem, (h0.sound x).retired⟩, Nat.le_trans h0.svn (Nat.le_max_left _ _), h0.pending, h0.quarantine⟩
    · exact h0
  clear_value y1 s1
  split
  · exact State.putHeader_keeps _ h1
  · split
    · exact State.putHeader_keeps _ h0
    · exact h0

theorem State.memoryUp_keeps {r : State} {s0 : State} (a1 : _) (h0 : r.Keeps s0) : r.Keeps (State.memoryUp s0 a1) :=
  ⟨fun _ => ⟨rfl, fun _ g => g⟩, h0.svn, h0.pending, h0.quarantine⟩

theorem State.measureMain_keeps {r : State} {s0 : State} (a1 : _) (h0 : r.Keeps s0) : r.Keeps (State.measureMain s0 a1) := by
  unfold State.measureMain
  extract_lets y0 y1
  exact h0.same rfl rfl rfl rfl rfl rfl

theorem State.mainReady_keeps {r : State} {s0 : State} (h0 : r.Keeps s0) : r.Keeps (State.mainReady s0) := by
  unfold State.mainReady
  extract_lets y0 y1 y2
  have h3 : r.Keeps y1 := by
    unfold y1
    exact h0.same rfl rfl rfl rfl rfl rfl
  try clear_value y1
  apply State.bankReady_keeps
  exact h3.same rfl rfl rfl rfl rfl rfl

theorem State.memoryFound_keeps {r : State} {s0 : State} (a1 : _) (h0 : r.Keeps s0) : r.Keeps (State.memoryFound s0 a1) := by
  unfold State.memoryFound
  extract_lets y0 y1
  have h2 : r.Keeps y0 := by
    unfold y0
    apply State.memoryUp_keeps
    exact h0
  try clear_value y0
  have h3 : r.Keeps y1 := by
    unfold y1
    apply State.Keeps.foldl
    · exact h2
    · intro s4 a5 h6
      try beta_reduce
      apply State.quarantineRow_keeps
      exact h6
  try clear_value y1
  apply State.Keeps.foldl
  · exact h3
  · intro s7 a8 h9
    try beta_reduce
    apply State.event_keeps
    exact h9

theorem State.mainEnds_keeps {r : State} {s0 : State} (a1 : _) (h0 : r.Keeps s0) : r.Keeps (State.mainEnds s0 a1) := by
  unfold State.mainEnds
  split
  · exact h0
  · apply State.mainReady_keeps
    apply State.bootRecord_keeps
    apply State.measureMain_keeps
    apply State.memoryFound_keeps
    exact h0

theorem Tile.warm_quarantined (t : Tile) : t.warm.quarantined = t.quarantined := rfl

theorem lookup_mapTiles (m : SMap Tile) (n : Nat) (f : Tile → Tile)
    (h : (lookup Tile.reset m n).quarantined = true) (g : ∀ t, (f t).quarantined = t.quarantined) :
    (lookup Tile.reset (m.map fun e => (e.1, f e.2)) n).quarantined = true := by
  induction m with
  | nil => exact h
  | cons e m ih =>
    obtain ⟨k, t⟩ := e
    simp only [List.map_cons, lookup] at h ⊢
    split at h
    · next c => rw [if_pos c, g]; exact h
    · next c => rw [if_neg c]; exact ih h

theorem State.warmed_keeps {r : State} {s0 : State} (a1 : _) (a2 : _) (h : r.Keeps s0) : r.Keeps (State.warmed s0 a1 a2) :=
  ⟨fun x => ⟨(h.sound x).mem, (h.sound x).retired⟩, h.svn, h.pending,
    fun n x => lookup_mapTiles _ n Tile.warm (h.quarantine n x) fun _ => rfl⟩

theorem State.doWarm_keeps {r : State} {s0 : State} (a1 : _) (h0 : r.Keeps s0) : r.Keeps (State.doWarm s0 a1) := by
  unfold State.doWarm
  extract_lets ended slots paired
  refine State.Keeps.foldl (State.throttleNow_keeps ?_) fun _ _ h => State.pairTimesOut_keeps _ h
  exact State.Keeps.foldl (State.warmed_keeps _ _ (State.event_keeps _ _ h0)) fun _ _ h => State.zeroTile_keeps _ h

theorem State.warmReset_keeps {r : State} {s0 : State} (a1 : _) (h0 : r.Keeps s0) : r.Keeps (State.warmReset s0 a1) := by
  unfold State.warmReset
  split
  · exact h0
  · apply State.doWarm_keeps
    exact h0

theorem State.tableReloaded_keeps {r : State} {s0 : State} (h0 : r.Keeps s0) : r.Keeps (State.tableReloaded s0) := by
  unfold State.tableReloaded
  split
  · exact h0
  · exact h0.same rfl rfl rfl rfl rfl rfl

theorem State.stageWrite_keeps {r : State} {s0 : State} (a1 : _) (h0 : r.Keeps s0) : r.Keeps (State.stageWrite s0 a1) := by
  unfold State.stageWrite
  extract_lets y0 y1 y2 y3 y4 y5 y6
  have h7 : r.Keeps y3 := by
    unfold y3
    exact h0.same rfl rfl rfl rfl rfl rfl
  try clear_value y3
  have h8 : r.Keeps y4 := by
    unfold y4
    split
    · exact h0
    · split
      · apply State.putHeader_keeps
        exact h7
      · exact h7
  try clear_value y4
  exact h8.same rfl rfl rfl rfl rfl rfl

theorem State.activate_keeps {r : State} {s0 : State} (a1 : _) (a2 : _) (h0 : r.Keeps s0) : r.Keeps (State.activate s0 a1 a2) := by
  unfold State.activate
  extract_lets y0 y1 y2 y3 y4 y5 y6
  have h7 : r.Keeps y2 := by
    unfold y2
    apply State.event_keeps
    apply State.raiseOtp_keeps
    · exact h0
    · intro a8 a9
      try beta_reduce
      rfl
  try clear_value y2
  split
  · split
    · apply State.finish_keeps
      exact h7.same rfl rfl rfl rfl rfl rfl
    · apply State.finish_keeps
      apply State.putHeader_keeps
      exact h7
  · apply State.finish_keeps
    exact h0.same rfl rfl rfl rfl rfl rfl

theorem State.startAttest_keeps {r : State} {s0 : State} (a1 : _) (a2 : _) (h0 : r.Keeps s0) : r.Keeps (State.startAttest s0 a1 a2) := by
  unfold State.startAttest
  extract_lets y0 y1 y2
  have h3 : r.Keeps y2 := by
    unfold y2
    exact h0.same rfl rfl rfl rfl rfl rfl
  try clear_value y2
  split
  · apply State.startEntry_keeps
    exact h3
  · exact h3

theorem State.reportDone_keeps {r : State} {s0 : State} (h0 : r.Keeps s0) : r.Keeps (State.reportDone s0) := by
  unfold State.reportDone
  split
  · exact h0
  · extract_lets y7 y8
    have h9 : r.Keeps y8 := by
      unfold y8
      apply State.finish_keeps
      exact h0.same rfl rfl rfl rfl rfl rfl
    try clear_value y8
    split
    · apply State.startEntry_keeps
      exact h9
    · exact h9

theorem State.hourly_keeps {r : State} {s0 : State} (a1 : _) (h0 : r.Keeps s0) : r.Keeps (State.hourly s0 a1) := by
  unfold State.hourly
  split
  · exact h0
  · extract_lets y2 y3 y4 y5 y6 y7 y8
    apply State.record_keeps
    exact h0.same rfl rfl rfl rfl rfl rfl

theorem State.csrRead_keeps {r : State} {s0 : State} (a1 : _) (a2 : _) (h0 : r.Keeps s0) : r.Keeps (State.csrRead s0 a1 a2).1 := by
  unfold State.csrRead
  extract_lets y0
  dsimp only
  exact h0.same rfl rfl rfl rfl rfl rfl

theorem State.stpClear_keeps {r : State} {s0 : State} (h0 : r.Keeps s0) : r.Keeps (State.stpClear s0) := by
  unfold State.stpClear
  exact h0.same rfl rfl rfl rfl rfl rfl

theorem State.onlyIf_keeps {r : State} {s0 : State} (a1 : _) (a2 : _) (h0 : r.Keeps s0) (g2 : ∀ x0, r.Keeps x0 → r.Keeps (a2 x0)) : r.Keeps (State.onlyIf s0 a1 a2) := by
  unfold State.onlyIf
  split
  · with_reducible apply g2
    exact h0
  · exact h0

theorem State.writePortCtl_keeps {r : State} {s0 : State} (a1 : _) (a2 : _) (a3 : _) (a4 : _) (h0 : r.Keeps s0) : r.Keeps (State.writePortCtl s0 a1 a2 a3 a4).1 := by
  unfold State.writePortCtl
  extract_lets y0 y1 y2 y3 y4 y5
  have h6 : r.Keeps y3 := by
    unfold y3
    apply State.modPort_keeps
    exact h0
  try clear_value y3
  have h7 : r.Keeps y4 := by
    unfold y4
    apply State.onlyIf_keeps
    · exact h6
    · intro s8 h9
      try beta_reduce
      apply State.enablePort_keeps
      exact h9
  try clear_value y4
  have h10 : r.Keeps y5 := by
    unfold y5
    apply State.onlyIf_keeps
    · exact h7
    · intro s11 h12
      try beta_reduce
      apply State.retrain_keeps
      exact h12
  try clear_value y5
  exact h10

theorem State.writeRoute_keeps {r : State} {s0 : State} (a1 : _) (a2 : _) (a3 : _) (a4 : _) (h0 : r.Keeps s0) : r.Keeps (State.writeRoute s0 a1 a2 a3 a4) := by
  unfold State.writeRoute
  extract_lets y0 y1 y2
  apply State.retryWaiting_keeps
  exact h0.same rfl rfl rfl rfl rfl rfl

theorem State.writeHostCtl_keeps {r : State} {s0 : State} (a1 : _) (a2 : _) (a3 : _) (h0 : r.Keeps s0) : r.Keeps (State.writeHostCtl s0 a1 a2 a3).1 := by
  unfold State.writeHostCtl
  extract_lets y0 y1 y2
  have h3 : r.Keeps y2 := by
    unfold y2
    exact h0.same rfl rfl rfl rfl rfl rfl
  try clear_value y2
  dsimp only
  apply State.onlyIf_keeps
  · exact h3
  · intro s4 h5
    try beta_reduce
    apply State.hostRetrain_keeps
    exact h5

theorem State.writeReg_keeps {r : State} {s0 : State} (a1 : _) (a2 : _) (a3 : _) (h0 : r.Keeps s0) : r.Keeps (State.writeReg s0 a1 a2 a3).1 := by
  unfold State.writeReg
  extract_lets y0 y1 y2 y3 y4 y5 y6 y7 y8
  split
  · extract_lets y11 y12 y13
    have h14 : r.Keeps y11 := by
      unfold y11
      apply State.onlyIf_keeps
      · exact h0
      · intro s15 h16
        try beta_reduce
        apply State.modTile_keeps
        · exact h16
        · intro a17 h18
          try beta_reduce
          assumption
    try clear_value y11
    have h19 : r.Keeps y12 := by
      unfold y12
      apply State.onlyIf_keeps
      · exact h14
      · intro s20 h21
        try beta_reduce
        apply State.modTile_keeps
        · exact h21
        · intro a22 h23
          try beta_reduce
          assumption
    try clear_value y12
    have h24 : r.Keeps y13 := by
      unfold y13
      apply State.onlyIf_keeps
      · exact h19
      · intro s25 h26
        try beta_reduce
        apply State.modTile_keeps
        · exact h26
        · intro a27 h28
          try beta_reduce
          assumption
    try clear_value y13
    dsimp only
    apply State.onlyIf_keeps
    · exact h24
    · intro s29 h30
      try beta_reduce
      apply State.modTile_keeps
      · exact h30
      · intro a31 h32
        try beta_reduce
        assumption
  · dsimp only
    apply State.onlyIf_keeps
    · exact h0
    · intro s34 h35
      try beta_reduce
      apply State.stpClear_keeps
      exact h35
  · dsimp only
    apply State.onlyIf_keeps
    · exact h0
    · intro s37 h38
      try beta_reduce
      apply State.writeFid_keeps
      exact h38
  · split
    · apply State.writePortCtl_keeps
      exact h0
    · dsimp only
      apply State.writeRoute_keeps
      exact h0
    · exact h0
  · apply State.writeHostCtl_keeps
    exact h0
  · dsimp only
    exact h0.same rfl rfl rfl rfl rfl rfl
  · dsimp only
    exact h0.same rfl rfl rfl rfl rfl rfl
  · dsimp only
    exact h0.same rfl rfl rfl rfl rfl rfl
  · exact h0

theorem State.csrWrite_keeps {r : State} {s0 : State} (a1 : _) (a2 : _) (a3 : _) (h0 : r.Keeps s0) : r.Keeps (State.csrWrite s0 a1 a2 a3).1 := by
  unfold State.csrWrite
  split
  · apply State.writeReg_keeps
    exact h0
  · exact h0

theorem State.sidebandWrite_keeps {r : State} {s0 : State} (a1 : _) (h0 : r.Keeps s0) : r.Keeps (State.sidebandWrite s0 a1) := by
  unfold State.sidebandWrite
  split
  · apply State.send_keeps
    exact h0.same rfl rfl rfl rfl rfl rfl
  · apply State.send_keeps
    exact h0

theorem State.sidebandRead_keeps {r : State} {s0 : State} (a1 : _) (h0 : r.Keeps s0) : r.Keeps (State.sidebandRead s0 a1) := by
  unfold State.sidebandRead
  split
  · apply State.send_keeps
    exact h0
  · extract_lets y2 y3
    apply State.send_keeps
    exact h0.same rfl rfl rfl rfl rfl rfl

end Sys2Proof.Machine
end

