-- ==== Sys2Proof/Laws/KeepsCommands.lean ====
section
/-! SUPPORT. What the relation `State.Keeps` says of the journal and the host commands: each function respects it. -/

set_option maxRecDepth 20000

namespace Sys2Proof.Machine

theorem State.sendReply_keeps {r : State} {s0 : State} (a1 : _) (h0 : r.Keeps s0) : r.Keeps (State.sendReply s0 a1) := by
  unfold State.sendReply
  split
  · apply State.tx_keeps
    exact h0
  · exact h0

theorem State.refuse_keeps {r : State} {s0 : State} (a1 : _) (a2 : _) (a3 : _) (h0 : r.Keeps s0) : r.Keeps (State.refuse s0 a1 a2 a3) := by
  unfold State.refuse
  apply State.sendReply_keeps
  exact h0

theorem State.replyFor_keeps {r : State} {s0 : State} (a1 : _) (a2 : _) (h0 : r.Keeps s0) : r.Keeps (State.replyFor s0 a1 a2) := by
  unfold State.replyFor
  split
  · apply State.sendReply_keeps
    exact h0
  · exact h0.same rfl rfl rfl rfl rfl rfl

theorem State.flushReplies_keeps {r : State} {s0 : State} (h0 : r.Keeps s0) : r.Keeps (State.flushReplies s0) := by
  unfold State.flushReplies
  split
  · exact h0
  · apply State.Keeps.foldl
    · exact h0.same rfl rfl rfl rfl rfl rfl
    · intro s2 a3 h4
      try beta_reduce
      apply State.sendReply_keeps
      exact h4

theorem State.mirrorWrite_keeps {r : State} {s0 : State} (a1 : _) (h0 : r.Keeps s0) : r.Keeps (State.mirrorWrite s0 a1) := by
  unfold State.mirrorWrite
  split
  · exact h0
  · extract_lets y2 y3 y4 y5 y6 y7
    have h8 : r.Keeps y3 := by
      unfold y3
      apply State.write_keeps
      exact h0
    try clear_value y3
    have h9 : r.Keeps y7 := by
      unfold y7
      exact h8.same rfl rfl rfl rfl rfl rfl
    try clear_value y7
    apply State.Keeps.foldl
    · exact h9
    · intro s10 a11 h12
      try beta_reduce
      apply State.sendReply_keeps
      exact h12

theorem State.ends_keeps {r : State} {s0 : State} (a1 : _) (h0 : r.Keeps s0) : r.Keeps (State.ends s0 a1) := by
  unfold State.ends
  apply State.finish_keeps
  exact h0

theorem State.setNet_keeps {r : State} {s0 : State} (a1 : _) (h0 : r.Keeps s0) : r.Keeps (State.setNet s0 a1) := by
  unfold State.setNet
  extract_lets y0 y1
  exact h0.same rfl rfl rfl rfl rfl rfl

theorem State.windowTook_keeps {r : State} {s0 : State} (a1 : _) (a2 : _) (h0 : r.Keeps s0) : r.Keeps (State.windowTook s0 a1 a2) := by
  unfold State.windowTook
  split
  · split
    · exact h0.same rfl rfl rfl rfl rfl rfl
    · exact h0
  · exact h0

theorem State.memRead_keeps {r : State} {s0 : State} (a1 : _) (a2 : _) (h0 : r.Keeps s0) : r.Keeps (State.memRead s0 a1 a2) := by
  unfold State.memRead
  extract_lets y0 y1 y2 y3 y4
  have h5 : r.Keeps y4 := by
    unfold y4
    apply State.hostOut_keeps
    apply State.remotePort_keeps
    apply State.windowTook_keeps
    exact h0
  try clear_value y4
  split
  · apply State.ends_keeps
    exact h0
  · split
    · exact h0
    · split
      · apply State.finish_keeps
        apply State.hostPoison_keeps
        exact h5
      · apply State.finish_keeps
        exact h5

theorem State.memWrite_keeps {r : State} {s0 : State} (a1 : _) (a2 : _) (a3 : _) (h0 : r.Keeps s0) : r.Keeps (State.memWrite s0 a1 a2 a3) := by
  unfold State.memWrite
  extract_lets y0 y1 y2
  split
  · apply State.ends_keeps
    exact h0
  · split
    · exact h0
    · apply State.ends_keeps
      apply State.devWrite_keeps
      apply State.hostIn_keeps
      apply State.remotePort_keeps
      exact h0

theorem State.hostGoesOn_keeps {r : State} {s0 : State} (h0 : r.Keeps s0) : r.Keeps (State.hostGoesOn s0) := by
  unfold State.hostGoesOn
  apply State.Keeps.foldl
  · exact h0
  · intro s0 a1 h2
    try beta_reduce
    split
    · apply State.memRead_keeps
      exact h2
    · apply State.memWrite_keeps
      exact h2
    · exact h2

theorem State.createJob_keeps {r : State} {s0 : State} (a1 : _) (a2 : _) (a3 : _) (h0 : r.Keeps s0) : r.Keeps (State.createJob s0 a1 a2 a3) := by
  unfold State.createJob
  extract_lets y0 y1
  have h2 : r.Keeps y0 := by
    unfold y0
    apply State.forgetJob_keeps
    apply State.setJob_keeps
    exact h0
  try clear_value y0
  have h3 : r.Keeps y1 := by
    unfold y1
    split
    · apply State.unrestrict_keeps
      exact h2.same rfl rfl rfl rfl rfl rfl
    · exact h2
  try clear_value y1
  apply State.ends_keeps
  exact h3

theorem State.readReply_keeps {r : State} {s0 : State} (a1 : _) (a2 : _) (h0 : r.Keeps s0) : r.Keeps (State.readReply s0 a1 a2).1 := by
  unfold State.readReply
  split
  · exact h0
  · exact h0
  · exact h0
  · exact h0
  · extract_lets y5
    have h6 : r.Keeps y5.1 := by
      unfold y5
      apply State.csrRead_keeps
      apply State.carry_keeps
      exact h0
    try clear_value y5
    dsimp only
    apply State.carry_keeps
    exact h6
  · exact h0
  · exact h0

theorem State.readEnds_keeps {r : State} {s0 : State} (a1 : _) (a2 : _) (a3 : _) (h0 : r.Keeps s0) : r.Keeps (State.readEnds s0 a1 a2 a3) := by
  unfold State.readEnds
  extract_lets y0
  have h1 : r.Keeps y0.1 := by
    unfold y0
    apply State.readReply_keeps
    exact h0
  try clear_value y0
  apply State.finish_keeps
  exact h1

theorem State.deviceEffect_keeps {r : State} {s0 : State} (a1 : _) (a2 : _) (a3 : _) (h0 : r.Keeps s0) : r.Keeps (State.deviceEffect s0 a1 a2 a3) := by
  unfold State.deviceEffect
  split
  · apply State.ends_keeps
    apply State.setNet_keeps
    exact h0
  · extract_lets y2
    have h3 : r.Keeps y2.1 := by
      unfold y2
      apply State.csrWrite_keeps
      apply State.carry_keeps
      exact h0
    try clear_value y2
    apply State.finish_keeps
    exact h3
  · apply State.ends_keeps
    apply State.setQp_keeps
    apply State.cutMessage_keeps
    exact h0
  · apply State.ends_keeps
    apply State.setCap_keeps
    exact h0
  · apply State.finish_keeps
    exact h0
  · apply State.finish_keeps
    exact h0
  · extract_lets y9
    have h10 : r.Keeps y9.1 := by
      unfold y9
      apply State.grant_keeps
      exact h0
    try clear_value y9
    apply State.finish_keeps
    exact h10
  · apply State.finish_keeps
    exact h0
  · apply State.startAttest_keeps
    exact h0
  · apply State.ends_keeps
    apply State.stageWrite_keeps
    exact h0
  · apply State.activate_keeps
    exact h0
  · apply State.warmAsked_keeps
    apply State.ends_keeps
    exact h0
  · apply State.startMemTest_keeps
    exact h0
  · apply State.ends_keeps
    apply State.setDate_keeps
    exact h0
  · apply State.finish_keeps
    exact h0
  · apply State.readEnds_keeps
    exact h0

theorem State.armEffect_keeps {r : State} {s0 : State} (a1 : _) (a2 : _) (a3 : _) (a4 : _) (h0 : r.Keeps s0) : r.Keeps (State.armEffect s0 a1 a2 a3 a4).1 := by
  unfold State.armEffect
  extract_lets y0 y1
  have h2 : r.Keeps y0 := by
    unfold y0
    apply State.modEntry_keeps
    exact h0
  try clear_value y0
  have h3 : r.Keeps y1 := by
    unfold y1
    apply State.arm_keeps
    exact h2
  try clear_value y1
  exact h3

theorem State.jobEffect_keeps {r : State} {s0 : State} (a1 : _) (a2 : _) (a3 : _) (a4 : _) (a5 : _) (h0 : r.Keeps s0) : r.Keeps (State.jobEffect s0 a1 a2 a3 a4 a5).1 := by
  unfold State.jobEffect
  split
  · dsimp only
    apply State.memRead_keeps
    exact h0
  · dsimp only
    apply State.memWrite_keeps
    exact h0
  · apply State.armEffect_keeps
    exact h0
  · dsimp only
    apply State.streamCancelled_keeps
    exact h0
  · dsimp only
    apply State.finish_keeps
    exact h0
  · apply State.openXfer_keeps
    exact h0
  · dsimp only
    apply State.ends_keeps
    split
    · apply State.closeXfer_keeps
      exact h0
    · exact h0
  · dsimp only
    apply State.finish_keeps
    exact h0
  · dsimp only
    apply State.createJob_keeps
    exact h0
  · dsimp only
    apply State.modifyJob_keeps
    exact h0
  · dsimp only
    apply State.releaseJob_keeps
    exact h0
  · dsimp only
    apply State.opCancelled_keeps
    exact h0
  · dsimp only
    apply State.ends_keeps
    apply State.setPoints_keeps
    exact h0
  · dsimp only
    apply State.finish_keeps
    exact h0
  · dsimp only
    apply State.ends_keeps
    apply State.setState_keeps
    exact h0
  · dsimp only
    apply State.startRestore_keeps
    exact h0
  · dsimp only
    apply State.startPair_keeps
    exact h0
  · dsimp only
    apply State.ends_keeps
    apply State.unpair_keeps
    exact h0
  · dsimp only
    apply State.startFailover_keeps
    exact h0
  · dsimp only
    apply State.ends_keeps
    apply State.setPolicy_keeps
    exact h0
  · exact h0

theorem State.emptyMicroBatch_keeps {r : State} {s0 : State} (a1 : _) (a2 : _) (h0 : r.Keeps s0) : r.Keeps (State.emptyMicroBatch s0 a1 a2) := by
  unfold State.emptyMicroBatch
  split
  · exact h0
  · extract_lets y5 y6
    have h7 : r.Keeps y6 := by
      unfold y6
      apply State.modJob_keeps
      exact h0
    try clear_value y6
    split
    · apply State.closeSet_keeps
      exact h7
    · exact h7

theorem State.endEmpty_keeps {r : State} {s0 : State} (a1 : _) (a2 : _) (h0 : r.Keeps s0) : r.Keeps (State.endEmpty s0 a1 a2) := by
  unfold State.endEmpty
  split
  · exact h0
  · split
    · split
      · apply State.endOp_keeps
        apply State.emptyMicroBatch_keeps
        apply State.startEntry_keeps
        exact h0
      · exact h0
    · exact h0

theorem State.acceptOp_keeps {r : State} {s0 : State} (a1 : _) (a2 : _) (a3 : _) (a4 : _) (h0 : r.Keeps s0) : r.Keeps (State.acceptOp s0 a1 a2 a3 a4).1 := by
  unfold State.acceptOp
  extract_lets d o0 rows
  split
  · split
    · exact State.noteAccepted_keeps _ _ _ (State.modWork_keeps _ _ h0)
    · extract_lets dense t wgb o s1 s2 s3 s4 s5 lost s6
      have h2 : r.Keeps s2 := State.modEntry_keeps _ _ (State.modWork_keeps _ _ h0)
      clear_value s2 wgb
      have h3 : r.Keeps s3 := State.noteAccepted_keeps _ _ _ h2
      clear_value s3
      have h4 : r.Keeps s4 := by
        unfold s4
        split
        · exact State.lastTiling_keeps _ _ _ h3
        · exact h3
      clear_value s4
      have h5 : r.Keeps s5 := by
        unfold s5
        split
        · exact State.reserve_keeps _ _ _ _ h4
        · exact h4
      clear_value s5
      have h6 : r.Keeps s6 := by
        unfold s6
        cases wgb with
        | none => exact h5
        | some id => exact State.modJob_keeps _ _ h5
      clear_value s6 lost
      split
      · split
        · exact State.endOp_keeps _ _ _ _ h6
        · exact h6
      · exact State.endEmpty_keeps _ _ h6
  · exact h0

theorem State.acceptRow_keeps {r : State} {s0 : State} (a1 : _) (a2 : _) (a3 : _) (h0 : r.Keeps s0) : r.Keeps (State.acceptRow s0 a1 a2 a3).1 := by
  unfold State.acceptRow
  split
  · exact h0
  · extract_lets y5 y6 y7 y8 y9 y10
    have h11 : r.Keeps y9 := by
      unfold y9
      apply State.modWork_keeps
      exact h0
    try clear_value y9
    have h12 : r.Keeps y10 := by
      unfold y10
      apply State.lastTiling_keeps
      apply State.noteAccepted_keeps
      apply State.modEntry_keeps
      exact h11
    try clear_value y10
    dsimp only
    apply State.endEmpty_keeps
    exact h12

theorem State.acceptColl_keeps {r : State} {s0 : State} (a1 : _) (h0 : r.Keeps s0) : r.Keeps (State.acceptColl s0 a1) := by
  unfold State.acceptColl
  split
  · exact h0
  · split
    · split
      · apply State.failColl_keeps
        exact h0
      · exact h0
    · exact h0

theorem State.acceptBarrier_keeps {r : State} {s0 : State} (a1 : _) (a2 : _) (a3 : _) (h0 : r.Keeps s0) : r.Keeps (State.acceptBarrier s0 a1 a2 a3) := by
  unfold State.acceptBarrier
  extract_lets y0
  split
  · apply State.modWork_keeps
    exact h0
  · exact h0

theorem State.queueEffect_keeps {r : State} {s0 : State} (a1 : _) (a2 : _) (a3 : _) (a4 : _) (a5 : _) (h0 : r.Keeps s0) : r.Keeps (State.queueEffect s0 a1 a2 a3 a4 a5).1 := by
  unfold State.queueEffect
  split
  · dsimp only
    apply State.ends_keeps
    apply State.forgetCtx_keeps
    apply State.setCtx_keeps
    exact h0
  · dsimp only
    apply State.releaseCtx_keeps
    exact h0
  · dsimp only
    apply State.acceptBarrier_keeps
    exact h0
  · apply State.acceptRow_keeps
    exact h0
  · apply State.acceptOp_keeps
    exact h0
  · dsimp only
    apply State.acceptColl_keeps
    exact h0
  · dsimp only
    apply State.acceptColl_keeps
    exact h0
  · exact h0

theorem State.effect_keeps {r : State} {s0 : State} (a1 : _) (a2 : _) (a3 : _) (a4 : _) (a5 : _) (a6 : _) (h0 : r.Keeps s0) : r.Keeps (State.effect s0 a1 a2 a3 a4 a5 a6).1 := by
  unfold State.effect
  split
  · dsimp only
    apply State.deviceEffect_keeps
    exact h0
  · apply State.jobEffect_keeps
    exact h0
  · apply State.queueEffect_keeps
    exact h0
  · exact h0

theorem State.enter_keeps {r : State} {s0 : State} (a1 : _) (a2 : _) (a3 : _) (h0 : r.Keeps s0) : r.Keeps (State.enter s0 a1 a2 a3) := by
  unfold State.enter
  extract_lets y0
  have h1 : r.Keeps y0 := by
    unfold y0
    exact h0.same rfl rfl rfl rfl rfl rfl
  try clear_value y0
  split
  · apply State.settle_keeps
    apply State.modCtx_keeps
    exact h1
  · exact h1

theorem State.journalled_keeps {r : State} {s0 : State} (a1 : _) (h0 : r.Keeps s0) : r.Keeps (State.journalled s0 a1) := by
  unfold State.journalled
  extract_lets y0 y1 y2
  have h3 : r.Keeps y0 := by
    unfold y0
    apply State.setSlot_keeps
    exact h0
  try clear_value y0
  exact h3.same rfl rfl rfl rfl rfl rfl

theorem State.firstReply_keeps {r : State} {s0 : State} (a1 : _) (a2 : _) (a3 : _) (h0 : r.Keeps s0) : r.Keeps (State.firstReply s0 a1 a2 a3) := by
  unfold State.firstReply
  extract_lets y0 y1
  have h2 : r.Keeps y1 := by
    unfold y1
    apply State.modEntry_keeps
    exact h0
  try clear_value y1
  apply State.replyFor_keeps
  exact h2

theorem State.readChecks_keeps {r : State} {s0 : State} (a1 : _) (a2 : _) (h0 : r.Keeps s0) : r.Keeps (State.readChecks s0 a1 a2) := by
  unfold State.readChecks
  split
  · apply State.hostEcc_keeps
    exact h0
  · exact h0

theorem State.journalRefusal_keeps {r : State} {s0 : State} (a1 : _) (a2 : _) (a3 : _) (h0 : r.Keeps s0) : r.Keeps (State.journalRefusal s0 a1 a2 a3) := by
  unfold State.journalRefusal
  extract_lets y0 y1 y2
  have h3 : r.Keeps y2 := by
    unfold y2
    split
    · apply State.endedBad_keeps
      exact h0
    · exact h0
  try clear_value y2
  apply State.journalled_keeps
  exact h3

theorem State.take_keeps {r : State} {s0 : State} (a1 : _) (a2 : _) (h0 : r.Keeps s0) : r.Keeps (State.take s0 a1 a2) := by
  unfold State.take
  extract_lets y0 y1 y2 y3 y4
  have h5 : r.Keeps y3 := by
    unfold y3
    apply State.readChecks_keeps
    apply State.enter_keeps
    apply State.journalled_keeps
    exact h0
  try clear_value y3
  have h6 : r.Keeps y4.1 := by
    unfold y4
    apply State.effect_keeps
    exact h5
  try clear_value y4
  split
  · apply State.firstReply_keeps
    apply State.journalRefusal_keeps
    exact h0
  · apply State.poolMark_keeps
    apply State.firstReply_keeps
    exact h6

theorem State.next_keeps {r : State} {s0 : State} (a1 : _) (a2 : _) (h0 : r.Keeps s0) : r.Keeps (State.next s0 a1 a2).1 := by
  unfold State.next
  split
  · dsimp only
    apply State.refuse_keeps
    exact h0.same rfl rfl rfl rfl rfl rfl
  · dsimp only
    apply State.take_keeps
    exact h0

theorem State.drain_keeps {r : State} {s0 : State} (a1 : _) (h0 : r.Keeps s0) : r.Keeps (State.drain s0 a1) := by
  induction a1 generalizing s0 with
  | zero => exact h0
  | succ n ih =>
    unfold State.drain
    split
    · exact h0
    · extract_lets u s1 q
      have h1 : r.Keeps q.1 := State.next_keeps _ _ (h0.same rfl rfl rfl rfl rfl rfl)
      split
      · exact ih h1
      · exact h1

theorem State.duplicate_keeps {r : State} {s0 : State} (a1 : _) (h0 : r.Keeps s0) : r.Keeps (State.duplicate s0 a1) := by
  unfold State.duplicate
  extract_lets y0 y1 y2 y3 y4 y5 y6
  have h7 : r.Keeps y1 := by
    unfold y1
    apply State.hostCount_keeps
    exact h0
  try clear_value y1
  have h8 : r.Keeps y3 := by
    unfold y3
    exact h7.same rfl rfl rfl rfl rfl rfl
  try clear_value y3
  apply State.replyFor_keeps
  exact h8

theorem State.sequenced_keeps {r : State} {s0 : State} (a1 : _) (a2 : _) (h0 : r.Keeps s0) : r.Keeps (State.sequenced s0 a1 a2) := by
  unfold State.sequenced
  extract_lets y0 y1 y2
  have h3 : r.Keeps y1.1 := by
    unfold y1
    apply State.next_keeps
    exact h0
  try clear_value y1
  split
  · split
    · apply State.drain_keeps
      exact h3
    · exact h3
  · split
    · split
      · exact h0
      · exact h0.same rfl rfl rfl rfl rfl rfl
    · split
      · apply State.hostCount_keeps
        exact h0
      · split
        · apply State.duplicate_keeps
          exact h0
        · apply State.refuse_keeps
          apply State.hostCount_keeps
          exact h0

theorem State.unsequenced_keeps {r : State} {s0 : State} (a1 : _) (a2 : _) (h0 : r.Keeps s0) : r.Keeps (State.unsequenced s0 a1 a2) := by
  unfold State.unsequenced
  split
  · apply State.refuse_keeps
    exact h0
  · extract_lets y2 y3 y4
    have h5 : r.Keeps y3.1 := by
      unfold y3
      apply State.readReply_keeps
      exact h0
    try clear_value y3
    split
    · apply State.refuse_keeps
      exact h0
    · apply State.sendReply_keeps
      exact h5

theorem State.queueUp_keeps {r : State} {s0 : State} (a1 : _) (h0 : r.Keeps s0) : r.Keeps (State.queueUp s0 a1) := by
  unfold State.queueUp
  exact h0.same rfl rfl rfl rfl rfl rfl

theorem State.woror_keeps {r : State} {s0 : State} (a1 : _) (a2 : _) (h0 : r.Keeps s0) : r.Keeps (State.woror s0 a1 a2) := by
  unfold State.woror
  extract_lets y0 y1 y2 y3
  have h4 : r.Keeps y0 := by
    unfold y0
    apply State.hostCount_keeps
    exact h0
  try clear_value y0
  have h5 : r.Keeps y3 := by
    unfold y3
    split
    · apply State.refuse_keeps
      exact h4
    · split
      · apply State.hostCount_keeps
        exact h4
      · split
        · apply State.unsequenced_keeps
          apply State.queueUp_keeps
          exact h4
        · apply State.sequenced_keeps
          apply State.queueUp_keeps
          exact h4
  try clear_value y3
  apply State.flushReplies_keeps
  exact h5

theorem State.arrives_keeps {r : State} {s0 : State} (a1 : _) (a2 : _) (a3 : _) (a4 : _) (a5 : _) (h0 : r.Keeps s0) (g5 : ∀ x0, r.Keeps x0 → r.Keeps (a5 x0)) : r.Keeps (State.arrives s0 a1 a2 a3 a4 a5) := by
  unfold State.arrives
  apply State.frameIn_keeps
  · exact h0
  · intro s0 h1
    try beta_reduce
    split
    · exact h1
    · with_reducible apply g5
      exact h1

theorem State.parsePacket_keeps {r : State} {s0 : State} (a1 : _) (a2 : _) (a3 : _) (h0 : r.Keeps s0) : r.Keeps (State.parsePacket s0 a1 a2 a3) := by
  unfold State.parsePacket
  extract_lets y0 y1 y2 y3
  split
  · apply State.hostCount_keeps
    apply State.hostCount_keeps
    exact h0
  · split
    · apply State.refuse_keeps
      apply State.hostCount_keeps
      exact h0
    · split
      · apply State.refuse_keeps
        apply State.hostCount_keeps
        exact h0
      · apply State.woror_keeps
        exact h0

theorem State.datagram_keeps {r : State} {s0 : State} (a1 : _) (a2 : _) (h0 : r.Keeps s0) : r.Keeps (State.datagram s0 a1 a2) := by
  unfold State.datagram
  apply State.arrives_keeps
  · exact h0
  · intro s0 h1
    try beta_reduce
    apply State.parsePacket_keeps
    exact h1

theorem State.sendDone_keeps {r : State} {s0 : State} (a1 : _) (a2 : _) (a3 : _) (h0 : r.Keeps s0) : r.Keeps (State.sendDone s0 a1 a2 a3) := by
  unfold State.sendDone
  split
  · exact h0
  · extract_lets y2
    apply State.parsePacket_keeps
    exact h0

theorem State.sendPart_keeps {r : State} {s0 : State} (a1 : _) (a2 : _) (h0 : r.Keeps s0) : r.Keeps (State.sendPart s0 a1 a2) := by
  unfold State.sendPart
  extract_lets y0 y1 y2
  have h3 : r.Keeps y1 := by
    unfold y1
    apply State.modQp_keeps
    exact h0
  try clear_value y1
  have h4 : r.Keeps y2 := by
    unfold y2
    apply State.ackPsn_keeps
    exact h3
  try clear_value y2
  split
  · apply State.sendDone_keeps
    exact h4
  · exact h4

theorem State.sendIn_keeps {r : State} {s0 : State} (a1 : _) (h0 : r.Keeps s0) : r.Keeps (State.sendIn s0 a1) := by
  unfold State.sendIn
  apply State.roceIn_keeps
  · exact h0
  · intro s0 a1 h2
    try beta_reduce
    extract_lets y3
    split
    · apply State.fatalNak_keeps
      exact h2
    · split
      · apply State.txQp_keeps
        exact h2
      · split
        · apply State.fatalNak_keeps
          exact h2
        · apply State.sendPart_keeps
          exact h2
  · intro s10 a11 h12
    try beta_reduce
    apply againAck_keeps
    exact h12

theorem State.submit_keeps {r : State} {s0 : State} (a1 : _) (a2 : _) (h0 : r.Keeps s0) : r.Keeps (State.submit s0 a1 a2) := by
  unfold State.submit
  split
  · apply State.arrives_keeps
    · exact h0
    · intro s2 h3
      try beta_reduce
      apply State.woror_keeps
      exact h3
  · apply State.Keeps.foldl
    · exact h0
    · intro s7 a8 h9
      try beta_reduce
      apply State.sendIn_keeps
      exact h9

theorem State.heldExpires_keeps {r : State} {s0 : State} (a1 : _) (h0 : r.Keeps s0) : r.Keeps (State.heldExpires s0 a1) := by
  unfold State.heldExpires
  split
  · apply State.hostCount_keeps
    exact h0.same rfl rfl rfl rfl rfl rfl
  · exact h0

theorem State.replayLimit_keeps {r : State} {s0 : State} (a1 : _) (h0 : r.Keeps s0) : r.Keeps (State.replayLimit s0 a1) := by
  unfold State.replayLimit
  split
  · apply State.retrain_keeps
    exact h0
  · exact h0

theorem State.laneLost_keeps {r : State} {s0 : State} (a1 : _) (h0 : r.Keeps s0) : r.Keeps (State.laneLost s0 a1) := by
  unfold State.laneLost
  split
  · apply State.retrain_keeps
    exact h0
  · exact h0

theorem State.ownerAck_keeps {r : State} {s0 : State} (a1 : _) (h0 : r.Keeps s0) : r.Keeps (State.ownerAck s0 a1) := by
  unfold State.ownerAck
  split
  · apply State.modTile_keeps
    · exact h0
    · intro a3 h4
      try beta_reduce
      (repeat' split) <;> assumption
  · apply State.segAck_keeps
    exact h0
  · apply State.collAck_keeps
    exact h0
  · apply State.hostAck_keeps
    exact h0
  · exact h0

theorem State.writeAcked_keeps {r : State} {s0 : State} (a1 : _) (h0 : r.Keeps s0) : r.Keeps (State.writeAcked s0 a1) := by
  unfold State.writeAcked
  split
  · exact h0
  · split
    · exact h0
    · apply State.ownerAck_keeps
      apply State.modSkip_keeps
      apply State.performWrite_keeps
      exact h0

end Sys2Proof.Machine
end

