-- ==== Sys2Proof/Laws/KeepsExec.lean ====
section
/-! SUPPORT. The relation `State.Keeps` for every command: one lemma over the arms of `exec`. -/

namespace Sys2Proof.Machine

theorem onUnit_keeps {n c : Nat} {u : State} {s t : State} (h : onUnit n c u = .next t) (k : s.Keeps u) : s.Keeps t := by
  unfold onUnit at h; split at h
  · injection h with h; exact h ▸ k
  · cases h
theorem onUnits_keeps {n c m d : Nat} {u : State} {s t : State} (h : onUnits n c m d u = .next t) (k : s.Keeps u) : s.Keeps t := by
  unfold onUnits at h; split at h
  · injection h with h; exact h ▸ k
  · cases h
theorem next_keeps {u s t : State} (h : (Host.Outcome.next u : Host.Outcome State Fault Refusal) = .next t) (k : s.Keeps u) : s.Keeps t := by
  injection h with h; exact h ▸ k

/-- What every command but the fall of RESET_N keeps, whatever state it meets. -/
theorem exec_keeps (c : Instr) (s t : State) (h : exec c s = .next t) (hc : c ≠ .resetNFall) : s.Keeps t := by
  have r : s.Keeps s := .refl s
  cases c
  case deviceInfo a0 => exact next_keeps h (State.submit_keeps _ _ r)
  case netConfig a0 => exact next_keeps h (State.submit_keeps _ _ r)
  case memRead a0 => exact next_keeps h (State.submit_keeps _ _ r)
  case memWrite a0 => exact next_keeps h (State.submit_keeps _ _ r)
  case csrWrite a0 => exact next_keeps h (State.submit_keeps _ _ r)
  case csrRead a0 => exact next_keeps h (State.submit_keeps _ _ r)
  case streamArm a0 => exact next_keeps h (State.submit_keeps _ _ r)
  case streamCancel a0 => exact next_keeps h (State.submit_keeps _ _ r)
  case streamStatus a0 => exact next_keeps h (State.submit_keeps _ _ r)
  case qpConnect a0 => exact next_keeps h (State.submit_keeps _ _ r)
  case xferOpen a0 => exact next_keeps h (State.submit_keeps _ _ r)
  case xferClose a0 => exact next_keeps h (State.submit_keeps _ _ r)
  case xferStatus a0 => exact next_keeps h (State.submit_keeps _ _ r)
  case jobCreate a0 => exact next_keeps h (State.submit_keeps _ _ r)
  case jobModify a0 => exact next_keeps h (State.submit_keeps _ _ r)
  case jobRelease a0 => exact next_keeps h (State.submit_keeps _ _ r)
  case contextCreate a0 => exact next_keeps h (State.submit_keeps _ _ r)
  case contextRelease a0 => exact next_keeps h (State.submit_keeps _ _ r)
  case stepBegin a0 => exact next_keeps h (State.submit_keeps _ _ r)
  case stepBeginTakesEffect a0 => exact next_keeps h (State.stepTake_keeps _ r)
  case barrier a0 => exact next_keeps h (State.submit_keeps _ _ r)
  case barrierComplete a0 => exact next_keeps h (State.barrierEnd_keeps _ r)
  case hayloftPop a0 => exact next_keeps h (State.submit_keeps _ _ r)
  case hayloftPopTakesEffect a0 => exact next_keeps h (State.popTake_keeps _ r)
  case hayloftFree a0 => exact next_keeps h (State.submit_keeps _ _ r)
  case hayloftFreeTakesEffect a0 => exact next_keeps h (State.freeTake_keeps _ r)
  case gradOpen a0 => exact next_keeps h (State.submit_keeps _ _ r)
  case gradOpenTakesEffect a0 => exact next_keeps h (State.gradOpens_keeps _ r)
  case phaseMark a0 => exact next_keeps h (State.submit_keeps _ _ r)
  case phaseMarkTakesEffect a0 => exact next_keeps h (State.phaseMarks_keeps _ r)
  case row a0 => exact next_keeps h (State.submit_keeps _ _ r)
  case opIssue a0 => exact next_keeps h (State.submit_keeps _ _ r)
  case operationStart a0 => exact next_keeps h (State.opStart_keeps _ r)
  case opCancel a0 => exact next_keeps h (State.submit_keeps _ _ r)
  case collective a0 => exact next_keeps h (State.submit_keeps _ _ r)
  case collectiveStart a0 => exact next_keeps h (State.startColl_keeps _ r)
  case collectiveComplete a0 => exact next_keeps h (State.collTake_keeps _ r)
  case mapSet a0 => exact next_keeps h (State.submit_keeps _ _ r)
  case mapSetTakesEffect a0 => exact next_keeps h (State.mapTake_keeps _ r)
  case gradNorm a0 => exact next_keeps h (State.submit_keeps _ _ r)
  case gradNormStart a0 => exact next_keeps h (State.startColl_keeps _ r)
  case powerCapSet a0 => exact next_keeps h (State.submit_keeps _ _ r)
  case phasePointsSet a0 => exact next_keeps h (State.submit_keeps _ _ r)
  case powerRead a0 => exact next_keeps h (State.submit_keeps _ _ r)
  case energyRead a0 => exact next_keeps h (State.submit_keeps _ _ r)
  case throttleRead a0 => exact next_keeps h (State.submit_keeps _ _ r)
  case stepCommit a0 => exact next_keeps h (State.submit_keeps _ _ r)
  case stepCommitTakesEffect a0 => exact next_keeps h (State.commitTake_keeps _ r)
  case checkpointSet a0 => exact next_keeps h (State.submit_keeps _ _ r)
  case restore a0 => exact next_keeps h (State.submit_keeps _ _ r)
  case mirrorPair a0 => exact next_keeps h (State.submit_keeps _ _ r)
  case mirrorUnpair a0 => exact next_keeps h (State.submit_keeps _ _ r)
  case failover a0 => exact next_keeps h (State.submit_keeps _ _ r)
  case sparePolicySet a0 => exact next_keeps h (State.submit_keeps _ _ r)
  case leaseGrant a0 => exact next_keeps h (State.submit_keeps _ _ r)
  case identityRead a0 => exact next_keeps h (State.submit_keeps _ _ r)
  case attest a0 => exact next_keeps h (State.submit_keeps _ _ r)
  case attestReportComplete  => exact next_keeps h (State.flushReplies_keeps (State.reportDone_keeps r))
  case fwStage a0 => exact next_keeps h (State.submit_keeps _ _ r)
  case fwActivate a0 => exact next_keeps h (State.submit_keeps _ _ r)
  case resetWarm a0 => exact next_keeps h (State.submit_keeps _ _ r)
  case journalInfo a0 => exact next_keeps h (State.submit_keeps _ _ r)
  case journalRead a0 => exact next_keeps h (State.submit_keeps _ _ r)
  case bitmapRead a0 => exact next_keeps h (State.submit_keeps _ _ r)
  case retiredList a0 => exact next_keeps h (State.submit_keeps _ _ r)
  case memTest a0 => exact next_keeps h (State.submit_keeps _ _ r)
  case setDate a0 => exact next_keeps h (State.submit_keeps _ _ r)
  case lifeRead a0 => exact next_keeps h (State.submit_keeps _ _ r)
  case tileCntClrPhase a0 =>
    exact onUnit_keeps h (State.modTile_keeps r fun t q => q)
  case tileCntClrFtq a0 =>
    exact onUnit_keeps h (State.modTile_keeps r fun t q => q)
  case tileCntClrAcc a0 =>
    exact onUnit_keeps h (State.modTile_keeps r fun t q => q)
  case tileCntClrPort a0 =>
    exact onUnit_keeps h (State.modTile_keeps r fun t q => q)
  case stpClrAll  => exact next_keeps h (State.stpClear_keeps r)
  case fidWrite a0 => exact next_keeps h (State.writeFid_keeps _ r)
  case fabRetrain a0 => exact onUnit_keeps h (State.retrain_keeps _ _ r)
  case fabPortEnable a0 a1 => exact onUnit_keeps h (State.enablePort_keeps _ _ r)
  case hostpRetrain  => exact next_keeps h (State.hostRetrain_keeps r)
  case heldCommandExpiry a0 => exact next_keeps h (State.heldExpires_keeps _ r)
  case journalMirrorWrite a0 => exact onUnit_keeps h (State.mirrorWrite_keeps _ r)
  case droppedFrame a0 => exact next_keeps h (State.dropFrame_keeps _ r)
  case arpRequest a0 a1 a2 => exact next_keeps h (State.arp_keeps _ _ _ r)
  case neighborSolicitation a0 a1 a2 => exact next_keeps h (State.neighborAsked_keeps _ _ _ r)
  case echoRequest a0 a1 a2 a3 => exact next_keeps h (State.echoAsked_keeps _ _ _ _ r)
  case pfcFrame a0 a1 => exact next_keeps h (State.pfc_keeps _ _ r)
  case send a0 => exact next_keeps h (State.sendIn_keeps _ r)
  case rdmaWrite a0 => exact next_keeps h (State.rdmaWrite_keeps _ r)
  case rdmaReadRequest a0 => exact next_keeps h (State.rdmaRead_keeps _ r)
  case cnp a0 => exact next_keeps h (State.cnpIn_keeps _ r)
  case cnpRateRestore a0 => exact onUnit_keeps h (State.rateRestore_keeps _ r)
  case hostTransferComplete a0 => exact onUnit_keeps h (State.xferComplete_keeps _ r)
  case hostTimeout a0 => exact onUnit_keeps h (State.hostTimedOut_keeps _ r)
  case hostLaneLossOfLock a0 => exact onUnit_keeps h (State.hostLaneLost_keeps _ r)
  case hostPortTrained a0 => exact next_keeps h (State.hostTrained_keeps _ r)
  case dataFlit a0 a1 => exact onUnit_keeps h (State.flitIn_keeps _ _ r)
  case ackFlit a0 a1 => exact onUnit_keeps h (State.ackFlits_keeps _ _ r)
  case nakFlit a0 a1 => exact onUnit_keeps h (State.nakIn_keeps _ _ r)
  case replayLimit a0 => exact onUnit_keeps h (State.replayLimit_keeps _ r)
  case ackFlitTimer a0 => exact onUnit_keeps h (State.ackTimer_keeps _ r)
  case laneLossOfLock a0 a1 => exact onUnits_keeps h (State.laneLost_keeps _ r)
  case portRetrainComplete a0 a1 => exact onUnit_keeps h (State.trained_keeps _ _ r)
  case packetForward a0 => exact next_keeps h (State.forward_keeps _ r)
  case ready a0 =>
    refine next_keeps h ?_
    split
    · exact State.mirrorAsked_keeps _ r
    · exact State.greetingIn_keeps _ r
  case data a0 =>
    refine next_keeps h ?_
    split
    · exact State.mirrorData_keeps _ r
    · exact State.dataIn_keeps _ r
  case join a0 =>
    refine next_keeps h ?_
    split
    · exact State.pairJoin_keeps _ r
    · exact State.greetingIn_keeps _ r
  case e2eAck a0 =>
    refine next_keeps h ?_
    split
    · exact State.mirrorAck_keeps _ r
    · exact State.ackIn_keeps _ r
  case e2eAckTimeout a0 => exact next_keeps h (State.ackTimeout_keeps _ r)
  case stepAbort a0 => exact next_keeps h (State.abortIn_keeps _ r)
  case peerTimeout a0 => exact next_keeps h (State.peerTimeout_keeps _ r)
  case peerLost a0 a1 => exact onUnit_keeps h (State.peerIsLost_keeps _ _ (State.lossPasses_keeps _ _ r))
  case spareDue a0 => exact onUnit_keeps h (State.spareIsDue_keeps _ r)
  case pairTimeout a0 => exact onUnit_keeps h (State.pairTimesOut_keeps _ r)
  case heartbeat a0 => exact onUnit_keeps h (State.heartbeat_keeps _ r)
  case mirrorPairTimeout a0 => exact onUnit_keeps h (State.pairLate_keeps _ r)
  case mirrorCopyComplete a0 => exact onUnit_keeps h (State.imageReceived_keeps _ r)
  case checkpointComplete a0 => exact onUnit_keeps h (State.ckptComplete_keeps _ r)
  case restoreComplete a0 => exact onUnit_keeps h (State.restoreEnds_keeps _ r)
  case leaseLapse  => exact next_keeps h (State.leaseLapses_keeps r)
  case take a0 => exact onUnit_keeps h (State.takeItem_keeps _ r)
  case doneMessage a0 => exact onUnit_keeps h (State.doneItem_keeps _ r)
  case applyPassEnd a0 => exact next_keeps h (State.applyEnd_keeps _ r)
  case pullIssue a0 => exact onUnit_keeps h (State.issuePull_keeps _ r)
  case pull a0 a1 => exact onUnits_keeps h (State.pullAt_keeps _ _ r)
  case skipReadReturn a0 a1 => exact onUnit_keeps h (State.skipReturn_keeps _ _ r)
  case computeStart a0 => exact onUnit_keeps h (State.beginCompute_keeps _ r)
  case kRunEnd a0 a1 => exact onUnit_keeps h (State.kRunEnd_keeps _ _ r)
  case recoveredLimit a0 =>
    refine onUnit_keeps h ?_
    split
    · exact State.quarantine_keeps _ _ r
    · exact r
  case eccQuarantineLimit a0 =>
    refine onUnit_keeps h ?_
    split
    · exact State.quarantine_keeps _ _ r
    · exact r
  case ftqEntryRetire a0 a1 => exact onUnit_keeps h (State.retire_keeps _ _ r)
  case storeStart a0 => exact onUnit_keeps h (State.beginStore_keeps _ r)
  case spillComplete a0 => exact onUnit_keeps h (State.spillDone_keeps _ r)
  case refillComplete a0 => exact onUnit_keeps h (State.refillDone_keeps _ r)
  case skipWrite a0 => exact onUnit_keeps h (State.issueWrite_keeps _ r)
  case writeAcknowledged a0 => exact onUnit_keeps h (State.writeAcked_keeps _ r)
  case streamTransferStart a0 a1 => exact onUnits_keeps h (State.transferStart_keeps _ _ _ r)
  case cancellationComplete a0 => exact next_keeps h (State.cancelDone_keeps _ r)
  case atomic a0 a1 => exact onUnit_keeps h (State.atomic_keeps _ _ r)
  case scatteredPartial a0 a1 => exact onUnit_keeps h (State.scattered_keeps _ _ r)
  case flagWrite a0 a1 => exact next_keeps h (State.flagWrite_keeps _ _ r)
  case flagPoll a0 => exact next_keeps h r
  case compatProgramEnd a0 => exact onUnit_keeps h (State.programEnds_keeps _ r)
  case compatInsnStop a0 a1 => exact onUnit_keeps h (State.programStops_keeps _ _ r)
  case zeroingComplete a0 => exact onUnit_keeps h (State.throttleNow_keeps (State.zeroingEnds_keeps _ r))
  case scrubRead a0 a1 => exact next_keeps h (State.scrubRead_keeps _ _ _ r)
  case eccWriteBack a0 => exact next_keeps h (State.writtenBack_keeps _ r)
  case softRepair a0 => exact next_keeps h (State.softRepair_keeps _ r)
  case capLoopPeriod a0 => exact next_keeps h (State.capLoop_keeps _ r)
  case telemetryLost  => exact next_keeps h (State.telemetryIsLost_keeps r)
  case thermalCeilingStep a0 => exact onUnit_keeps h (State.thermalStep_keeps _ r)
  case vrmAtTarget a0 => exact onUnit_keeps h (State.vrmReached_keeps _ r)
  case droopTrip a0 a1 => exact onUnit_keeps h (State.droop_keeps _ _ r)
  case stretchEnd a0 => exact onUnit_keeps h (State.droopEnds_keeps _ r)
  case brakeNLow  => exact next_keeps h (State.brake_keeps r)
  case brakeNRelease  => exact next_keeps h (State.brakeEnds_keeps r)
  case vrmAlert a0 a1 => exact next_keeps h (State.vrmAlert_keeps _ _ r)
  case vrmRecoveryTimer a0 => exact next_keeps h (State.vrmRecovered_keeps _ r)
  case hourlyRecord a0 => exact next_keeps h (State.hourly_keeps _ r)
  case watchdogExpiry a0 => exact onUnit_keeps h (State.warmAsked_keeps _ r)
  case pllLossOfLock a0 => exact next_keeps h (State.pllLost_keeps _ r)
  case pllRelockTimeout a0 => exact next_keeps h (State.relockFails_keeps _ r)
  case warmReset a0 => exact next_keeps h (State.warmReset_keeps _ r)
  case jobTableReload  => exact next_keeps h (State.tableReloaded_keeps r)
  case resetNFall  => exact absurd rfl hc
  case resetNRise a0 => exact next_keeps h (State.resetRises_keeps _ r)
  case pllLock a0 => exact next_keeps h (State.hostGoesOn_keeps (State.pllLocks_keeps _ r))
  case pllLockTimeout a0 => exact next_keeps h (State.pllFails_keeps _ r)
  case romStageEnd  => exact next_keeps h (State.romEnds_keeps r)
  case stage1End  => exact next_keeps h (State.stage1Ends_keeps r)
  case mainStageEnd a0 => exact next_keeps h (State.mainEnds_keeps _ r)
  case sidebandWrite a0 => exact next_keeps h (State.sidebandWrite_keeps _ r)
  case sidebandRead a0 => exact next_keeps h (State.sidebandRead_keeps _ r)
  case badWororPacket a0 a1 => exact next_keeps h (State.datagram_keeps _ _ r)
  case unassignedOpcode a0 a1 => exact next_keeps h (State.submit_keeps _ _ r)
  case roceInvalidRequest a0 => exact next_keeps h (State.roceInvalid_keeps _ r)
  case imageApplyComplete a0 => exact onUnit_keeps h (State.imageApplied_keeps _ r)
  case memTestComplete a0 => exact next_keeps h (State.memTestEnds_keeps _ r)

end Sys2Proof.Machine
end

