-- ==== Sys2Proof/Laws/Memory.lean ====
section
/-! SUPPORT. The memory operations: what a write leaves in memory and in the marks of poison, and that it touches nothing else. -/

namespace Sys2Proof.Machine

/-- Clearing a list of marks changes the marks alone. -/
theorem State.unmarks_eq (l : List Nat) (s : State) :
    l.foldl State.unmark s = { s with poison := (l.foldl State.unmark s).poison } := by
  induction l generalizing s with
  | nil => rfl
  | cons u l ih =>
    have e : s.unmark u = { s with poison := (s.unmark u).poison } := by
      unfold State.unmark
      split <;> rfl
    rw [List.foldl_cons, ih, e]

/-- A write changes memory, the marks of poison and the write-backs that wait, and nothing else. -/
theorem State.write_eq (s : State) (da : Nat) (bs : List Byte) :
    s.write da bs = { s with
      mem := storeRun 0#8 s.mem da bs, poison := (s.write da bs).poison, memInfo := (s.write da bs).memInfo } := by
  unfold State.write
  extract_lets s1 s2 t
  have h : s2 = { s1 with poison := s2.poison } := State.unmarks_eq _ _
  rw [h]

@[simp] theorem State.write_mem (s : State) (da : Nat) (bs : List Byte) : (s.write da bs).mem = storeRun 0#8 s.mem da bs := by
  rw [State.write_eq]

@[simp] theorem State.write_journal (s : State) (da : Nat) (bs : List Byte) : (s.write da bs).journal = s.journal := by
  rw [State.write_eq]

@[simp] theorem State.write_host (s : State) (da : Nat) (bs : List Byte) : (s.write da bs).host = s.host := by
  rw [State.write_eq]

@[simp] theorem State.write_jobs (s : State) (da : Nat) (bs : List Byte) : (s.write da bs).jobs = s.jobs := by
  rw [State.write_eq]

@[simp] theorem State.write_works (s : State) (da : Nat) (bs : List Byte) : (s.write da bs).works = s.works := by
  rw [State.write_eq]

@[simp] theorem State.write_tiles (s : State) (da : Nat) (bs : List Byte) : (s.write da bs).tiles = s.tiles := by
  rw [State.write_eq]

/-- A byte that a write covers reads as written. -/
theorem State.byte_write_inside (s : State) (da : Nat) (bs : List Byte) (k : Nat) (h : k < bs.length) :
    (s.write da bs).byte (da + k) = bs[k] := by
  unfold State.byte
  rw [State.write_mem, lookup_storeRun_inside _ _ _ _ _ h]

/-- A byte outside a write reads as before. -/
theorem State.byte_write_outside (s : State) (da : Nat) (bs : List Byte) (a : Nat) (h : a < da ∨ da + bs.length ≤ a) :
    (s.write da bs).byte a = s.byte a := by
  unfold State.byte
  rw [State.write_mem, lookup_storeRun_outside _ _ _ _ _ h]

/-- Zeroing a range leaves zeros in it and the other bytes as they were. -/
theorem State.byte_zero (s : State) (da len a : Nat) :
    (s.zero da len).byte a = if da ≤ a ∧ a < da + len then 0#8 else s.byte a := by
  unfold State.byte State.zero dropRange
  rw [lookup_filter 0#8 s.mem (fun i => !(decide (da ≤ i) && decide (i < da + len))) a]
  by_cases h : da ≤ a ∧ a < da + len
  · rw [if_pos h, if_neg]
    simp [h.1, h.2]
  · rw [if_neg h, if_pos]
    simp only [Bool.not_eq_true', Bool.and_eq_false_iff, decide_eq_false_iff_not]
    omega

/-- A mark of poison changes no byte. -/
theorem State.byte_mark (s : State) (u a : Nat) : (s.mark u).byte a = s.byte a := rfl

end Sys2Proof.Machine
end

