-- ==== Sys2Proof/Laws/State.lean ====
section
/-! SUPPORT. What each elementary update leaves of the state: one lemma per field, true by unfolding; and what it changes,
read back. -/

namespace Sys2Proof.Machine

variable (s : State)

/-! ### `setTile` -/

@[simp] theorem State.setTile_mem (n : Nat) (t : Tile) : (s.setTile n t).mem = s.mem := rfl
@[simp] theorem State.setTile_poison (n : Nat) (t : Tile) : (s.setTile n t).poison = s.poison := rfl
@[simp] theorem State.setTile_retired (n : Nat) (t : Tile) : (s.setTile n t).retired = s.retired := rfl
@[simp] theorem State.setTile_corrections (n : Nat) (t : Tile) : (s.setTile n t).corrections = s.corrections := rfl
@[simp] theorem State.setTile_skips (n : Nat) (t : Tile) : (s.setTile n t).skips = s.skips := rfl
@[simp] theorem State.setTile_jobs (n : Nat) (t : Tile) : (s.setTile n t).jobs = s.jobs := rfl
@[simp] theorem State.setTile_ctxs (n : Nat) (t : Tile) : (s.setTile n t).ctxs = s.ctxs := rfl
@[simp] theorem State.setTile_lastJobs (n : Nat) (t : Tile) : (s.setTile n t).lastJobs = s.lastJobs := rfl
@[simp] theorem State.setTile_lastCtxs (n : Nat) (t : Tile) : (s.setTile n t).lastCtxs = s.lastCtxs := rfl
@[simp] theorem State.setTile_works (n : Nat) (t : Tile) : (s.setTile n t).works = s.works := rfl
@[simp] theorem State.setTile_journal (n : Nat) (t : Tile) : (s.setTile n t).journal = s.journal := rfl
@[simp] theorem State.setTile_host (n : Nat) (t : Tile) : (s.setTile n t).host = s.host := rfl
@[simp] theorem State.setTile_fab (n : Nat) (t : Tile) : (s.setTile n t).fab = s.fab := rfl
@[simp] theorem State.setTile_power (n : Nat) (t : Tile) : (s.setTile n t).power = s.power := rfl
@[simp] theorem State.setTile_memInfo (n : Nat) (t : Tile) : (s.setTile n t).memInfo = s.memInfo := rfl
@[simp] theorem State.setTile_lease (n : Nat) (t : Tile) : (s.setTile n t).lease = s.lease := rfl
@[simp] theorem State.setTile_otp (n : Nat) (t : Tile) : (s.setTile n t).otp = s.otp := rfl
@[simp] theorem State.setTile_sec (n : Nat) (t : Tile) : (s.setTile n t).sec = s.sec := rfl
@[simp] theorem State.setTile_life (n : Nat) (t : Tile) : (s.setTile n t).life = s.life := rfl
@[simp] theorem State.setTile_restricted (n : Nat) (t : Tile) : (s.setTile n t).restricted = s.restricted := rfl
@[simp] theorem State.setTile_restrictReason (n : Nat) (t : Tile) : (s.setTile n t).restrictReason = s.restrictReason := rfl
@[simp] theorem State.setTile_stpIn (n : Nat) (t : Tile) : (s.setTile n t).stpIn = s.stpIn := rfl
@[simp] theorem State.setTile_stpMessages (n : Nat) (t : Tile) : (s.setTile n t).stpMessages = s.stpMessages := rfl
@[simp] theorem State.setTile_stpWaitMax (n : Nat) (t : Tile) : (s.setTile n t).stpWaitMax = s.stpWaitMax := rfl
@[simp] theorem State.setTile_stpYield (n : Nat) (t : Tile) : (s.setTile n t).stpYield = s.stpYield := rfl
@[simp] theorem State.setTile_latches (n : Nat) (t : Tile) : (s.setTile n t).latches = s.latches := rfl
@[simp] theorem State.setTile_sbLatches (n : Nat) (t : Tile) : (s.setTile n t).sbLatches = s.sbLatches := rfl
@[simp] theorem State.setTile_sbPointer (n : Nat) (t : Tile) : (s.setTile n t).sbPointer = s.sbPointer := rfl
@[simp] theorem State.setTile_sclk (n : Nat) (t : Tile) : (s.setTile n t).sclk = s.sclk := rfl
@[simp] theorem State.setTile_out (n : Nat) (t : Tile) : (s.setTile n t).out = s.out := rfl
@[simp] theorem State.setTile_freeCtr (n : Nat) (t : Tile) : (s.setTile n t).freeCtr = s.freeCtr := rfl
@[simp] theorem State.setTile_pending (n : Nat) (t : Tile) : (s.setTile n t).pending = s.pending := rfl

/-! ### `setSkip` -/

@[simp] theorem State.setSkip_mem (n : Nat) (k : Skip) : (s.setSkip n k).mem = s.mem := rfl
@[simp] theorem State.setSkip_poison (n : Nat) (k : Skip) : (s.setSkip n k).poison = s.poison := rfl
@[simp] theorem State.setSkip_retired (n : Nat) (k : Skip) : (s.setSkip n k).retired = s.retired := rfl
@[simp] theorem State.setSkip_corrections (n : Nat) (k : Skip) : (s.setSkip n k).corrections = s.corrections := rfl
@[simp] theorem State.setSkip_tiles (n : Nat) (k : Skip) : (s.setSkip n k).tiles = s.tiles := rfl
@[simp] theorem State.setSkip_jobs (n : Nat) (k : Skip) : (s.setSkip n k).jobs = s.jobs := rfl
@[simp] theorem State.setSkip_ctxs (n : Nat) (k : Skip) : (s.setSkip n k).ctxs = s.ctxs := rfl
@[simp] theorem State.setSkip_lastJobs (n : Nat) (k : Skip) : (s.setSkip n k).lastJobs = s.lastJobs := rfl
@[simp] theorem State.setSkip_lastCtxs (n : Nat) (k : Skip) : (s.setSkip n k).lastCtxs = s.lastCtxs := rfl
@[simp] theorem State.setSkip_works (n : Nat) (k : Skip) : (s.setSkip n k).works = s.works := rfl
@[simp] theorem State.setSkip_journal (n : Nat) (k : Skip) : (s.setSkip n k).journal = s.journal := rfl
@[simp] theorem State.setSkip_host (n : Nat) (k : Skip) : (s.setSkip n k).host = s.host := rfl
@[simp] theorem State.setSkip_fab (n : Nat) (k : Skip) : (s.setSkip n k).fab = s.fab := rfl
@[simp] theorem State.setSkip_power (n : Nat) (k : Skip) : (s.setSkip n k).power = s.power := rfl
@[simp] theorem State.setSkip_memInfo (n : Nat) (k : Skip) : (s.setSkip n k).memInfo = s.memInfo := rfl
@[simp] theorem State.setSkip_lease (n : Nat) (k : Skip) : (s.setSkip n k).lease = s.lease := rfl
@[simp] theorem State.setSkip_otp (n : Nat) (k : Skip) : (s.setSkip n k).otp = s.otp := rfl
@[simp] theorem State.setSkip_sec (n : Nat) (k : Skip) : (s.setSkip n k).sec = s.sec := rfl
@[simp] theorem State.setSkip_life (n : Nat) (k : Skip) : (s.setSkip n k).life = s.life := rfl
@[simp] theorem State.setSkip_restricted (n : Nat) (k : Skip) : (s.setSkip n k).restricted = s.restricted := rfl
@[simp] theorem State.setSkip_restrictReason (n : Nat) (k : Skip) : (s.setSkip n k).restrictReason = s.restrictReason := rfl
@[simp] theorem State.setSkip_stpIn (n : Nat) (k : Skip) : (s.setSkip n k).stpIn = s.stpIn := rfl
@[simp] theorem State.setSkip_stpMessages (n : Nat) (k : Skip) : (s.setSkip n k).stpMessages = s.stpMessages := rfl
@[simp] theorem State.setSkip_stpWaitMax (n : Nat) (k : Skip) : (s.setSkip n k).stpWaitMax = s.stpWaitMax := rfl
@[simp] theorem State.setSkip_stpYield (n : Nat) (k : Skip) : (s.setSkip n k).stpYield = s.stpYield := rfl
@[simp] theorem State.setSkip_latches (n : Nat) (k : Skip) : (s.setSkip n k).latches = s.latches := rfl
@[simp] theorem State.setSkip_sbLatches (n : Nat) (k : Skip) : (s.setSkip n k).sbLatches = s.sbLatches := rfl
@[simp] theorem State.setSkip_sbPointer (n : Nat) (k : Skip) : (s.setSkip n k).sbPointer = s.sbPointer := rfl
@[simp] theorem State.setSkip_sclk (n : Nat) (k : Skip) : (s.setSkip n k).sclk = s.sclk := rfl
@[simp] theorem State.setSkip_out (n : Nat) (k : Skip) : (s.setSkip n k).out = s.out := rfl
@[simp] theorem State.setSkip_freeCtr (n : Nat) (k : Skip) : (s.setSkip n k).freeCtr = s.freeCtr := rfl
@[simp] theorem State.setSkip_pending (n : Nat) (k : Skip) : (s.setSkip n k).pending = s.pending := rfl

/-! ### `setJob` -/

@[simp] theorem State.setJob_mem (n : Nat) (j : Option Job) : (s.setJob n j).mem = s.mem := rfl
@[simp] theorem State.setJob_poison (n : Nat) (j : Option Job) : (s.setJob n j).poison = s.poison := rfl
@[simp] theorem State.setJob_retired (n : Nat) (j : Option Job) : (s.setJob n j).retired = s.retired := rfl
@[simp] theorem State.setJob_corrections (n : Nat) (j : Option Job) : (s.setJob n j).corrections = s.corrections := rfl
@[simp] theorem State.setJob_tiles (n : Nat) (j : Option Job) : (s.setJob n j).tiles = s.tiles := rfl
@[simp] theorem State.setJob_skips (n : Nat) (j : Option Job) : (s.setJob n j).skips = s.skips := rfl
@[simp] theorem State.setJob_ctxs (n : Nat) (j : Option Job) : (s.setJob n j).ctxs = s.ctxs := rfl
@[simp] theorem State.setJob_lastJobs (n : Nat) (j : Option Job) : (s.setJob n j).lastJobs = s.lastJobs := rfl
@[simp] theorem State.setJob_lastCtxs (n : Nat) (j : Option Job) : (s.setJob n j).lastCtxs = s.lastCtxs := rfl
@[simp] theorem State.setJob_works (n : Nat) (j : Option Job) : (s.setJob n j).works = s.works := rfl
@[simp] theorem State.setJob_journal (n : Nat) (j : Option Job) : (s.setJob n j).journal = s.journal := rfl
@[simp] theorem State.setJob_host (n : Nat) (j : Option Job) : (s.setJob n j).host = s.host := rfl
@[simp] theorem State.setJob_fab (n : Nat) (j : Option Job) : (s.setJob n j).fab = s.fab := rfl
@[simp] theorem State.setJob_power (n : Nat) (j : Option Job) : (s.setJob n j).power = s.power := rfl
@[simp] theorem State.setJob_memInfo (n : Nat) (j : Option Job) : (s.setJob n j).memInfo = s.memInfo := rfl
@[simp] theorem State.setJob_lease (n : Nat) (j : Option Job) : (s.setJob n j).lease = s.lease := rfl
@[simp] theorem State.setJob_otp (n : Nat) (j : Option Job) : (s.setJob n j).otp = s.otp := rfl
@[simp] theorem State.setJob_sec (n : Nat) (j : Option Job) : (s.setJob n j).sec = s.sec := rfl
@[simp] theorem State.setJob_life (n : Nat) (j : Option Job) : (s.setJob n j).life = s.life := rfl
@[simp] theorem State.setJob_restricted (n : Nat) (j : Option Job) : (s.setJob n j).restricted = s.restricted := rfl
@[simp] theorem State.setJob_restrictReason (n : Nat) (j : Option Job) : (s.setJob n j).restrictReason = s.restrictReason := rfl
@[simp] theorem State.setJob_stpIn (n : Nat) (j : Option Job) : (s.setJob n j).stpIn = s.stpIn := rfl
@[simp] theorem State.setJob_stpMessages (n : Nat) (j : Option Job) : (s.setJob n j).stpMessages = s.stpMessages := rfl
@[simp] theorem State.setJob_stpWaitMax (n : Nat) (j : Option Job) : (s.setJob n j).stpWaitMax = s.stpWaitMax := rfl
@[simp] theorem State.setJob_stpYield (n : Nat) (j : Option Job) : (s.setJob n j).stpYield = s.stpYield := rfl
@[simp] theorem State.setJob_latches (n : Nat) (j : Option Job) : (s.setJob n j).latches = s.latches := rfl
@[simp] theorem State.setJob_sbLatches (n : Nat) (j : Option Job) : (s.setJob n j).sbLatches = s.sbLatches := rfl
@[simp] theorem State.setJob_sbPointer (n : Nat) (j : Option Job) : (s.setJob n j).sbPointer = s.sbPointer := rfl
@[simp] theorem State.setJob_sclk (n : Nat) (j : Option Job) : (s.setJob n j).sclk = s.sclk := rfl
@[simp] theorem State.setJob_out (n : Nat) (j : Option Job) : (s.setJob n j).out = s.out := rfl
@[simp] theorem State.setJob_freeCtr (n : Nat) (j : Option Job) : (s.setJob n j).freeCtr = s.freeCtr := rfl
@[simp] theorem State.setJob_pending (n : Nat) (j : Option Job) : (s.setJob n j).pending = s.pending := rfl

/-! ### `setCtx` -/

@[simp] theorem State.setCtx_mem (n : Nat) (k : Option Ctx) : (s.setCtx n k).mem = s.mem := rfl
@[simp] theorem State.setCtx_poison (n : Nat) (k : Option Ctx) : (s.setCtx n k).poison = s.poison := rfl
@[simp] theorem State.setCtx_retired (n : Nat) (k : Option Ctx) : (s.setCtx n k).retired = s.retired := rfl
@[simp] theorem State.setCtx_corrections (n : Nat) (k : Option Ctx) : (s.setCtx n k).corrections = s.corrections := rfl
@[simp] theorem State.setCtx_tiles (n : Nat) (k : Option Ctx) : (s.setCtx n k).tiles = s.tiles := rfl
@[simp] theorem State.setCtx_skips (n : Nat) (k : Option Ctx) : (s.setCtx n k).skips = s.skips := rfl
@[simp] theorem State.setCtx_jobs (n : Nat) (k : Option Ctx) : (s.setCtx n k).jobs = s.jobs := rfl
@[simp] theorem State.setCtx_lastJobs (n : Nat) (k : Option Ctx) : (s.setCtx n k).lastJobs = s.lastJobs := rfl
@[simp] theorem State.setCtx_lastCtxs (n : Nat) (k : Option Ctx) : (s.setCtx n k).lastCtxs = s.lastCtxs := rfl
@[simp] theorem State.setCtx_works (n : Nat) (k : Option Ctx) : (s.setCtx n k).works = s.works := rfl
@[simp] theorem State.setCtx_journal (n : Nat) (k : Option Ctx) : (s.setCtx n k).journal = s.journal := rfl
@[simp] theorem State.setCtx_host (n : Nat) (k : Option Ctx) : (s.setCtx n k).host = s.host := rfl
@[simp] theorem State.setCtx_fab (n : Nat) (k : Option Ctx) : (s.setCtx n k).fab = s.fab := rfl
@[simp] theorem State.setCtx_power (n : Nat) (k : Option Ctx) : (s.setCtx n k).power = s.power := rfl
@[simp] theorem State.setCtx_memInfo (n : Nat) (k : Option Ctx) : (s.setCtx n k).memInfo = s.memInfo := rfl
@[simp] theorem State.setCtx_lease (n : Nat) (k : Option Ctx) : (s.setCtx n k).lease = s.lease := rfl
@[simp] theorem State.setCtx_otp (n : Nat) (k : Option Ctx) : (s.setCtx n k).otp = s.otp := rfl
@[simp] theorem State.setCtx_sec (n : Nat) (k : Option Ctx) : (s.setCtx n k).sec = s.sec := rfl
@[simp] theorem State.setCtx_life (n : Nat) (k : Option Ctx) : (s.setCtx n k).life = s.life := rfl
@[simp] theorem State.setCtx_restricted (n : Nat) (k : Option Ctx) : (s.setCtx n k).restricted = s.restricted := rfl
@[simp] theorem State.setCtx_restrictReason (n : Nat) (k : Option Ctx) : (s.setCtx n k).restrictReason = s.restrictReason := rfl
@[simp] theorem State.setCtx_stpIn (n : Nat) (k : Option Ctx) : (s.setCtx n k).stpIn = s.stpIn := rfl
@[simp] theorem State.setCtx_stpMessages (n : Nat) (k : Option Ctx) : (s.setCtx n k).stpMessages = s.stpMessages := rfl
@[simp] theorem State.setCtx_stpWaitMax (n : Nat) (k : Option Ctx) : (s.setCtx n k).stpWaitMax = s.stpWaitMax := rfl
@[simp] theorem State.setCtx_stpYield (n : Nat) (k : Option Ctx) : (s.setCtx n k).stpYield = s.stpYield := rfl
@[simp] theorem State.setCtx_latches (n : Nat) (k : Option Ctx) : (s.setCtx n k).latches = s.latches := rfl
@[simp] theorem State.setCtx_sbLatches (n : Nat) (k : Option Ctx) : (s.setCtx n k).sbLatches = s.sbLatches := rfl
@[simp] theorem State.setCtx_sbPointer (n : Nat) (k : Option Ctx) : (s.setCtx n k).sbPointer = s.sbPointer := rfl
@[simp] theorem State.setCtx_sclk (n : Nat) (k : Option Ctx) : (s.setCtx n k).sclk = s.sclk := rfl
@[simp] theorem State.setCtx_out (n : Nat) (k : Option Ctx) : (s.setCtx n k).out = s.out := rfl
@[simp] theorem State.setCtx_freeCtr (n : Nat) (k : Option Ctx) : (s.setCtx n k).freeCtr = s.freeCtr := rfl
@[simp] theorem State.setCtx_pending (n : Nat) (k : Option Ctx) : (s.setCtx n k).pending = s.pending := rfl

/-! ### `setQp` -/

@[simp] theorem State.setQp_mem (n : Nat) (q : Qp) : (s.setQp n q).mem = s.mem := rfl
@[simp] theorem State.setQp_poison (n : Nat) (q : Qp) : (s.setQp n q).poison = s.poison := rfl
@[simp] theorem State.setQp_retired (n : Nat) (q : Qp) : (s.setQp n q).retired = s.retired := rfl
@[simp] theorem State.setQp_corrections (n : Nat) (q : Qp) : (s.setQp n q).corrections = s.corrections := rfl
@[simp] theorem State.setQp_tiles (n : Nat) (q : Qp) : (s.setQp n q).tiles = s.tiles := rfl
@[simp] theorem State.setQp_skips (n : Nat) (q : Qp) : (s.setQp n q).skips = s.skips := rfl
@[simp] theorem State.setQp_jobs (n : Nat) (q : Qp) : (s.setQp n q).jobs = s.jobs := rfl
@[simp] theorem State.setQp_ctxs (n : Nat) (q : Qp) : (s.setQp n q).ctxs = s.ctxs := rfl
@[simp] theorem State.setQp_lastJobs (n : Nat) (q : Qp) : (s.setQp n q).lastJobs = s.lastJobs := rfl
@[simp] theorem State.setQp_lastCtxs (n : Nat) (q : Qp) : (s.setQp n q).lastCtxs = s.lastCtxs := rfl
@[simp] theorem State.setQp_works (n : Nat) (q : Qp) : (s.setQp n q).works = s.works := rfl
@[simp] theorem State.setQp_journal (n : Nat) (q : Qp) : (s.setQp n q).journal = s.journal := rfl
@[simp] theorem State.setQp_fab (n : Nat) (q : Qp) : (s.setQp n q).fab = s.fab := rfl
@[simp] theorem State.setQp_power (n : Nat) (q : Qp) : (s.setQp n q).power = s.power := rfl
@[simp] theorem State.setQp_memInfo (n : Nat) (q : Qp) : (s.setQp n q).memInfo = s.memInfo := rfl
@[simp] theorem State.setQp_lease (n : Nat) (q : Qp) : (s.setQp n q).lease = s.lease := rfl
@[simp] theorem State.setQp_otp (n : Nat) (q : Qp) : (s.setQp n q).otp = s.otp := rfl
@[simp] theorem State.setQp_sec (n : Nat) (q : Qp) : (s.setQp n q).sec = s.sec := rfl
@[simp] theorem State.setQp_life (n : Nat) (q : Qp) : (s.setQp n q).life = s.life := rfl
@[simp] theorem State.setQp_restricted (n : Nat) (q : Qp) : (s.setQp n q).restricted = s.restricted := rfl
@[simp] theorem State.setQp_restrictReason (n : Nat) (q : Qp) : (s.setQp n q).restrictReason = s.restrictReason := rfl
@[simp] theorem State.setQp_stpIn (n : Nat) (q : Qp) : (s.setQp n q).stpIn = s.stpIn := rfl
@[simp] theorem State.setQp_stpMessages (n : Nat) (q : Qp) : (s.setQp n q).stpMessages = s.stpMessages := rfl
@[simp] theorem State.setQp_stpWaitMax (n : Nat) (q : Qp) : (s.setQp n q).stpWaitMax = s.stpWaitMax := rfl
@[simp] theorem State.setQp_stpYield (n : Nat) (q : Qp) : (s.setQp n q).stpYield = s.stpYield := rfl
@[simp] theorem State.setQp_latches (n : Nat) (q : Qp) : (s.setQp n q).latches = s.latches := rfl
@[simp] theorem State.setQp_sbLatches (n : Nat) (q : Qp) : (s.setQp n q).sbLatches = s.sbLatches := rfl
@[simp] theorem State.setQp_sbPointer (n : Nat) (q : Qp) : (s.setQp n q).sbPointer = s.sbPointer := rfl
@[simp] theorem State.setQp_sclk (n : Nat) (q : Qp) : (s.setQp n q).sclk = s.sclk := rfl
@[simp] theorem State.setQp_out (n : Nat) (q : Qp) : (s.setQp n q).out = s.out := rfl
@[simp] theorem State.setQp_freeCtr (n : Nat) (q : Qp) : (s.setQp n q).freeCtr = s.freeCtr := rfl
@[simp] theorem State.setQp_pending (n : Nat) (q : Qp) : (s.setQp n q).pending = s.pending := rfl
@[simp] theorem State.setQp_host_mode (n : Nat) (q : Qp) : (s.setQp n q).host.mode = s.host.mode := rfl
@[simp] theorem State.setQp_host_mtu (n : Nat) (q : Qp) : (s.setQp n q).host.mtu = s.host.mtu := rfl
@[simp] theorem State.setQp_host_vlanEn (n : Nat) (q : Qp) : (s.setQp n q).host.vlanEn = s.host.vlanEn := rfl
@[simp] theorem State.setQp_host_pfcEn (n : Nat) (q : Qp) : (s.setQp n q).host.pfcEn = s.host.pfcEn := rfl
@[simp] theorem State.setQp_host_pfcPrio (n : Nat) (q : Qp) : (s.setQp n q).host.pfcPrio = s.host.pfcPrio := rfl
@[simp] theorem State.setQp_host_pcp (n : Nat) (q : Qp) : (s.setQp n q).host.pcp = s.host.pcp := rfl
@[simp] theorem State.setQp_host_vid (n : Nat) (q : Qp) : (s.setQp n q).host.vid = s.host.vid := rfl
@[simp] theorem State.setQp_host_state (n : Nat) (q : Qp) : (s.setQp n q).host.state = s.host.state := rfl
@[simp] theorem State.setQp_host_modeActive (n : Nat) (q : Qp) : (s.setQp n q).host.modeActive = s.host.modeActive := rfl
@[simp] theorem State.setQp_host_locked (n : Nat) (q : Qp) : (s.setQp n q).host.locked = s.host.locked := rfl
@[simp] theorem State.setQp_host_mac (n : Nat) (q : Qp) : (s.setQp n q).host.mac = s.host.mac := rfl
@[simp] theorem State.setQp_host_ipv4 (n : Nat) (q : Qp) : (s.setQp n q).host.ipv4 = s.host.ipv4 := rfl
@[simp] theorem State.setQp_host_ipv6 (n : Nat) (q : Qp) : (s.setQp n q).host.ipv6 = s.host.ipv6 := rfl
@[simp] theorem State.setQp_host_permit (n : Nat) (q : Qp) : (s.setQp n q).host.permit = s.host.permit := rfl
@[simp] theorem State.setQp_host_pausedUntil (n : Nat) (q : Qp) : (s.setQp n q).host.pausedUntil = s.host.pausedUntil := rfl
@[simp] theorem State.setQp_host_txHeld (n : Nat) (q : Qp) : (s.setQp n q).host.txHeld = s.host.txHeld := rfl
@[simp] theorem State.setQp_host_rxHigh (n : Nat) (q : Qp) : (s.setQp n q).host.rxHigh = s.host.rxHigh := rfl
@[simp] theorem State.setQp_host_queued (n : Nat) (q : Qp) : (s.setQp n q).host.queued = s.host.queued := rfl
@[simp] theorem State.setQp_host_icmpSent (n : Nat) (q : Qp) : (s.setQp n q).host.icmpSent = s.host.icmpSent := rfl
@[simp] theorem State.setQp_host_icmpAt (n : Nat) (q : Qp) : (s.setQp n q).host.icmpAt = s.host.icmpAt := rfl
@[simp] theorem State.setQp_host_next (n : Nat) (q : Qp) : (s.setQp n q).host.next = s.host.next := rfl
@[simp] theorem State.setQp_host_held (n : Nat) (q : Qp) : (s.setQp n q).host.held = s.host.held := rfl
@[simp] theorem State.setQp_host_counts (n : Nat) (q : Qp) : (s.setQp n q).host.counts = s.host.counts := rfl
@[simp] theorem State.setQp_host_xfers (n : Nat) (q : Qp) : (s.setQp n q).host.xfers = s.host.xfers := rfl

/-! ### `setXfer` -/

@[simp] theorem State.setXfer_mem (n : Nat) (x : Xfer) : (s.setXfer n x).mem = s.mem := rfl
@[simp] theorem State.setXfer_poison (n : Nat) (x : Xfer) : (s.setXfer n x).poison = s.poison := rfl
@[simp] theorem State.setXfer_retired (n : Nat) (x : Xfer) : (s.setXfer n x).retired = s.retired := rfl
@[simp] theorem State.setXfer_corrections (n : Nat) (x : Xfer) : (s.setXfer n x).corrections = s.corrections := rfl
@[simp] theorem State.setXfer_tiles (n : Nat) (x : Xfer) : (s.setXfer n x).tiles = s.tiles := rfl
@[simp] theorem State.setXfer_skips (n : Nat) (x : Xfer) : (s.setXfer n x).skips = s.skips := rfl
@[simp] theorem State.setXfer_jobs (n : Nat) (x : Xfer) : (s.setXfer n x).jobs = s.jobs := rfl
@[simp] theorem State.setXfer_ctxs (n : Nat) (x : Xfer) : (s.setXfer n x).ctxs = s.ctxs := rfl
@[simp] theorem State.setXfer_lastJobs (n : Nat) (x : Xfer) : (s.setXfer n x).lastJobs = s.lastJobs := rfl
@[simp] theorem State.setXfer_lastCtxs (n : Nat) (x : Xfer) : (s.setXfer n x).lastCtxs = s.lastCtxs := rfl
@[simp] theorem State.setXfer_works (n : Nat) (x : Xfer) : (s.setXfer n x).works = s.works := rfl
@[simp] theorem State.setXfer_journal (n : Nat) (x : Xfer) : (s.setXfer n x).journal = s.journal := rfl
@[simp] theorem State.setXfer_fab (n : Nat) (x : Xfer) : (s.setXfer n x).fab = s.fab := rfl
@[simp] theorem State.setXfer_power (n : Nat) (x : Xfer) : (s.setXfer n x).power = s.power := rfl
@[simp] theorem State.setXfer_memInfo (n : Nat) (x : Xfer) : (s.setXfer n x).memInfo = s.memInfo := rfl
@[simp] theorem State.setXfer_lease (n : Nat) (x : Xfer) : (s.setXfer n x).lease = s.lease := rfl
@[simp] theorem State.setXfer_otp (n : Nat) (x : Xfer) : (s.setXfer n x).otp = s.otp := rfl
@[simp] theorem State.setXfer_sec (n : Nat) (x : Xfer) : (s.setXfer n x).sec = s.sec := rfl
@[simp] theorem State.setXfer_life (n : Nat) (x : Xfer) : (s.setXfer n x).life = s.life := rfl
@[simp] theorem State.setXfer_restricted (n : Nat) (x : Xfer) : (s.setXfer n x).restricted = s.restricted := rfl
@[simp] theorem State.setXfer_restrictReason (n : Nat) (x : Xfer) : (s.setXfer n x).restrictReason = s.restrictReason := rfl
@[simp] theorem State.setXfer_stpIn (n : Nat) (x : Xfer) : (s.setXfer n x).stpIn = s.stpIn := rfl
@[simp] theorem State.setXfer_stpMessages (n : Nat) (x : Xfer) : (s.setXfer n x).stpMessages = s.stpMessages := rfl
@[simp] theorem State.setXfer_stpWaitMax (n : Nat) (x : Xfer) : (s.setXfer n x).stpWaitMax = s.stpWaitMax := rfl
@[simp] theorem State.setXfer_stpYield (n : Nat) (x : Xfer) : (s.setXfer n x).stpYield = s.stpYield := rfl
@[simp] theorem State.setXfer_latches (n : Nat) (x : Xfer) : (s.setXfer n x).latches = s.latches := rfl
@[simp] theorem State.setXfer_sbLatches (n : Nat) (x : Xfer) : (s.setXfer n x).sbLatches = s.sbLatches := rfl
@[simp] theorem State.setXfer_sbPointer (n : Nat) (x : Xfer) : (s.setXfer n x).sbPointer = s.sbPointer := rfl
@[simp] theorem State.setXfer_sclk (n : Nat) (x : Xfer) : (s.setXfer n x).sclk = s.sclk := rfl
@[simp] theorem State.setXfer_out (n : Nat) (x : Xfer) : (s.setXfer n x).out = s.out := rfl
@[simp] theorem State.setXfer_freeCtr (n : Nat) (x : Xfer) : (s.setXfer n x).freeCtr = s.freeCtr := rfl
@[simp] theorem State.setXfer_pending (n : Nat) (x : Xfer) : (s.setXfer n x).pending = s.pending := rfl
@[simp] theorem State.setXfer_host_mode (n : Nat) (x : Xfer) : (s.setXfer n x).host.mode = s.host.mode := rfl
@[simp] theorem State.setXfer_host_mtu (n : Nat) (x : Xfer) : (s.setXfer n x).host.mtu = s.host.mtu := rfl
@[simp] theorem State.setXfer_host_vlanEn (n : Nat) (x : Xfer) : (s.setXfer n x).host.vlanEn = s.host.vlanEn := rfl
@[simp] theorem State.setXfer_host_pfcEn (n : Nat) (x : Xfer) : (s.setXfer n x).host.pfcEn = s.host.pfcEn := rfl
@[simp] theorem State.setXfer_host_pfcPrio (n : Nat) (x : Xfer) : (s.setXfer n x).host.pfcPrio = s.host.pfcPrio := rfl
@[simp] theorem State.setXfer_host_pcp (n : Nat) (x : Xfer) : (s.setXfer n x).host.pcp = s.host.pcp := rfl
@[simp] theorem State.setXfer_host_vid (n : Nat) (x : Xfer) : (s.setXfer n x).host.vid = s.host.vid := rfl
@[simp] theorem State.setXfer_host_state (n : Nat) (x : Xfer) : (s.setXfer n x).host.state = s.host.state := rfl
@[simp] theorem State.setXfer_host_modeActive (n : Nat) (x : Xfer) : (s.setXfer n x).host.modeActive = s.host.modeActive := rfl
@[simp] theorem State.setXfer_host_locked (n : Nat) (x : Xfer) : (s.setXfer n x).host.locked = s.host.locked := rfl
@[simp] theorem State.setXfer_host_mac (n : Nat) (x : Xfer) : (s.setXfer n x).host.mac = s.host.mac := rfl
@[simp] theorem State.setXfer_host_ipv4 (n : Nat) (x : Xfer) : (s.setXfer n x).host.ipv4 = s.host.ipv4 := rfl
@[simp] theorem State.setXfer_host_ipv6 (n : Nat) (x : Xfer) : (s.setXfer n x).host.ipv6 = s.host.ipv6 := rfl
@[simp] theorem State.setXfer_host_permit (n : Nat) (x : Xfer) : (s.setXfer n x).host.permit = s.host.permit := rfl
@[simp] theorem State.setXfer_host_pausedUntil (n : Nat) (x : Xfer) : (s.setXfer n x).host.pausedUntil = s.host.pausedUntil := rfl
@[simp] theorem State.setXfer_host_txHeld (n : Nat) (x : Xfer) : (s.setXfer n x).host.txHeld = s.host.txHeld := rfl
@[simp] theorem State.setXfer_host_rxHigh (n : Nat) (x : Xfer) : (s.setXfer n x).host.rxHigh = s.host.rxHigh := rfl
@[simp] theorem State.setXfer_host_queued (n : Nat) (x : Xfer) : (s.setXfer n x).host.queued = s.host.queued := rfl
@[simp] theorem State.setXfer_host_icmpSent (n : Nat) (x : Xfer) : (s.setXfer n x).host.icmpSent = s.host.icmpSent := rfl
@[simp] theorem State.setXfer_host_icmpAt (n : Nat) (x : Xfer) : (s.setXfer n x).host.icmpAt = s.host.icmpAt := rfl
@[simp] theorem State.setXfer_host_next (n : Nat) (x : Xfer) : (s.setXfer n x).host.next = s.host.next := rfl
@[simp] theorem State.setXfer_host_held (n : Nat) (x : Xfer) : (s.setXfer n x).host.held = s.host.held := rfl
@[simp] theorem State.setXfer_host_counts (n : Nat) (x : Xfer) : (s.setXfer n x).host.counts = s.host.counts := rfl
@[simp] theorem State.setXfer_host_qps (n : Nat) (x : Xfer) : (s.setXfer n x).host.qps = s.host.qps := rfl

/-! ### `setPort` -/

@[simp] theorem State.setPort_mem (n : Nat) (x : Port) : (s.setPort n x).mem = s.mem := rfl
@[simp] theorem State.setPort_poison (n : Nat) (x : Port) : (s.setPort n x).poison = s.poison := rfl
@[simp] theorem State.setPort_retired (n : Nat) (x : Port) : (s.setPort n x).retired = s.retired := rfl
@[simp] theorem State.setPort_corrections (n : Nat) (x : Port) : (s.setPort n x).corrections = s.corrections := rfl
@[simp] theorem State.setPort_tiles (n : Nat) (x : Port) : (s.setPort n x).tiles = s.tiles := rfl
@[simp] theorem State.setPort_skips (n : Nat) (x : Port) : (s.setPort n x).skips = s.skips := rfl
@[simp] theorem State.setPort_jobs (n : Nat) (x : Port) : (s.setPort n x).jobs = s.jobs := rfl
@[simp] theorem State.setPort_ctxs (n : Nat) (x : Port) : (s.setPort n x).ctxs = s.ctxs := rfl
@[simp] theorem State.setPort_lastJobs (n : Nat) (x : Port) : (s.setPort n x).lastJobs = s.lastJobs := rfl
@[simp] theorem State.setPort_lastCtxs (n : Nat) (x : Port) : (s.setPort n x).lastCtxs = s.lastCtxs := rfl
@[simp] theorem State.setPort_works (n : Nat) (x : Port) : (s.setPort n x).works = s.works := rfl
@[simp] theorem State.setPort_journal (n : Nat) (x : Port) : (s.setPort n x).journal = s.journal := rfl
@[simp] theorem State.setPort_host (n : Nat) (x : Port) : (s.setPort n x).host = s.host := rfl
@[simp] theorem State.setPort_power (n : Nat) (x : Port) : (s.setPort n x).power = s.power := rfl
@[simp] theorem State.setPort_memInfo (n : Nat) (x : Port) : (s.setPort n x).memInfo = s.memInfo := rfl
@[simp] theorem State.setPort_lease (n : Nat) (x : Port) : (s.setPort n x).lease = s.lease := rfl
@[simp] theorem State.setPort_otp (n : Nat) (x : Port) : (s.setPort n x).otp = s.otp := rfl
@[simp] theorem State.setPort_sec (n : Nat) (x : Port) : (s.setPort n x).sec = s.sec := rfl
@[simp] theorem State.setPort_life (n : Nat) (x : Port) : (s.setPort n x).life = s.life := rfl
@[simp] theorem State.setPort_restricted (n : Nat) (x : Port) : (s.setPort n x).restricted = s.restricted := rfl
@[simp] theorem State.setPort_restrictReason (n : Nat) (x : Port) : (s.setPort n x).restrictReason = s.restrictReason := rfl
@[simp] theorem State.setPort_stpIn (n : Nat) (x : Port) : (s.setPort n x).stpIn = s.stpIn := rfl
@[simp] theorem State.setPort_stpMessages (n : Nat) (x : Port) : (s.setPort n x).stpMessages = s.stpMessages := rfl
@[simp] theorem State.setPort_stpWaitMax (n : Nat) (x : Port) : (s.setPort n x).stpWaitMax = s.stpWaitMax := rfl
@[simp] theorem State.setPort_stpYield (n : Nat) (x : Port) : (s.setPort n x).stpYield = s.stpYield := rfl
@[simp] theorem State.setPort_latches (n : Nat) (x : Port) : (s.setPort n x).latches = s.latches := rfl
@[simp] theorem State.setPort_sbLatches (n : Nat) (x : Port) : (s.setPort n x).sbLatches = s.sbLatches := rfl
@[simp] theorem State.setPort_sbPointer (n : Nat) (x : Port) : (s.setPort n x).sbPointer = s.sbPointer := rfl
@[simp] theorem State.setPort_sclk (n : Nat) (x : Port) : (s.setPort n x).sclk = s.sclk := rfl
@[simp] theorem State.setPort_out (n : Nat) (x : Port) : (s.setPort n x).out = s.out := rfl
@[simp] theorem State.setPort_freeCtr (n : Nat) (x : Port) : (s.setPort n x).freeCtr = s.freeCtr := rfl
@[simp] theorem State.setPort_pending (n : Nat) (x : Port) : (s.setPort n x).pending = s.pending := rfl
@[simp] theorem State.setPort_fab_fid (n : Nat) (x : Port) : (s.setPort n x).fab.fid = s.fab.fid := rfl
@[simp] theorem State.setPort_fab_conflict (n : Nat) (x : Port) : (s.setPort n x).fab.conflict = s.fab.conflict := rfl
@[simp] theorem State.setPort_fab_clashing (n : Nat) (x : Port) : (s.setPort n x).fab.clashing = s.fab.clashing := rfl
@[simp] theorem State.setPort_fab_drop (n : Nat) (x : Port) : (s.setPort n x).fab.drop = s.fab.drop := rfl
@[simp] theorem State.setPort_fab_noRoute (n : Nat) (x : Port) : (s.setPort n x).fab.noRoute = s.fab.noRoute := rfl
@[simp] theorem State.setPort_fab_routes (n : Nat) (x : Port) : (s.setPort n x).fab.routes = s.fab.routes := rfl
@[simp] theorem State.setPort_fab_routedAt (n : Nat) (x : Port) : (s.setPort n x).fab.routedAt = s.fab.routedAt := rfl
@[simp] theorem State.setPort_fab_unacked (n : Nat) (x : Port) : (s.setPort n x).fab.unacked = s.fab.unacked := rfl
@[simp] theorem State.setPort_fab_waiting (n : Nat) (x : Port) : (s.setPort n x).fab.waiting = s.fab.waiting := rfl

/-! ### `setPaddock` -/

@[simp] theorem State.setPaddock_mem (n : Nat) (x : Paddock) : (s.setPaddock n x).mem = s.mem := rfl
@[simp] theorem State.setPaddock_poison (n : Nat) (x : Paddock) : (s.setPaddock n x).poison = s.poison := rfl
@[simp] theorem State.setPaddock_retired (n : Nat) (x : Paddock) : (s.setPaddock n x).retired = s.retired := rfl
@[simp] theorem State.setPaddock_corrections (n : Nat) (x : Paddock) : (s.setPaddock n x).corrections = s.corrections := rfl
@[simp] theorem State.setPaddock_tiles (n : Nat) (x : Paddock) : (s.setPaddock n x).tiles = s.tiles := rfl
@[simp] theorem State.setPaddock_skips (n : Nat) (x : Paddock) : (s.setPaddock n x).skips = s.skips := rfl
@[simp] theorem State.setPaddock_jobs (n : Nat) (x : Paddock) : (s.setPaddock n x).jobs = s.jobs := rfl
@[simp] theorem State.setPaddock_ctxs (n : Nat) (x : Paddock) : (s.setPaddock n x).ctxs = s.ctxs := rfl
@[simp] theorem State.setPaddock_lastJobs (n : Nat) (x : Paddock) : (s.setPaddock n x).lastJobs = s.lastJobs := rfl
@[simp] theorem State.setPaddock_lastCtxs (n : Nat) (x : Paddock) : (s.setPaddock n x).lastCtxs = s.lastCtxs := rfl
@[simp] theorem State.setPaddock_works (n : Nat) (x : Paddock) : (s.setPaddock n x).works = s.works := rfl
@[simp] theorem State.setPaddock_journal (n : Nat) (x : Paddock) : (s.setPaddock n x).journal = s.journal := rfl
@[simp] theorem State.setPaddock_host (n : Nat) (x : Paddock) : (s.setPaddock n x).host = s.host := rfl
@[simp] theorem State.setPaddock_fab (n : Nat) (x : Paddock) : (s.setPaddock n x).fab = s.fab := rfl
@[simp] theorem State.setPaddock_memInfo (n : Nat) (x : Paddock) : (s.setPaddock n x).memInfo = s.memInfo := rfl
@[simp] theorem State.setPaddock_lease (n : Nat) (x : Paddock) : (s.setPaddock n x).lease = s.lease := rfl
@[simp] theorem State.setPaddock_otp (n : Nat) (x : Paddock) : (s.setPaddock n x).otp = s.otp := rfl
@[simp] theorem State.setPaddock_sec (n : Nat) (x : Paddock) : (s.setPaddock n x).sec = s.sec := rfl
@[simp] theorem State.setPaddock_life (n : Nat) (x : Paddock) : (s.setPaddock n x).life = s.life := rfl
@[simp] theorem State.setPaddock_restricted (n : Nat) (x : Paddock) : (s.setPaddock n x).restricted = s.restricted := rfl
@[simp] theorem State.setPaddock_restrictReason (n : Nat) (x : Paddock) : (s.setPaddock n x).restrictReason = s.restrictReason := rfl
@[simp] theorem State.setPaddock_stpIn (n : Nat) (x : Paddock) : (s.setPaddock n x).stpIn = s.stpIn := rfl
@[simp] theorem State.setPaddock_stpMessages (n : Nat) (x : Paddock) : (s.setPaddock n x).stpMessages = s.stpMessages := rfl
@[simp] theorem State.setPaddock_stpWaitMax (n : Nat) (x : Paddock) : (s.setPaddock n x).stpWaitMax = s.stpWaitMax := rfl
@[simp] theorem State.setPaddock_stpYield (n : Nat) (x : Paddock) : (s.setPaddock n x).stpYield = s.stpYield := rfl
@[simp] theorem State.setPaddock_latches (n : Nat) (x : Paddock) : (s.setPaddock n x).latches = s.latches := rfl
@[simp] theorem State.setPaddock_sbLatches (n : Nat) (x : Paddock) : (s.setPaddock n x).sbLatches = s.sbLatches := rfl
@[simp] theorem State.setPaddock_sbPointer (n : Nat) (x : Paddock) : (s.setPaddock n x).sbPointer = s.sbPointer := rfl
@[simp] theorem State.setPaddock_sclk (n : Nat) (x : Paddock) : (s.setPaddock n x).sclk = s.sclk := rfl
@[simp] theorem State.setPaddock_out (n : Nat) (x : Paddock) : (s.setPaddock n x).out = s.out := rfl
@[simp] theorem State.setPaddock_freeCtr (n : Nat) (x : Paddock) : (s.setPaddock n x).freeCtr = s.freeCtr := rfl
@[simp] theorem State.setPaddock_pending (n : Nat) (x : Paddock) : (s.setPaddock n x).pending = s.pending := rfl
@[simp] theorem State.setPaddock_power_capW (n : Nat) (x : Paddock) : (s.setPaddock n x).power.capW = s.power.capW := rfl
@[simp] theorem State.setPaddock_power_maxPoint (n : Nat) (x : Paddock) : (s.setPaddock n x).power.maxPoint = s.power.maxPoint := rfl
@[simp] theorem State.setPaddock_power_thermalC (n : Nat) (x : Paddock) : (s.setPaddock n x).power.thermalC = s.power.thermalC := rfl
@[simp] theorem State.setPaddock_power_pendingCap (n : Nat) (x : Paddock) : (s.setPaddock n x).power.pendingCap = s.power.pendingCap := rfl
@[simp] theorem State.setPaddock_power_level (n : Nat) (x : Paddock) : (s.setPaddock n x).power.level = s.power.level := rfl
@[simp] theorem State.setPaddock_power_period (n : Nat) (x : Paddock) : (s.setPaddock n x).power.period = s.power.period := rfl
@[simp] theorem State.setPaddock_power_telemLost (n : Nat) (x : Paddock) : (s.setPaddock n x).power.telemLost = s.power.telemLost := rfl
@[simp] theorem State.setPaddock_power_rails (n : Nat) (x : Paddock) : (s.setPaddock n x).power.rails = s.power.rails := rfl
@[simp] theorem State.setPaddock_power_railPoint (n : Nat) (x : Paddock) : (s.setPaddock n x).power.railPoint = s.power.railPoint := rfl
@[simp] theorem State.setPaddock_power_railTarget (n : Nat) (x : Paddock) : (s.setPaddock n x).power.railTarget = s.power.railTarget := rfl
@[simp] theorem State.setPaddock_power_ramps (n : Nat) (x : Paddock) : (s.setPaddock n x).power.ramps = s.power.ramps := rfl
@[simp] theorem State.setPaddock_power_throttles (n : Nat) (x : Paddock) : (s.setPaddock n x).power.throttles = s.power.throttles := rfl
@[simp] theorem State.setPaddock_power_thresh (n : Nat) (x : Paddock) : (s.setPaddock n x).power.thresh = s.power.thresh := rfl
@[simp] theorem State.setPaddock_power_hold (n : Nat) (x : Paddock) : (s.setPaddock n x).power.hold = s.power.hold := rfl
@[simp] theorem State.setPaddock_power_freqChanges (n : Nat) (x : Paddock) : (s.setPaddock n x).power.freqChanges = s.power.freqChanges := rfl
@[simp] theorem State.setPaddock_power_heldCount (n : Nat) (x : Paddock) : (s.setPaddock n x).power.heldCount = s.power.heldCount := rfl
@[simp] theorem State.setPaddock_power_heldMax (n : Nat) (x : Paddock) : (s.setPaddock n x).power.heldMax = s.power.heldMax := rfl
@[simp] theorem State.setPaddock_power_replaced (n : Nat) (x : Paddock) : (s.setPaddock n x).power.replaced = s.power.replaced := rfl
@[simp] theorem State.setPaddock_power_energyNj (n : Nat) (x : Paddock) : (s.setPaddock n x).power.energyNj = s.power.energyNj := rfl
@[simp] theorem State.setPaddock_power_overheadNj (n : Nat) (x : Paddock) : (s.setPaddock n x).power.overheadNj = s.power.overheadNj := rfl
@[simp] theorem State.setPaddock_power_moved (n : Nat) (x : Paddock) : (s.setPaddock n x).power.moved = s.power.moved := rfl
@[simp] theorem State.setPaddock_power_linkBytes (n : Nat) (x : Paddock) : (s.setPaddock n x).power.linkBytes = s.power.linkBytes := rfl
@[simp] theorem State.setPaddock_power_activity (n : Nat) (x : Paddock) : (s.setPaddock n x).power.activity = s.power.activity := rfl
@[simp] theorem State.setPaddock_power_meshFlits (n : Nat) (x : Paddock) : (s.setPaddock n x).power.meshFlits = s.power.meshFlits := rfl
@[simp] theorem State.setPaddock_power_carryNj (n : Nat) (x : Paddock) : (s.setPaddock n x).power.carryNj = s.power.carryNj := rfl
@[simp] theorem State.setPaddock_power_sagCeiling (n : Nat) (x : Paddock) : (s.setPaddock n x).power.sagCeiling = s.power.sagCeiling := rfl
@[simp] theorem State.setPaddock_power_brownCeiling (n : Nat) (x : Paddock) : (s.setPaddock n x).power.brownCeiling = s.power.brownCeiling := rfl
@[simp] theorem State.setPaddock_power_feedSag (n : Nat) (x : Paddock) : (s.setPaddock n x).power.feedSag = s.power.feedSag := rfl
@[simp] theorem State.setPaddock_power_overcurrent (n : Nat) (x : Paddock) : (s.setPaddock n x).power.overcurrent = s.power.overcurrent := rfl
@[simp] theorem State.setPaddock_power_brownOut (n : Nat) (x : Paddock) : (s.setPaddock n x).power.brownOut = s.power.brownOut := rfl
@[simp] theorem State.setPaddock_power_powerFail (n : Nat) (x : Paddock) : (s.setPaddock n x).power.powerFail = s.power.powerFail := rfl
@[simp] theorem State.setPaddock_power_handOutStopped (n : Nat) (x : Paddock) : (s.setPaddock n x).power.handOutStopped = s.power.handOutStopped := rfl
@[simp] theorem State.setPaddock_power_brakeLow (n : Nat) (x : Paddock) : (s.setPaddock n x).power.brakeLow = s.power.brakeLow := rfl
@[simp] theorem State.setPaddock_power_rootLock (n : Nat) (x : Paddock) : (s.setPaddock n x).power.rootLock = s.power.rootLock := rfl
@[simp] theorem State.setPaddock_power_fabLock (n : Nat) (x : Paddock) : (s.setPaddock n x).power.fabLock = s.power.fabLock := rfl
@[simp] theorem State.setPaddock_power_ddrLock (n : Nat) (x : Paddock) : (s.setPaddock n x).power.ddrLock = s.power.ddrLock := rfl
@[simp] theorem State.setPaddock_power_hbmLock (n : Nat) (x : Paddock) : (s.setPaddock n x).power.hbmLock = s.power.hbmLock := rfl
@[simp] theorem State.setPaddock_power_hostLock (n : Nat) (x : Paddock) : (s.setPaddock n x).power.hostLock = s.power.hostLock := rfl
@[simp] theorem State.setPaddock_power_refclkOk (n : Nat) (x : Paddock) : (s.setPaddock n x).power.refclkOk = s.power.refclkOk := rfl
@[simp] theorem State.setPaddock_power_loss (n : Nat) (x : Paddock) : (s.setPaddock n x).power.loss = s.power.loss := rfl

/-! ### `setSlot` -/

@[simp] theorem State.setSlot_mem (n : Nat) (x : Slot) : (s.setSlot n x).mem = s.mem := rfl
@[simp] theorem State.setSlot_poison (n : Nat) (x : Slot) : (s.setSlot n x).poison = s.poison := rfl
@[simp] theorem State.setSlot_retired (n : Nat) (x : Slot) : (s.setSlot n x).retired = s.retired := rfl
@[simp] theorem State.setSlot_corrections (n : Nat) (x : Slot) : (s.setSlot n x).corrections = s.corrections := rfl
@[simp] theorem State.setSlot_tiles (n : Nat) (x : Slot) : (s.setSlot n x).tiles = s.tiles := rfl
@[simp] theorem State.setSlot_skips (n : Nat) (x : Slot) : (s.setSlot n x).skips = s.skips := rfl
@[simp] theorem State.setSlot_jobs (n : Nat) (x : Slot) : (s.setSlot n x).jobs = s.jobs := rfl
@[simp] theorem State.setSlot_ctxs (n : Nat) (x : Slot) : (s.setSlot n x).ctxs = s.ctxs := rfl
@[simp] theorem State.setSlot_lastJobs (n : Nat) (x : Slot) : (s.setSlot n x).lastJobs = s.lastJobs := rfl
@[simp] theorem State.setSlot_lastCtxs (n : Nat) (x : Slot) : (s.setSlot n x).lastCtxs = s.lastCtxs := rfl
@[simp] theorem State.setSlot_works (n : Nat) (x : Slot) : (s.setSlot n x).works = s.works := rfl
@[simp] theorem State.setSlot_host (n : Nat) (x : Slot) : (s.setSlot n x).host = s.host := rfl
@[simp] theorem State.setSlot_fab (n : Nat) (x : Slot) : (s.setSlot n x).fab = s.fab := rfl
@[simp] theorem State.setSlot_power (n : Nat) (x : Slot) : (s.setSlot n x).power = s.power := rfl
@[simp] theorem State.setSlot_memInfo (n : Nat) (x : Slot) : (s.setSlot n x).memInfo = s.memInfo := rfl
@[simp] theorem State.setSlot_lease (n : Nat) (x : Slot) : (s.setSlot n x).lease = s.lease := rfl
@[simp] theorem State.setSlot_otp (n : Nat) (x : Slot) : (s.setSlot n x).otp = s.otp := rfl
@[simp] theorem State.setSlot_sec (n : Nat) (x : Slot) : (s.setSlot n x).sec = s.sec := rfl
@[simp] theorem State.setSlot_life (n : Nat) (x : Slot) : (s.setSlot n x).life = s.life := rfl
@[simp] theorem State.setSlot_restricted (n : Nat) (x : Slot) : (s.setSlot n x).restricted = s.restricted := rfl
@[simp] theorem State.setSlot_restrictReason (n : Nat) (x : Slot) : (s.setSlot n x).restrictReason = s.restrictReason := rfl
@[simp] theorem State.setSlot_stpIn (n : Nat) (x : Slot) : (s.setSlot n x).stpIn = s.stpIn := rfl
@[simp] theorem State.setSlot_stpMessages (n : Nat) (x : Slot) : (s.setSlot n x).stpMessages = s.stpMessages := rfl
@[simp] theorem State.setSlot_stpWaitMax (n : Nat) (x : Slot) : (s.setSlot n x).stpWaitMax = s.stpWaitMax := rfl
@[simp] theorem State.setSlot_stpYield (n : Nat) (x : Slot) : (s.setSlot n x).stpYield = s.stpYield := rfl
@[simp] theorem State.setSlot_latches (n : Nat) (x : Slot) : (s.setSlot n x).latches = s.latches := rfl
@[simp] theorem State.setSlot_sbLatches (n : Nat) (x : Slot) : (s.setSlot n x).sbLatches = s.sbLatches := rfl
@[simp] theorem State.setSlot_sbPointer (n : Nat) (x : Slot) : (s.setSlot n x).sbPointer = s.sbPointer := rfl
@[simp] theorem State.setSlot_sclk (n : Nat) (x : Slot) : (s.setSlot n x).sclk = s.sclk := rfl
@[simp] theorem State.setSlot_out (n : Nat) (x : Slot) : (s.setSlot n x).out = s.out := rfl
@[simp] theorem State.setSlot_freeCtr (n : Nat) (x : Slot) : (s.setSlot n x).freeCtr = s.freeCtr := rfl
@[simp] theorem State.setSlot_pending (n : Nat) (x : Slot) : (s.setSlot n x).pending = s.pending := rfl
@[simp] theorem State.setSlot_journal_mirror (n : Nat) (x : Slot) : (s.setSlot n x).journal.mirror = s.journal.mirror := rfl
@[simp] theorem State.setSlot_journal_heldReplies (n : Nat) (x : Slot) : (s.setSlot n x).journal.heldReplies = s.journal.heldReplies := rfl
@[simp] theorem State.setSlot_journal_accepted (n : Nat) (x : Slot) : (s.setSlot n x).journal.accepted = s.journal.accepted := rfl
@[simp] theorem State.setSlot_journal_full (n : Nat) (x : Slot) : (s.setSlot n x).journal.full = s.journal.full := rfl
@[simp] theorem State.setSlot_journal_dupReplies (n : Nat) (x : Slot) : (s.setSlot n x).journal.dupReplies = s.journal.dupReplies := rfl
@[simp] theorem State.setSlot_journal_lagMaxUs (n : Nat) (x : Slot) : (s.setSlot n x).journal.lagMaxUs = s.journal.lagMaxUs := rfl
@[simp] theorem State.setSlot_journal_mirrorOk (n : Nat) (x : Slot) : (s.setSlot n x).journal.mirrorOk = s.journal.mirrorOk := rfl
@[simp] theorem State.setSlot_journal_poolHighMib (n : Nat) (x : Slot) : (s.setSlot n x).journal.poolHighMib = s.journal.poolHighMib := rfl

/-! ### `modWork` -/

@[simp] theorem State.modWork_mem (q : Nat) (f : Work → Work) : (s.modWork q f).mem = s.mem := rfl
@[simp] theorem State.modWork_poison (q : Nat) (f : Work → Work) : (s.modWork q f).poison = s.poison := rfl
@[simp] theorem State.modWork_retired (q : Nat) (f : Work → Work) : (s.modWork q f).retired = s.retired := rfl
@[simp] theorem State.modWork_corrections (q : Nat) (f : Work → Work) : (s.modWork q f).corrections = s.corrections := rfl
@[simp] theorem State.modWork_tiles (q : Nat) (f : Work → Work) : (s.modWork q f).tiles = s.tiles := rfl
@[simp] theorem State.modWork_skips (q : Nat) (f : Work → Work) : (s.modWork q f).skips = s.skips := rfl
@[simp] theorem State.modWork_jobs (q : Nat) (f : Work → Work) : (s.modWork q f).jobs = s.jobs := rfl
@[simp] theorem State.modWork_ctxs (q : Nat) (f : Work → Work) : (s.modWork q f).ctxs = s.ctxs := rfl
@[simp] theorem State.modWork_lastJobs (q : Nat) (f : Work → Work) : (s.modWork q f).lastJobs = s.lastJobs := rfl
@[simp] theorem State.modWork_lastCtxs (q : Nat) (f : Work → Work) : (s.modWork q f).lastCtxs = s.lastCtxs := rfl
@[simp] theorem State.modWork_journal (q : Nat) (f : Work → Work) : (s.modWork q f).journal = s.journal := rfl
@[simp] theorem State.modWork_host (q : Nat) (f : Work → Work) : (s.modWork q f).host = s.host := rfl
@[simp] theorem State.modWork_fab (q : Nat) (f : Work → Work) : (s.modWork q f).fab = s.fab := rfl
@[simp] theorem State.modWork_power (q : Nat) (f : Work → Work) : (s.modWork q f).power = s.power := rfl
@[simp] theorem State.modWork_memInfo (q : Nat) (f : Work → Work) : (s.modWork q f).memInfo = s.memInfo := rfl
@[simp] theorem State.modWork_lease (q : Nat) (f : Work → Work) : (s.modWork q f).lease = s.lease := rfl
@[simp] theorem State.modWork_otp (q : Nat) (f : Work → Work) : (s.modWork q f).otp = s.otp := rfl
@[simp] theorem State.modWork_sec (q : Nat) (f : Work → Work) : (s.modWork q f).sec = s.sec := rfl
@[simp] theorem State.modWork_life (q : Nat) (f : Work → Work) : (s.modWork q f).life = s.life := rfl
@[simp] theorem State.modWork_restricted (q : Nat) (f : Work → Work) : (s.modWork q f).restricted = s.restricted := rfl
@[simp] theorem State.modWork_restrictReason (q : Nat) (f : Work → Work) : (s.modWork q f).restrictReason = s.restrictReason := rfl
@[simp] theorem State.modWork_stpIn (q : Nat) (f : Work → Work) : (s.modWork q f).stpIn = s.stpIn := rfl
@[simp] theorem State.modWork_stpMessages (q : Nat) (f : Work → Work) : (s.modWork q f).stpMessages = s.stpMessages := rfl
@[simp] theorem State.modWork_stpWaitMax (q : Nat) (f : Work → Work) : (s.modWork q f).stpWaitMax = s.stpWaitMax := rfl
@[simp] theorem State.modWork_stpYield (q : Nat) (f : Work → Work) : (s.modWork q f).stpYield = s.stpYield := rfl
@[simp] theorem State.modWork_latches (q : Nat) (f : Work → Work) : (s.modWork q f).latches = s.latches := rfl
@[simp] theorem State.modWork_sbLatches (q : Nat) (f : Work → Work) : (s.modWork q f).sbLatches = s.sbLatches := rfl
@[simp] theorem State.modWork_sbPointer (q : Nat) (f : Work → Work) : (s.modWork q f).sbPointer = s.sbPointer := rfl
@[simp] theorem State.modWork_sclk (q : Nat) (f : Work → Work) : (s.modWork q f).sclk = s.sclk := rfl
@[simp] theorem State.modWork_out (q : Nat) (f : Work → Work) : (s.modWork q f).out = s.out := rfl
@[simp] theorem State.modWork_freeCtr (q : Nat) (f : Work → Work) : (s.modWork q f).freeCtr = s.freeCtr := rfl
@[simp] theorem State.modWork_pending (q : Nat) (f : Work → Work) : (s.modWork q f).pending = s.pending := rfl

/-! ### `send` -/

@[simp] theorem State.send_mem (o : Out) : (s.send o).mem = s.mem := rfl
@[simp] theorem State.send_poison (o : Out) : (s.send o).poison = s.poison := rfl
@[simp] theorem State.send_retired (o : Out) : (s.send o).retired = s.retired := rfl
@[simp] theorem State.send_corrections (o : Out) : (s.send o).corrections = s.corrections := rfl
@[simp] theorem State.send_tiles (o : Out) : (s.send o).tiles = s.tiles := rfl
@[simp] theorem State.send_skips (o : Out) : (s.send o).skips = s.skips := rfl
@[simp] theorem State.send_jobs (o : Out) : (s.send o).jobs = s.jobs := rfl
@[simp] theorem State.send_ctxs (o : Out) : (s.send o).ctxs = s.ctxs := rfl
@[simp] theorem State.send_lastJobs (o : Out) : (s.send o).lastJobs = s.lastJobs := rfl
@[simp] theorem State.send_lastCtxs (o : Out) : (s.send o).lastCtxs = s.lastCtxs := rfl
@[simp] theorem State.send_works (o : Out) : (s.send o).works = s.works := rfl
@[simp] theorem State.send_journal (o : Out) : (s.send o).journal = s.journal := rfl
@[simp] theorem State.send_host (o : Out) : (s.send o).host = s.host := rfl
@[simp] theorem State.send_fab (o : Out) : (s.send o).fab = s.fab := rfl
@[simp] theorem State.send_power (o : Out) : (s.send o).power = s.power := rfl
@[simp] theorem State.send_memInfo (o : Out) : (s.send o).memInfo = s.memInfo := rfl
@[simp] theorem State.send_lease (o : Out) : (s.send o).lease = s.lease := rfl
@[simp] theorem State.send_otp (o : Out) : (s.send o).otp = s.otp := rfl
@[simp] theorem State.send_sec (o : Out) : (s.send o).sec = s.sec := rfl
@[simp] theorem State.send_life (o : Out) : (s.send o).life = s.life := rfl
@[simp] theorem State.send_restricted (o : Out) : (s.send o).restricted = s.restricted := rfl
@[simp] theorem State.send_restrictReason (o : Out) : (s.send o).restrictReason = s.restrictReason := rfl
@[simp] theorem State.send_stpIn (o : Out) : (s.send o).stpIn = s.stpIn := rfl
@[simp] theorem State.send_stpMessages (o : Out) : (s.send o).stpMessages = s.stpMessages := rfl
@[simp] theorem State.send_stpWaitMax (o : Out) : (s.send o).stpWaitMax = s.stpWaitMax := rfl
@[simp] theorem State.send_stpYield (o : Out) : (s.send o).stpYield = s.stpYield := rfl
@[simp] theorem State.send_latches (o : Out) : (s.send o).latches = s.latches := rfl
@[simp] theorem State.send_sbLatches (o : Out) : (s.send o).sbLatches = s.sbLatches := rfl
@[simp] theorem State.send_sbPointer (o : Out) : (s.send o).sbPointer = s.sbPointer := rfl
@[simp] theorem State.send_sclk (o : Out) : (s.send o).sclk = s.sclk := rfl
@[simp] theorem State.send_freeCtr (o : Out) : (s.send o).freeCtr = s.freeCtr := rfl
@[simp] theorem State.send_pending (o : Out) : (s.send o).pending = s.pending := rfl

/-! ### `sends` -/

@[simp] theorem State.sends_mem (o : List Out) : (s.sends o).mem = s.mem := rfl
@[simp] theorem State.sends_poison (o : List Out) : (s.sends o).poison = s.poison := rfl
@[simp] theorem State.sends_retired (o : List Out) : (s.sends o).retired = s.retired := rfl
@[simp] theorem State.sends_corrections (o : List Out) : (s.sends o).corrections = s.corrections := rfl
@[simp] theorem State.sends_tiles (o : List Out) : (s.sends o).tiles = s.tiles := rfl
@[simp] theorem State.sends_skips (o : List Out) : (s.sends o).skips = s.skips := rfl
@[simp] theorem State.sends_jobs (o : List Out) : (s.sends o).jobs = s.jobs := rfl
@[simp] theorem State.sends_ctxs (o : List Out) : (s.sends o).ctxs = s.ctxs := rfl
@[simp] theorem State.sends_lastJobs (o : List Out) : (s.sends o).lastJobs = s.lastJobs := rfl
@[simp] theorem State.sends_lastCtxs (o : List Out) : (s.sends o).lastCtxs = s.lastCtxs := rfl
@[simp] theorem State.sends_works (o : List Out) : (s.sends o).works = s.works := rfl
@[simp] theorem State.sends_journal (o : List Out) : (s.sends o).journal = s.journal := rfl
@[simp] theorem State.sends_host (o : List Out) : (s.sends o).host = s.host := rfl
@[simp] theorem State.sends_fab (o : List Out) : (s.sends o).fab = s.fab := rfl
@[simp] theorem State.sends_power (o : List Out) : (s.sends o).power = s.power := rfl
@[simp] theorem State.sends_memInfo (o : List Out) : (s.sends o).memInfo = s.memInfo := rfl
@[simp] theorem State.sends_lease (o : List Out) : (s.sends o).lease = s.lease := rfl
@[simp] theorem State.sends_otp (o : List Out) : (s.sends o).otp = s.otp := rfl
@[simp] theorem State.sends_sec (o : List Out) : (s.sends o).sec = s.sec := rfl
@[simp] theorem State.sends_life (o : List Out) : (s.sends o).life = s.life := rfl
@[simp] theorem State.sends_restricted (o : List Out) : (s.sends o).restricted = s.restricted := rfl
@[simp] theorem State.sends_restrictReason (o : List Out) : (s.sends o).restrictReason = s.restrictReason := rfl
@[simp] theorem State.sends_stpIn (o : List Out) : (s.sends o).stpIn = s.stpIn := rfl
@[simp] theorem State.sends_stpMessages (o : List Out) : (s.sends o).stpMessages = s.stpMessages := rfl
@[simp] theorem State.sends_stpWaitMax (o : List Out) : (s.sends o).stpWaitMax = s.stpWaitMax := rfl
@[simp] theorem State.sends_stpYield (o : List Out) : (s.sends o).stpYield = s.stpYield := rfl
@[simp] theorem State.sends_latches (o : List Out) : (s.sends o).latches = s.latches := rfl
@[simp] theorem State.sends_sbLatches (o : List Out) : (s.sends o).sbLatches = s.sbLatches := rfl
@[simp] theorem State.sends_sbPointer (o : List Out) : (s.sends o).sbPointer = s.sbPointer := rfl
@[simp] theorem State.sends_sclk (o : List Out) : (s.sends o).sclk = s.sclk := rfl
@[simp] theorem State.sends_freeCtr (o : List Out) : (s.sends o).freeCtr = s.freeCtr := rfl
@[simp] theorem State.sends_pending (o : List Out) : (s.sends o).pending = s.pending := rfl

/-! ### `freshen` -/

@[simp] theorem State.freshen_mem : (s.freshen).mem = s.mem := rfl
@[simp] theorem State.freshen_poison : (s.freshen).poison = s.poison := rfl
@[simp] theorem State.freshen_retired : (s.freshen).retired = s.retired := rfl
@[simp] theorem State.freshen_corrections : (s.freshen).corrections = s.corrections := rfl
@[simp] theorem State.freshen_tiles : (s.freshen).tiles = s.tiles := rfl
@[simp] theorem State.freshen_skips : (s.freshen).skips = s.skips := rfl
@[simp] theorem State.freshen_jobs : (s.freshen).jobs = s.jobs := rfl
@[simp] theorem State.freshen_ctxs : (s.freshen).ctxs = s.ctxs := rfl
@[simp] theorem State.freshen_lastJobs : (s.freshen).lastJobs = s.lastJobs := rfl
@[simp] theorem State.freshen_lastCtxs : (s.freshen).lastCtxs = s.lastCtxs := rfl
@[simp] theorem State.freshen_works : (s.freshen).works = s.works := rfl
@[simp] theorem State.freshen_journal : (s.freshen).journal = s.journal := rfl
@[simp] theorem State.freshen_host : (s.freshen).host = s.host := rfl
@[simp] theorem State.freshen_fab : (s.freshen).fab = s.fab := rfl
@[simp] theorem State.freshen_power : (s.freshen).power = s.power := rfl
@[simp] theorem State.freshen_memInfo : (s.freshen).memInfo = s.memInfo := rfl
@[simp] theorem State.freshen_lease : (s.freshen).lease = s.lease := rfl
@[simp] theorem State.freshen_otp : (s.freshen).otp = s.otp := rfl
@[simp] theorem State.freshen_sec : (s.freshen).sec = s.sec := rfl
@[simp] theorem State.freshen_life : (s.freshen).life = s.life := rfl
@[simp] theorem State.freshen_restricted : (s.freshen).restricted = s.restricted := rfl
@[simp] theorem State.freshen_restrictReason : (s.freshen).restrictReason = s.restrictReason := rfl
@[simp] theorem State.freshen_stpIn : (s.freshen).stpIn = s.stpIn := rfl
@[simp] theorem State.freshen_stpMessages : (s.freshen).stpMessages = s.stpMessages := rfl
@[simp] theorem State.freshen_stpWaitMax : (s.freshen).stpWaitMax = s.stpWaitMax := rfl
@[simp] theorem State.freshen_stpYield : (s.freshen).stpYield = s.stpYield := rfl
@[simp] theorem State.freshen_latches : (s.freshen).latches = s.latches := rfl
@[simp] theorem State.freshen_sbLatches : (s.freshen).sbLatches = s.sbLatches := rfl
@[simp] theorem State.freshen_sbPointer : (s.freshen).sbPointer = s.sbPointer := rfl
@[simp] theorem State.freshen_sclk : (s.freshen).sclk = s.sclk := rfl
@[simp] theorem State.freshen_out : (s.freshen).out = s.out := rfl
@[simp] theorem State.freshen_pending : (s.freshen).pending = s.pending := rfl

/-! ### `mark` -/

@[simp] theorem State.mark_mem (u : Nat) : (s.mark u).mem = s.mem := rfl
@[simp] theorem State.mark_retired (u : Nat) : (s.mark u).retired = s.retired := rfl
@[simp] theorem State.mark_corrections (u : Nat) : (s.mark u).corrections = s.corrections := rfl
@[simp] theorem State.mark_tiles (u : Nat) : (s.mark u).tiles = s.tiles := rfl
@[simp] theorem State.mark_skips (u : Nat) : (s.mark u).skips = s.skips := rfl
@[simp] theorem State.mark_jobs (u : Nat) : (s.mark u).jobs = s.jobs := rfl
@[simp] theorem State.mark_ctxs (u : Nat) : (s.mark u).ctxs = s.ctxs := rfl
@[simp] theorem State.mark_lastJobs (u : Nat) : (s.mark u).lastJobs = s.lastJobs := rfl
@[simp] theorem State.mark_lastCtxs (u : Nat) : (s.mark u).lastCtxs = s.lastCtxs := rfl
@[simp] theorem State.mark_works (u : Nat) : (s.mark u).works = s.works := rfl
@[simp] theorem State.mark_journal (u : Nat) : (s.mark u).journal = s.journal := rfl
@[simp] theorem State.mark_host (u : Nat) : (s.mark u).host = s.host := rfl
@[simp] theorem State.mark_fab (u : Nat) : (s.mark u).fab = s.fab := rfl
@[simp] theorem State.mark_power (u : Nat) : (s.mark u).power = s.power := rfl
@[simp] theorem State.mark_memInfo (u : Nat) : (s.mark u).memInfo = s.memInfo := rfl
@[simp] theorem State.mark_lease (u : Nat) : (s.mark u).lease = s.lease := rfl
@[simp] theorem State.mark_otp (u : Nat) : (s.mark u).otp = s.otp := rfl
@[simp] theorem State.mark_sec (u : Nat) : (s.mark u).sec = s.sec := rfl
@[simp] theorem State.mark_life (u : Nat) : (s.mark u).life = s.life := rfl
@[simp] theorem State.mark_restricted (u : Nat) : (s.mark u).restricted = s.restricted := rfl
@[simp] theorem State.mark_restrictReason (u : Nat) : (s.mark u).restrictReason = s.restrictReason := rfl
@[simp] theorem State.mark_stpIn (u : Nat) : (s.mark u).stpIn = s.stpIn := rfl
@[simp] theorem State.mark_stpMessages (u : Nat) : (s.mark u).stpMessages = s.stpMessages := rfl
@[simp] theorem State.mark_stpWaitMax (u : Nat) : (s.mark u).stpWaitMax = s.stpWaitMax := rfl
@[simp] theorem State.mark_stpYield (u : Nat) : (s.mark u).stpYield = s.stpYield := rfl
@[simp] theorem State.mark_latches (u : Nat) : (s.mark u).latches = s.latches := rfl
@[simp] theorem State.mark_sbLatches (u : Nat) : (s.mark u).sbLatches = s.sbLatches := rfl
@[simp] theorem State.mark_sbPointer (u : Nat) : (s.mark u).sbPointer = s.sbPointer := rfl
@[simp] theorem State.mark_sclk (u : Nat) : (s.mark u).sclk = s.sclk := rfl
@[simp] theorem State.mark_out (u : Nat) : (s.mark u).out = s.out := rfl
@[simp] theorem State.mark_freeCtr (u : Nat) : (s.mark u).freeCtr = s.freeCtr := rfl
@[simp] theorem State.mark_pending (u : Nat) : (s.mark u).pending = s.pending := rfl

/-! ### `hostCount` -/

@[simp] theorem State.hostCount_mem (i : Nat) : (s.hostCount i).mem = s.mem := rfl
@[simp] theorem State.hostCount_poison (i : Nat) : (s.hostCount i).poison = s.poison := rfl
@[simp] theorem State.hostCount_retired (i : Nat) : (s.hostCount i).retired = s.retired := rfl
@[simp] theorem State.hostCount_corrections (i : Nat) : (s.hostCount i).corrections = s.corrections := rfl
@[simp] theorem State.hostCount_tiles (i : Nat) : (s.hostCount i).tiles = s.tiles := rfl
@[simp] theorem State.hostCount_skips (i : Nat) : (s.hostCount i).skips = s.skips := rfl
@[simp] theorem State.hostCount_jobs (i : Nat) : (s.hostCount i).jobs = s.jobs := rfl
@[simp] theorem State.hostCount_ctxs (i : Nat) : (s.hostCount i).ctxs = s.ctxs := rfl
@[simp] theorem State.hostCount_lastJobs (i : Nat) : (s.hostCount i).lastJobs = s.lastJobs := rfl
@[simp] theorem State.hostCount_lastCtxs (i : Nat) : (s.hostCount i).lastCtxs = s.lastCtxs := rfl
@[simp] theorem State.hostCount_works (i : Nat) : (s.hostCount i).works = s.works := rfl
@[simp] theorem State.hostCount_journal (i : Nat) : (s.hostCount i).journal = s.journal := rfl
@[simp] theorem State.hostCount_fab (i : Nat) : (s.hostCount i).fab = s.fab := rfl
@[simp] theorem State.hostCount_power (i : Nat) : (s.hostCount i).power = s.power := rfl
@[simp] theorem State.hostCount_memInfo (i : Nat) : (s.hostCount i).memInfo = s.memInfo := rfl
@[simp] theorem State.hostCount_lease (i : Nat) : (s.hostCount i).lease = s.lease := rfl
@[simp] theorem State.hostCount_otp (i : Nat) : (s.hostCount i).otp = s.otp := rfl
@[simp] theorem State.hostCount_sec (i : Nat) : (s.hostCount i).sec = s.sec := rfl
@[simp] theorem State.hostCount_life (i : Nat) : (s.hostCount i).life = s.life := rfl
@[simp] theorem State.hostCount_restricted (i : Nat) : (s.hostCount i).restricted = s.restricted := rfl
@[simp] theorem State.hostCount_restrictReason (i : Nat) : (s.hostCount i).restrictReason = s.restrictReason := rfl
@[simp] theorem State.hostCount_stpIn (i : Nat) : (s.hostCount i).stpIn = s.stpIn := rfl
@[simp] theorem State.hostCount_stpMessages (i : Nat) : (s.hostCount i).stpMessages = s.stpMessages := rfl
@[simp] theorem State.hostCount_stpWaitMax (i : Nat) : (s.hostCount i).stpWaitMax = s.stpWaitMax := rfl
@[simp] theorem State.hostCount_stpYield (i : Nat) : (s.hostCount i).stpYield = s.stpYield := rfl
@[simp] theorem State.hostCount_latches (i : Nat) : (s.hostCount i).latches = s.latches := rfl
@[simp] theorem State.hostCount_sbLatches (i : Nat) : (s.hostCount i).sbLatches = s.sbLatches := rfl
@[simp] theorem State.hostCount_sbPointer (i : Nat) : (s.hostCount i).sbPointer = s.sbPointer := rfl
@[simp] theorem State.hostCount_sclk (i : Nat) : (s.hostCount i).sclk = s.sclk := rfl
@[simp] theorem State.hostCount_out (i : Nat) : (s.hostCount i).out = s.out := rfl
@[simp] theorem State.hostCount_freeCtr (i : Nat) : (s.hostCount i).freeCtr = s.freeCtr := rfl
@[simp] theorem State.hostCount_pending (i : Nat) : (s.hostCount i).pending = s.pending := rfl
@[simp] theorem State.hostCount_host_mode (i : Nat) : (s.hostCount i).host.mode = s.host.mode := rfl
@[simp] theorem State.hostCount_host_mtu (i : Nat) : (s.hostCount i).host.mtu = s.host.mtu := rfl
@[simp] theorem State.hostCount_host_vlanEn (i : Nat) : (s.hostCount i).host.vlanEn = s.host.vlanEn := rfl
@[simp] theorem State.hostCount_host_pfcEn (i : Nat) : (s.hostCount i).host.pfcEn = s.host.pfcEn := rfl
@[simp] theorem State.hostCount_host_pfcPrio (i : Nat) : (s.hostCount i).host.pfcPrio = s.host.pfcPrio := rfl
@[simp] theorem State.hostCount_host_pcp (i : Nat) : (s.hostCount i).host.pcp = s.host.pcp := rfl
@[simp] theorem State.hostCount_host_vid (i : Nat) : (s.hostCount i).host.vid = s.host.vid := rfl
@[simp] theorem State.hostCount_host_state (i : Nat) : (s.hostCount i).host.state = s.host.state := rfl
@[simp] theorem State.hostCount_host_modeActive (i : Nat) : (s.hostCount i).host.modeActive = s.host.modeActive := rfl
@[simp] theorem State.hostCount_host_locked (i : Nat) : (s.hostCount i).host.locked = s.host.locked := rfl
@[simp] theorem State.hostCount_host_mac (i : Nat) : (s.hostCount i).host.mac = s.host.mac := rfl
@[simp] theorem State.hostCount_host_ipv4 (i : Nat) : (s.hostCount i).host.ipv4 = s.host.ipv4 := rfl
@[simp] theorem State.hostCount_host_ipv6 (i : Nat) : (s.hostCount i).host.ipv6 = s.host.ipv6 := rfl
@[simp] theorem State.hostCount_host_permit (i : Nat) : (s.hostCount i).host.permit = s.host.permit := rfl
@[simp] theorem State.hostCount_host_pausedUntil (i : Nat) : (s.hostCount i).host.pausedUntil = s.host.pausedUntil := rfl
@[simp] theorem State.hostCount_host_txHeld (i : Nat) : (s.hostCount i).host.txHeld = s.host.txHeld := rfl
@[simp] theorem State.hostCount_host_rxHigh (i : Nat) : (s.hostCount i).host.rxHigh = s.host.rxHigh := rfl
@[simp] theorem State.hostCount_host_queued (i : Nat) : (s.hostCount i).host.queued = s.host.queued := rfl
@[simp] theorem State.hostCount_host_icmpSent (i : Nat) : (s.hostCount i).host.icmpSent = s.host.icmpSent := rfl
@[simp] theorem State.hostCount_host_icmpAt (i : Nat) : (s.hostCount i).host.icmpAt = s.host.icmpAt := rfl
@[simp] theorem State.hostCount_host_next (i : Nat) : (s.hostCount i).host.next = s.host.next := rfl
@[simp] theorem State.hostCount_host_held (i : Nat) : (s.hostCount i).host.held = s.host.held := rfl
@[simp] theorem State.hostCount_host_qps (i : Nat) : (s.hostCount i).host.qps = s.host.qps := rfl
@[simp] theorem State.hostCount_host_xfers (i : Nat) : (s.hostCount i).host.xfers = s.host.xfers := rfl

/-! ### `tx` -/

@[simp] theorem State.tx_mem (o : Frame) : (s.tx o).mem = s.mem := rfl
@[simp] theorem State.tx_poison (o : Frame) : (s.tx o).poison = s.poison := rfl
@[simp] theorem State.tx_retired (o : Frame) : (s.tx o).retired = s.retired := rfl
@[simp] theorem State.tx_corrections (o : Frame) : (s.tx o).corrections = s.corrections := rfl
@[simp] theorem State.tx_tiles (o : Frame) : (s.tx o).tiles = s.tiles := rfl
@[simp] theorem State.tx_skips (o : Frame) : (s.tx o).skips = s.skips := rfl
@[simp] theorem State.tx_jobs (o : Frame) : (s.tx o).jobs = s.jobs := rfl
@[simp] theorem State.tx_ctxs (o : Frame) : (s.tx o).ctxs = s.ctxs := rfl
@[simp] theorem State.tx_lastJobs (o : Frame) : (s.tx o).lastJobs = s.lastJobs := rfl
@[simp] theorem State.tx_lastCtxs (o : Frame) : (s.tx o).lastCtxs = s.lastCtxs := rfl
@[simp] theorem State.tx_works (o : Frame) : (s.tx o).works = s.works := rfl
@[simp] theorem State.tx_journal (o : Frame) : (s.tx o).journal = s.journal := rfl
@[simp] theorem State.tx_fab (o : Frame) : (s.tx o).fab = s.fab := rfl
@[simp] theorem State.tx_power (o : Frame) : (s.tx o).power = s.power := rfl
@[simp] theorem State.tx_memInfo (o : Frame) : (s.tx o).memInfo = s.memInfo := rfl
@[simp] theorem State.tx_lease (o : Frame) : (s.tx o).lease = s.lease := rfl
@[simp] theorem State.tx_otp (o : Frame) : (s.tx o).otp = s.otp := rfl
@[simp] theorem State.tx_sec (o : Frame) : (s.tx o).sec = s.sec := rfl
@[simp] theorem State.tx_life (o : Frame) : (s.tx o).life = s.life := rfl
@[simp] theorem State.tx_restricted (o : Frame) : (s.tx o).restricted = s.restricted := rfl
@[simp] theorem State.tx_restrictReason (o : Frame) : (s.tx o).restrictReason = s.restrictReason := rfl
@[simp] theorem State.tx_stpIn (o : Frame) : (s.tx o).stpIn = s.stpIn := rfl
@[simp] theorem State.tx_stpMessages (o : Frame) : (s.tx o).stpMessages = s.stpMessages := rfl
@[simp] theorem State.tx_stpWaitMax (o : Frame) : (s.tx o).stpWaitMax = s.stpWaitMax := rfl
@[simp] theorem State.tx_stpYield (o : Frame) : (s.tx o).stpYield = s.stpYield := rfl
@[simp] theorem State.tx_latches (o : Frame) : (s.tx o).latches = s.latches := rfl
@[simp] theorem State.tx_sbLatches (o : Frame) : (s.tx o).sbLatches = s.sbLatches := rfl
@[simp] theorem State.tx_sbPointer (o : Frame) : (s.tx o).sbPointer = s.sbPointer := rfl
@[simp] theorem State.tx_sclk (o : Frame) : (s.tx o).sclk = s.sclk := rfl
@[simp] theorem State.tx_freeCtr (o : Frame) : (s.tx o).freeCtr = s.freeCtr := rfl
@[simp] theorem State.tx_pending (o : Frame) : (s.tx o).pending = s.pending := rfl
@[simp] theorem State.tx_host_mode (o : Frame) : (s.tx o).host.mode = s.host.mode := rfl
@[simp] theorem State.tx_host_mtu (o : Frame) : (s.tx o).host.mtu = s.host.mtu := rfl
@[simp] theorem State.tx_host_vlanEn (o : Frame) : (s.tx o).host.vlanEn = s.host.vlanEn := rfl
@[simp] theorem State.tx_host_pfcEn (o : Frame) : (s.tx o).host.pfcEn = s.host.pfcEn := rfl
@[simp] theorem State.tx_host_pfcPrio (o : Frame) : (s.tx o).host.pfcPrio = s.host.pfcPrio := rfl
@[simp] theorem State.tx_host_pcp (o : Frame) : (s.tx o).host.pcp = s.host.pcp := rfl
@[simp] theorem State.tx_host_vid (o : Frame) : (s.tx o).host.vid = s.host.vid := rfl
@[simp] theorem State.tx_host_state (o : Frame) : (s.tx o).host.state = s.host.state := rfl
@[simp] theorem State.tx_host_modeActive (o : Frame) : (s.tx o).host.modeActive = s.host.modeActive := rfl
@[simp] theorem State.tx_host_locked (o : Frame) : (s.tx o).host.locked = s.host.locked := rfl
@[simp] theorem State.tx_host_mac (o : Frame) : (s.tx o).host.mac = s.host.mac := rfl
@[simp] theorem State.tx_host_ipv4 (o : Frame) : (s.tx o).host.ipv4 = s.host.ipv4 := rfl
@[simp] theorem State.tx_host_ipv6 (o : Frame) : (s.tx o).host.ipv6 = s.host.ipv6 := rfl
@[simp] theorem State.tx_host_permit (o : Frame) : (s.tx o).host.permit = s.host.permit := rfl
@[simp] theorem State.tx_host_pausedUntil (o : Frame) : (s.tx o).host.pausedUntil = s.host.pausedUntil := rfl
@[simp] theorem State.tx_host_rxHigh (o : Frame) : (s.tx o).host.rxHigh = s.host.rxHigh := rfl
@[simp] theorem State.tx_host_queued (o : Frame) : (s.tx o).host.queued = s.host.queued := rfl
@[simp] theorem State.tx_host_icmpSent (o : Frame) : (s.tx o).host.icmpSent = s.host.icmpSent := rfl
@[simp] theorem State.tx_host_icmpAt (o : Frame) : (s.tx o).host.icmpAt = s.host.icmpAt := rfl
@[simp] theorem State.tx_host_next (o : Frame) : (s.tx o).host.next = s.host.next := rfl
@[simp] theorem State.tx_host_held (o : Frame) : (s.tx o).host.held = s.host.held := rfl
@[simp] theorem State.tx_host_qps (o : Frame) : (s.tx o).host.qps = s.host.qps := rfl
@[simp] theorem State.tx_host_xfers (o : Frame) : (s.tx o).host.xfers = s.host.xfers := rfl

/-! ### What is read back -/

theorem State.tile_setTile_eq (n m : Nat) (x : Tile) : (s.setTile n x).tile m = if m = n then x else s.tile m := lookup_store _ _ _ _ _

@[simp] theorem State.tile_setTile_same (n : Nat) (x : Tile) : (s.setTile n x).tile n = x := lookup_store_same _ _ _ _

theorem State.skip_setSkip_eq (n m : Nat) (x : Skip) : (s.setSkip n x).skip m = if m = n then x else s.skip m := lookup_store _ _ _ _ _

@[simp] theorem State.skip_setSkip_same (n : Nat) (x : Skip) : (s.setSkip n x).skip n = x := lookup_store_same _ _ _ _

theorem State.job_setJob_eq (n m : Nat) (x : Option Job) : (s.setJob n x).job m = if m = n then x else s.job m := lookup_store _ _ _ _ _

@[simp] theorem State.job_setJob_same (n : Nat) (x : Option Job) : (s.setJob n x).job n = x := lookup_store_same _ _ _ _

theorem State.ctx_setCtx_eq (n m : Nat) (x : Option Ctx) : (s.setCtx n x).ctx m = if m = n then x else s.ctx m := lookup_store _ _ _ _ _

@[simp] theorem State.ctx_setCtx_same (n : Nat) (x : Option Ctx) : (s.setCtx n x).ctx n = x := lookup_store_same _ _ _ _

theorem State.qp_setQp_eq (n m : Nat) (x : Qp) : (s.setQp n x).qp m = if m = n then x else s.qp m := lookup_store _ _ _ _ _

@[simp] theorem State.qp_setQp_same (n : Nat) (x : Qp) : (s.setQp n x).qp n = x := lookup_store_same _ _ _ _

theorem State.xfer_setXfer_eq (n m : Nat) (x : Xfer) : (s.setXfer n x).xfer m = if m = n then x else s.xfer m := lookup_store _ _ _ _ _

@[simp] theorem State.xfer_setXfer_same (n : Nat) (x : Xfer) : (s.setXfer n x).xfer n = x := lookup_store_same _ _ _ _

theorem State.port_setPort_eq (n m : Nat) (x : Port) : (s.setPort n x).port m = if m = n then x else s.port m := lookup_store _ _ _ _ _

@[simp] theorem State.port_setPort_same (n : Nat) (x : Port) : (s.setPort n x).port n = x := lookup_store_same _ _ _ _

theorem State.paddock_setPaddock_eq (n m : Nat) (x : Paddock) : (s.setPaddock n x).paddock m = if m = n then x else s.paddock m := lookup_store _ _ _ _ _

@[simp] theorem State.paddock_setPaddock_same (n : Nat) (x : Paddock) : (s.setPaddock n x).paddock n = x := lookup_store_same _ _ _ _

theorem State.slot_setSlot_eq (n m : Nat) (x : Slot) : (s.setSlot n x).slot m = if m = n then x else s.slot m := lookup_store _ _ _ _ _

@[simp] theorem State.slot_setSlot_same (n : Nat) (x : Slot) : (s.setSlot n x).slot n = x := lookup_store_same _ _ _ _

theorem State.modTile_eq (n : Nat) (f : Tile → Tile) : s.modTile n f = s.setTile n (f (s.tile n)) := rfl

theorem State.modSkip_eq (n : Nat) (f : Skip → Skip) : s.modSkip n f = s.setSkip n (f (s.skip n)) := rfl

theorem State.modJob_eq (n : Nat) (f : Job → Job) : s.modJob n f = s.setJob n ((s.job n).map f) := rfl

theorem State.modCtx_eq (n : Nat) (f : Ctx → Ctx) : s.modCtx n f = s.setCtx n ((s.ctx n).map f) := rfl

theorem State.modQp_eq (n : Nat) (f : Qp → Qp) : s.modQp n f = s.setQp n (f (s.qp n)) := rfl

theorem State.modXfer_eq (n : Nat) (f : Xfer → Xfer) : s.modXfer n f = s.setXfer n (f (s.xfer n)) := rfl

theorem State.modPort_eq (n : Nat) (f : Port → Port) : s.modPort n f = s.setPort n (f (s.port n)) := rfl

theorem State.modPaddock_eq (n : Nat) (f : Paddock → Paddock) : s.modPaddock n f = s.setPaddock n (f (s.paddock n)) := rfl

@[simp] theorem State.setSkip_read_tile (n : Nat) (k : Skip) (m : Nat) : (s.setSkip n k).tile m = s.tile m := rfl
@[simp] theorem State.setJob_read_tile (n : Nat) (j : Option Job) (m : Nat) : (s.setJob n j).tile m = s.tile m := rfl
@[simp] theorem State.setCtx_read_tile (n : Nat) (k : Option Ctx) (m : Nat) : (s.setCtx n k).tile m = s.tile m := rfl
@[simp] theorem State.setQp_read_tile (n : Nat) (q : Qp) (m : Nat) : (s.setQp n q).tile m = s.tile m := rfl
@[simp] theorem State.setXfer_read_tile (n : Nat) (x : Xfer) (m : Nat) : (s.setXfer n x).tile m = s.tile m := rfl
@[simp] theorem State.setPort_read_tile (n : Nat) (x : Port) (m : Nat) : (s.setPort n x).tile m = s.tile m := rfl
@[simp] theorem State.setPaddock_read_tile (n : Nat) (x : Paddock) (m : Nat) : (s.setPaddock n x).tile m = s.tile m := rfl
@[simp] theorem State.setSlot_read_tile (n : Nat) (x : Slot) (m : Nat) : (s.setSlot n x).tile m = s.tile m := rfl
@[simp] theorem State.send_read_tile (o : Out) (m : Nat) : (s.send o).tile m = s.tile m := rfl
@[simp] theorem State.hostCount_read_tile (i : Nat) (m : Nat) : (s.hostCount i).tile m = s.tile m := rfl
@[simp] theorem State.tx_read_tile (o : Frame) (m : Nat) : (s.tx o).tile m = s.tile m := rfl
@[simp] theorem State.freshen_read_tile  (m : Nat) : (s.freshen).tile m = s.tile m := rfl

@[simp] theorem State.setTile_read_qp (n : Nat) (t : Tile) (m : Nat) : (s.setTile n t).qp m = s.qp m := rfl
@[simp] theorem State.setXfer_read_qp (n : Nat) (x : Xfer) (m : Nat) : (s.setXfer n x).qp m = s.qp m := rfl
@[simp] theorem State.setPort_read_qp (n : Nat) (x : Port) (m : Nat) : (s.setPort n x).qp m = s.qp m := rfl
@[simp] theorem State.hostCount_read_qp (i : Nat) (m : Nat) : (s.hostCount i).qp m = s.qp m := rfl
@[simp] theorem State.tx_read_qp (o : Frame) (m : Nat) : (s.tx o).qp m = s.qp m := rfl
@[simp] theorem State.setSlot_read_qp (n : Nat) (x : Slot) (m : Nat) : (s.setSlot n x).qp m = s.qp m := rfl
@[simp] theorem State.send_read_qp (o : Out) (m : Nat) : (s.send o).qp m = s.qp m := rfl
@[simp] theorem State.setJob_read_qp (n : Nat) (j : Option Job) (m : Nat) : (s.setJob n j).qp m = s.qp m := rfl
@[simp] theorem State.setCtx_read_qp (n : Nat) (k : Option Ctx) (m : Nat) : (s.setCtx n k).qp m = s.qp m := rfl

@[simp] theorem State.setTile_read_xfer (n : Nat) (t : Tile) (m : Nat) : (s.setTile n t).xfer m = s.xfer m := rfl
@[simp] theorem State.setQp_read_xfer (n : Nat) (q : Qp) (m : Nat) : (s.setQp n q).xfer m = s.xfer m := rfl
@[simp] theorem State.setPort_read_xfer (n : Nat) (x : Port) (m : Nat) : (s.setPort n x).xfer m = s.xfer m := rfl
@[simp] theorem State.hostCount_read_xfer (i : Nat) (m : Nat) : (s.hostCount i).xfer m = s.xfer m := rfl
@[simp] theorem State.tx_read_xfer (o : Frame) (m : Nat) : (s.tx o).xfer m = s.xfer m := rfl
@[simp] theorem State.setSlot_read_xfer (n : Nat) (x : Slot) (m : Nat) : (s.setSlot n x).xfer m = s.xfer m := rfl
@[simp] theorem State.send_read_xfer (o : Out) (m : Nat) : (s.send o).xfer m = s.xfer m := rfl
@[simp] theorem State.setJob_read_xfer (n : Nat) (j : Option Job) (m : Nat) : (s.setJob n j).xfer m = s.xfer m := rfl
@[simp] theorem State.setCtx_read_xfer (n : Nat) (k : Option Ctx) (m : Nat) : (s.setCtx n k).xfer m = s.xfer m := rfl

@[simp] theorem State.setTile_read_port (n : Nat) (t : Tile) (m : Nat) : (s.setTile n t).port m = s.port m := rfl
@[simp] theorem State.setQp_read_port (n : Nat) (q : Qp) (m : Nat) : (s.setQp n q).port m = s.port m := rfl
@[simp] theorem State.setXfer_read_port (n : Nat) (x : Xfer) (m : Nat) : (s.setXfer n x).port m = s.port m := rfl
@[simp] theorem State.hostCount_read_port (i : Nat) (m : Nat) : (s.hostCount i).port m = s.port m := rfl
@[simp] theorem State.tx_read_port (o : Frame) (m : Nat) : (s.tx o).port m = s.port m := rfl
@[simp] theorem State.setSlot_read_port (n : Nat) (x : Slot) (m : Nat) : (s.setSlot n x).port m = s.port m := rfl
@[simp] theorem State.send_read_port (o : Out) (m : Nat) : (s.send o).port m = s.port m := rfl
@[simp] theorem State.sends_read_port (o : List Out) (m : Nat) : (s.sends o).port m = s.port m := rfl
@[simp] theorem State.setJob_read_port (n : Nat) (j : Option Job) (m : Nat) : (s.setJob n j).port m = s.port m := rfl
@[simp] theorem State.setCtx_read_port (n : Nat) (k : Option Ctx) (m : Nat) : (s.setCtx n k).port m = s.port m := rfl

@[simp] theorem State.setTile_read_job (n : Nat) (t : Tile) (m : Nat) : (s.setTile n t).job m = s.job m := rfl
@[simp] theorem State.setSkip_read_job (n : Nat) (k : Skip) (m : Nat) : (s.setSkip n k).job m = s.job m := rfl
@[simp] theorem State.setCtx_read_job (n : Nat) (k : Option Ctx) (m : Nat) : (s.setCtx n k).job m = s.job m := rfl
@[simp] theorem State.setQp_read_job (n : Nat) (q : Qp) (m : Nat) : (s.setQp n q).job m = s.job m := rfl
@[simp] theorem State.setXfer_read_job (n : Nat) (x : Xfer) (m : Nat) : (s.setXfer n x).job m = s.job m := rfl
@[simp] theorem State.setPort_read_job (n : Nat) (x : Port) (m : Nat) : (s.setPort n x).job m = s.job m := rfl
@[simp] theorem State.setPaddock_read_job (n : Nat) (x : Paddock) (m : Nat) : (s.setPaddock n x).job m = s.job m := rfl
@[simp] theorem State.setSlot_read_job (n : Nat) (x : Slot) (m : Nat) : (s.setSlot n x).job m = s.job m := rfl
@[simp] theorem State.send_read_job (o : Out) (m : Nat) : (s.send o).job m = s.job m := rfl
@[simp] theorem State.hostCount_read_job (i : Nat) (m : Nat) : (s.hostCount i).job m = s.job m := rfl
@[simp] theorem State.tx_read_job (o : Frame) (m : Nat) : (s.tx o).job m = s.job m := rfl
@[simp] theorem State.freshen_read_job  (m : Nat) : (s.freshen).job m = s.job m := rfl
@[simp] theorem State.modWork_read_job (q : Nat) (f : Work → Work) (m : Nat) : (s.modWork q f).job m = s.job m := rfl

@[simp] theorem State.setTile_read_ctx (n : Nat) (t : Tile) (m : Nat) : (s.setTile n t).ctx m = s.ctx m := rfl
@[simp] theorem State.setSkip_read_ctx (n : Nat) (k : Skip) (m : Nat) : (s.setSkip n k).ctx m = s.ctx m := rfl
@[simp] theorem State.setJob_read_ctx (n : Nat) (j : Option Job) (m : Nat) : (s.setJob n j).ctx m = s.ctx m := rfl
@[simp] theorem State.setQp_read_ctx (n : Nat) (q : Qp) (m : Nat) : (s.setQp n q).ctx m = s.ctx m := rfl
@[simp] theorem State.setXfer_read_ctx (n : Nat) (x : Xfer) (m : Nat) : (s.setXfer n x).ctx m = s.ctx m := rfl
@[simp] theorem State.setPort_read_ctx (n : Nat) (x : Port) (m : Nat) : (s.setPort n x).ctx m = s.ctx m := rfl
@[simp] theorem State.setPaddock_read_ctx (n : Nat) (x : Paddock) (m : Nat) : (s.setPaddock n x).ctx m = s.ctx m := rfl
@[simp] theorem State.setSlot_read_ctx (n : Nat) (x : Slot) (m : Nat) : (s.setSlot n x).ctx m = s.ctx m := rfl
@[simp] theorem State.send_read_ctx (o : Out) (m : Nat) : (s.send o).ctx m = s.ctx m := rfl
@[simp] theorem State.hostCount_read_ctx (i : Nat) (m : Nat) : (s.hostCount i).ctx m = s.ctx m := rfl
@[simp] theorem State.tx_read_ctx (o : Frame) (m : Nat) : (s.tx o).ctx m = s.ctx m := rfl
@[simp] theorem State.freshen_read_ctx  (m : Nat) : (s.freshen).ctx m = s.ctx m := rfl
@[simp] theorem State.modWork_read_ctx (q : Nat) (f : Work → Work) (m : Nat) : (s.modWork q f).ctx m = s.ctx m := rfl

@[simp] theorem State.setTile_read_byte (n : Nat) (t : Tile) (m : Nat) : (s.setTile n t).byte m = s.byte m := rfl
@[simp] theorem State.setSkip_read_byte (n : Nat) (k : Skip) (m : Nat) : (s.setSkip n k).byte m = s.byte m := rfl
@[simp] theorem State.setJob_read_byte (n : Nat) (j : Option Job) (m : Nat) : (s.setJob n j).byte m = s.byte m := rfl
@[simp] theorem State.setCtx_read_byte (n : Nat) (k : Option Ctx) (m : Nat) : (s.setCtx n k).byte m = s.byte m := rfl
@[simp] theorem State.setQp_read_byte (n : Nat) (q : Qp) (m : Nat) : (s.setQp n q).byte m = s.byte m := rfl
@[simp] theorem State.setXfer_read_byte (n : Nat) (x : Xfer) (m : Nat) : (s.setXfer n x).byte m = s.byte m := rfl
@[simp] theorem State.setPort_read_byte (n : Nat) (x : Port) (m : Nat) : (s.setPort n x).byte m = s.byte m := rfl
@[simp] theorem State.setPaddock_read_byte (n : Nat) (x : Paddock) (m : Nat) : (s.setPaddock n x).byte m = s.byte m := rfl
@[simp] theorem State.setSlot_read_byte (n : Nat) (x : Slot) (m : Nat) : (s.setSlot n x).byte m = s.byte m := rfl
@[simp] theorem State.send_read_byte (o : Out) (m : Nat) : (s.send o).byte m = s.byte m := rfl
@[simp] theorem State.sends_read_byte (o : List Out) (m : Nat) : (s.sends o).byte m = s.byte m := rfl
@[simp] theorem State.hostCount_read_byte (i : Nat) (m : Nat) : (s.hostCount i).byte m = s.byte m := rfl
@[simp] theorem State.tx_read_byte (o : Frame) (m : Nat) : (s.tx o).byte m = s.byte m := rfl
@[simp] theorem State.freshen_read_byte  (m : Nat) : (s.freshen).byte m = s.byte m := rfl
@[simp] theorem State.modWork_read_byte (q : Nat) (f : Work → Work) (m : Nat) : (s.modWork q f).byte m = s.byte m := rfl
@[simp] theorem State.mark_read_byte (u : Nat) (m : Nat) : (s.mark u).byte m = s.byte m := rfl

end Sys2Proof.Machine
end

