-- ==== Sys2Proof/Laws/Submit.lean ====
section
/-! SUPPORT. What the host port does with a Woror command in its turn and with a RoCEv2 packet in its order: one equation for
each, so that no proof unfolds the way there. -/

namespace Sys2Proof.Machine

/-- The mark of the receive buffer changes with what the port counts and sends, and nothing else. -/
theorem State.rxFills_eq (s : State) (b : RxFill) : ∃ c o, s.rxFills b =
    { s with host := { s.host with counts := c, rxHigh := b != .room }, out := o } := by
  refine ⟨(s.rxFills b).host.counts, (s.rxFills b).out, ?_⟩
  unfold State.rxFills
  dsimp only
  split <;> rfl

/-- What counting a frame changes: the port's counts, its buffer mark, and what the device sends. -/
theorem State.frameCounted_eq (s : State) (a : Arrival) : ∃ c o, s.frameCounted a =
    { s with host := { s.host with counts := c, rxHigh := a.buffer != .room }, out := o } := by
  obtain ⟨c, o, e⟩ := ((s.hostCount hcFRAMES_RX).hostCounts hcFEC_CORR a.corrected).rxFills_eq a.buffer
  refine ⟨c, o, ?_⟩
  unfold State.frameCounted
  rw [e]
  unfold State.hostCounts State.hostCount
  rfl

/-- A frame that the port takes. -/
theorem frameIn_goes {s : State} {a : Arrival} {len room : Nat} (up : s.hostUp = true) (buffer : a.buffer ≠ .full)
    (fits : len ≤ room) (tag : s.host.tagOk a.tags = true) (f : State → State) : s.frameIn a len room f = f (s.frameCounted a) := by
  obtain ⟨c, o, e⟩ := s.frameCounted_eq a
  have tag' : (s.frameCounted a).host.tagOk a.tags = true := by rw [e]; exact tag
  unfold State.frameIn
  simp [up, buffer, Nat.not_lt.2 fits, tag']

theorem frameIn_taken {s : State} {a : Arrival} {len : Nat} {dst : IpAddr} (h : Taken s a len dst) (f : State → State) :
    s.frameIn a len (s.host.udpRoom dst) f = f (s.frameCounted a) := frameIn_goes h.up h.buffer h.fits h.tag f

/-- While the port is not up, no frame changes anything (R344). -/
theorem frameIn_down {s : State} (h : s.hostUp = false) (a : Arrival) (len room : Nat) (f : State → State) : s.frameIn a len room f = s := by
  unfold State.frameIn
  rw [h]; rfl

/-- A datagram to the Woror port that MC0 takes in. -/
theorem arrives_taken {s : State} {a : Arrival} {src dst : IpAddr} {len : Nat} (h : Taken s a len dst) (running : s.sec.stage = 4)
    (addressed : s.host.accepts src dst = true) (f : State → State) : s.arrives a src dst len f = f (s.frameCounted a) := by
  obtain ⟨c, o, e⟩ := s.frameCounted_eq a
  have run' : ¬ ((s.frameCounted a).sec.stage ≠ 4 ∨ (!(s.frameCounted a).host.accepts src dst) = true) := by
    rw [e]
    rintro (x | x)
    · exact x running
    · change (!s.host.accepts src dst) = true at x
      rw [addressed] at x; cases x
  unfold State.arrives
  rw [frameIn_taken h, if_neg run']

/-- A command in its turn: MC0 takes it, and those held behind it. -/
theorem submit_inTurn {s : State} {op : Nat} {p : Packet} (h : InTurn s p) :
    s.submit op p = (((s.received p).take op p).drain 65).flushReplies := by
  obtain ⟨udp, frame, room, running, addressed, flags, inTurn, free⟩ := h
  obtain ⟨c, o, e⟩ := s.frameCounted_eq p.frame
  have f1 : p.wflags.toNat &&& 0xF9 = 0 := by rcases flags with f | f <;> rw [f] <;> rfl
  have f2 : bit p.wflags.toNat 1 = false := by rcases flags with f | f <;> rw [f] <;> rfl
  have room' : ((s.frameCounted p.frame).hostCount hcWOROR_RX).host.queued - p.taken < 256 := by rw [e]; exact room
  have a0 : ahead p.seq (s.received p).host.next = 0 := by
    have x : (s.received p).host.next = s.host.next := by unfold State.received; rw [e]; rfl
    rw [x, inTurn]; simp [ahead]
  have free' : (s.received p).slotBusy p.seq.toNat = false := by unfold State.received; rw [e]; exact free
  unfold State.submit
  rw [udp]
  dsimp only
  rw [arrives_taken frame running addressed]
  unfold State.woror
  simp only [f1, f2, room', decide_true, Bool.not_true, Bool.false_eq_true, if_false, ne_eq, not_true_eq_false]
  change (State.sequenced (s.received p) op p).flushReplies = _
  unfold State.sequenced
  simp only [a0, State.next, free']
  rfl

/-- A command that a check of R371 refuses. -/
theorem submit_refused {s : State} {op : Nat} {p : Packet} (h : InTurn s p)
    (c : commandStatus (s.received p) op p.job.toNat p.ctx.toNat p.params ≠ 0) :
    s.submit op p = s.refused op p (commandStatus (s.received p) op p.job.toNat p.ctx.toNat p.params) := by
  rw [submit_inTurn h]
  unfold State.take
  dsimp only
  rw [if_pos c]
  unfold State.journalRefusal State.refused
  rcases scopeOf op with _ | _ | _ | _ <;> rfl

/-- A command that no check refuses. -/
theorem submit_acceptable {s : State} {op : Nat} {p : Packet} (h : Acceptable s op p) :
    s.submit op p =
      (let ctx := if op = opcSTREAM_ARM then le p.params 3 1 else p.ctx.toNat
       let t := (s.accepted op p ctx (queueOf op p)).readChecks op p
       let r := t.effect op p.job.toNat p.ctx.toNat p.seq.toNat (t.stepOf p.seq.toNat) p.params
       r.1.answered op p r.2) := by
  rw [submit_inTurn h.turn]
  unfold State.take
  dsimp only
  rw [if_neg (fun e => e h.checks)]
  rfl

theorem sendCnp_epsn (s : State) (i : Nat) : ((s.sendCnp i).qp i).epsn = (s.qp i).epsn := by
  unfold State.sendCnp
  split <;> dsimp only <;> split <;> simp [State.modQp_eq, State.txQp]

/-- A packet in its order is performed on the state of `State.gotRoce`. -/
theorem roceIn_inOrder {s : State} {r : RocePacket} {reth : Bool} {i : Nat} (h : InOrder s r reth i) (f g : State → Nat → State) :
    s.roceIn r reth f g = f (s.gotRoce r i) i := by
  obtain ⟨frame, icrc, ad, qp, rts, psn⟩ := h
  obtain ⟨c, o, e⟩ := s.frameCounted_eq r.frame
  have e1 : (s.frameCounted r.frame).host.accepts r.src r.dst = true := by rw [e]; exact ad
  have e3 : ((s.frameCounted r.frame).qp i) = s.qp i := by rw [e]; rfl
  have e2 : (((if r.ecnCe then (s.frameCounted r.frame).sendCnp i else s.frameCounted r.frame)).qp i).epsn = r.psn.toNat := by
    rw [psn]
    split
    · rw [sendCnp_epsn, e3]
    · rw [e3]
  unfold State.roceIn
  rw [frameIn_taken frame]
  simp [icrc, e1, qp, e3, rts, e2, State.gotRoce]

end Sys2Proof.Machine
end

