-- ==== Sys2Proof/Tests/Slice0.lean ====
section
/-! SUPPORT. Tests of one step or one operation on small states: the smoke of WellFormed, an acceptable command for each opcode,
a witness for the hypotheses of each statement (at the ends of the ranges that its clauses name), and values from outside the
model. -/

namespace Sys2Proof.Tests

set_option Elab.async false
open Sys2Proof.Machine

/-! ### Small states and parameter blocks -/

/-- Fields in order, each with its width in bytes. -/
def bytes (fs : List (Nat × Nat)) : List Byte := fs.flatMap fun f => leBytes f.1 f.2
def zeros (n : Nat) : List Byte := List.replicate n 0#8

/-- A device that has booted, with memory and an IPv4 address 10.0.0.1. -/
def ready : State :=
  { State.reset with
    sec := { Security.reset with stage := 4, resetLow := false }
    memInfo := { MemInfo.reset with hbmOk := 0xFF#8, ddrCh := 0xFFF#12, dimmSize := 6, ddrType := 1, valid := true }
    host := { HostPort.reset with state := 2, mtu := 2, ipv4 := some 0x0A000001#32 }
    fab := { Fabric.reset with fid := 7 }
    power := { Power.reset with rootLock := true, fabLock := 3#2, ddrLock := 3#2, hbmLock := 0xFF#8, hostLock := true }
    restricted := false }

def own : IpAddr := 0xFFFF_0A000001#128

/-- A command packet over UDP with the number that the device expects first. -/
def packet (job ctx : Nat) (params : List Byte) : Packet :=
  { src := 0xFFFF_0A000002#128, dst := own, srcMac := 2#48, srcPort := 4000#16, viaQp := none, wflags := 0#8,
    job := BitVec.ofNat 8 job, ctx := BitVec.ofNat 8 ctx, seq := 0#32, tag := 0#64, params := params, found := [] }

/-- A mapping of one device, the whole leaf range, epoch `e`, with a `TAG`. -/
def mapping (e tag : Nat) : List Byte := bytes [(4, e), (2, 1), (2, 0), (2, 1), (2, 1), (4, tag), (2, 7), (2, 0), (2, 0), (2, 1024)]

/-- `JOB_CREATE`: paddock `n`, gibibyte `n` of HBM4 with 2 MiB of scratch at its end, and gibibyte `n` of DDR5. -/
def jobParams (n : Nat) : List Byte :=
  bytes [(4, 0), (4, 2 ^ n), (8, 1), (4, 0), (4, 0), (8, n * 2 ^ 30 + 2 ^ 30 - 2 ^ 21), (8, 2 ^ 21), (8, 0), (4, 0), (1, 2)] ++ zeros 11 ++
  bytes [(8, n * 2 ^ 30), (8, 2 ^ 30), (8, 2 ^ 48 + n * 2 ^ 30), (8, 2 ^ 30)] ++ mapping 0 (5 + n)

def job : Job := Job.fresh ready (jobParams 0)
def ctxParams : List Byte := bytes [(8, 2 ^ 24), (8, 2 ^ 21), (8, 2 ^ 48), (8, 2 ^ 21)]
def ctx : Ctx := Ctx.fresh ready 0 ctxParams

/-- A state region of 2 MiB at 2²⁰·2 with both slots in DDR5. -/
def stateSet : StateSet := { StateSet.parse (bytes [(8, 1), (8, 2 ^ 48 + 2 ^ 23), (8, 2 ^ 48 + 2 ^ 24), (8, 2 ^ 23), (16, 0), (8, 0), (8, 2 ^ 21)]) with
  validA := true }

/-- The secondary of a pair with device 8, which has the image of step 3. -/
def pair : Pairing :=
  { partner := 8, secondary := true, override := false, timeoutMs := 50, heartbeatUs := 1000, rxDa := 2 ^ 48 + 2 ^ 25, rxBytes := 2 ^ 24,
    state := 1, partnerFeed := 0, covered := false, imageStep := [some 3, none], receiving := none, applying := false, applied := false,
    applyAt := 0, got := [], mark := false, sending := none, outbox := [], gone := false, ready := false, sentStep := 0, pairSeq := 50 }

/-- The device with job 0 and its context 0, a queue pair, an open transfer, and the entry 100 of an operation that has ended. -/
def busy : State :=
  { ready with
    jobs := [(0, some { job with stateSet := some stateSet, pair := some pair })]
    ctxs := [(0, some ctx)]
    mem := storeRun 0#8 [] stateSet.slotA (ckptHeader ready job stateSet 0 1)
    host := { ready.host with
      qps := [(0, { Qp.reset with state := 1, pmtu := 1 })]
      xfers := [(0, { Xfer.reset with state := 1, id := 9, len := 64 })] }
    journal := { Journal.reset with
      slots := [(100, { Slot.empty with seq := 100#32, opcode := 0x0401, state := 3, bitmap := true, nbits := 8 })] }
    life := { Life.reset with ring := [{ type := 1, boot := 0, poweredS := 0, dateS := 0, body := [] }], ringTotal := 1 } }

/-- A dense matrix of rows × cols elements, row by row. -/
def matrix (id fmt base rows cols : Nat) : List Byte :=
  bytes [(4, id), (1, fmt), (1, 2), (1, 0), (1, 0), (8, base), (8, 0), (4, rows), (4, cols)] ++ zeros 16 ++
  bytes [(8, cols), (8, 1)] ++ zeros 32 ++ bytes [(2, 1), (2, 1)] ++ zeros 60

def vec (id fmt base n : Nat) : List Byte :=
  bytes [(4, id), (1, fmt), (1, 1), (1, 0), (1, 0), (8, base), (8, 0), (4, n)] ++ zeros 20 ++
  bytes [(8, 1)] ++ zeros 40 ++ bytes [(2, 1)] ++ zeros 62

/-- `OP_ISSUE` of a product D = A·B of m × n × k BF16 elements into FP32. -/
def product (m n k : Nat) : List Byte :=
  bytes [(1, 1), (1, 3)] ++ zeros 162 ++ bytes [(4, 9)] ++ zeros 40 ++
  matrix 1 2 0 m k ++ matrix 2 2 0x10000 k n ++ matrix 3 1 0x20000 m n


/-! ### Well-formedness: an ill-formed term for each check -/

/-- The SEND of queue pair `q` that carries a command. -/
def carrier (q : Nat) : Carrier := { qpi := q, psn := 0#24, ackReq := true, ecnCe := false }
def badPacket : Packet := { packet 0 0 [] with viaQp := some (carrier 64) }
def roce (qpn psn : Nat) (part : MsgPart) (payload : List Byte) : RocePacket :=
  { src := 0xFFFF_0A000002#128, srcMac := 2#48, dst := own, qpn := BitVec.ofNat 24 qpn, psn := BitVec.ofNat 24 psn, part := part,
    ackReq := true, ecnCe := false, va := 0#64, rkey := 0#32, dmaLen := BitVec.ofNat 32 payload.length, payload := payload, found := [] }
def fabPacket (dest src kind cid : Nat) (payload : List Byte) : FabPacket :=
  { dest := BitVec.ofNat 12 dest, src := BitVec.ofNat 12 src, tag := 5#32, pkind := BitVec.ofNat 8 kind, format := 0#8,
    collId := BitVec.ofNat 32 cid, step := 0#32, attempt := 0#16, epoch := 0#16, unit := 0#32, offset := 0#32, poison := 0#128,
    payload := payload }
def noFault : TileFaults := { attempts := [], ecc := [] }
def access (off : Nat) : AtomicAccess :=
  { master := .tile 1, op := .addI32, offset := off, mask := 1#16, operands := List.replicate 16 1, returnOld := true, ecc := [] }

def cold : Telemetry := { railMw := List.replicate 8 0, railMv := List.replicate 8 0, renewed := 0xFF#8, tempQc := List.replicate 20 0 }

/-! Every Woror command refuses a packet of a queue pair that does not exist; the others refuse each operand that is out of its
range. -/

def illPackets : List Instr :=
  ([.deviceInfo, .netConfig, .memRead, .memWrite, .csrWrite, .csrRead, .streamArm, .streamCancel, .streamStatus, .qpConnect, .xferOpen,
    .xferClose, .xferStatus, .jobCreate, .jobModify, .jobRelease, .contextCreate, .contextRelease, .stepBegin, .barrier, .hayloftPop,
    .hayloftFree, .gradOpen, .phaseMark, .row, .opIssue, .opCancel, .collective, .mapSet, .gradNorm, .powerCapSet, .phasePointsSet,
    .powerRead, .energyRead, .throttleRead, .stepCommit, .checkpointSet, .restore, .mirrorPair, .mirrorUnpair, .failover,
    .sparePolicySet, .leaseGrant, .identityRead, .attest, .fwStage, .fwActivate, .resetWarm, .journalInfo, .journalRead, .bitmapRead,
    .retiredList, .memTest, .setDate, .lifeRead, .unassignedOpcode 0#16] : List (Packet → Instr)).map (fun c => c badPacket)

def illNumbers : List Instr :=
  ([.stepBeginTakesEffect, .barrierComplete, .hayloftPopTakesEffect, .hayloftFreeTakesEffect, .gradOpenTakesEffect,
    .phaseMarkTakesEffect, .operationStart, .collectiveStart, .collectiveComplete, .mapSetTakesEffect, .gradNormStart,
    .stepCommitTakesEffect, .peerTimeout, .applyPassEnd, .cancellationComplete] : List (Nat → Instr)).map (fun c => c (2 ^ 32))

def illTiles : List Instr :=
  ([.tileCntClrPhase, .tileCntClrFtq, .tileCntClrAcc, .tileCntClrPort, .take, .doneMessage, .pullIssue, .computeStart, .recoveredLimit,
    .eccQuarantineLimit, .storeStart, .compatProgramEnd, .pull 0, (.kRunEnd · noFault), (.ftqEntryRetire · noFault),
    (.scatteredPartial · noFault), (.atomic · (access 0)), (.compatInsnStop · 0)] : List (Nat → Instr)).map (fun c => c 800)

def illPorts : List Instr :=
  ([.fabRetrain, (.fabPortEnable · true), (.dataFlit · ⟨zeros 256, [0, 0, 0, 0], 0#4⟩), (.ackFlit · 0#12), (.nakFlit · 0#12),
    .replayLimit, .ackFlitTimer, (.laneLossOfLock · 0), (.portRetrainComplete · ⟨0#4, 0#12, 0#3, 0#32⟩), .hostLaneLossOfLock] : List (Nat → Instr)).map (fun c => c 8)

def illJobs : List Instr :=
  ([(.peerLost · 0), .spareDue, .pairTimeout, .heartbeat, .mirrorPairTimeout, .mirrorCopyComplete, .checkpointComplete, .restoreComplete,
    (.streamTransferStart · ⟨0, []⟩), .zeroingComplete, .imageApplyComplete, .watchdogExpiry, (fun n => .warmReset (.watchdog n)), .vrmAtTarget] : List (Nat → Instr)).map (fun c => c 4)

def illSkips : List Instr :=
  ([(.pull · 0), (.skipReadReturn · []), .skipWrite, .writeAcknowledged] : List (Nat → Instr)).map (fun c => c 48)

def illPaddocks : List Instr :=
  ([.thermalCeilingStep, (.droopTrip · 700), (fun n => .stretchEnd ⟨n, 800, 1000⟩)] : List (Nat → Instr)).map (fun c => c 20)

def illContexts : List Instr :=
  ([.spillComplete, .refillComplete] : List (Nat → Instr)).map (fun c => c 16)

def illFabricPackets : List Instr :=
  ([.packetForward, .ready, .data, .join, .e2eAck, .e2eAckTimeout, .stepAbort] : List (FabPacket → Instr)).flatMap (fun c =>
    [c (fabPacket 7 8 0 1 []), c (fabPacket 7 8 6 1 [])])

def illEvents : List Instr :=
  [.journalMirrorWrite 65536, .cnpRateRestore 64,
   .hostTransferComplete 256, .hostTimeout 256,
   .dataFlit 0 ⟨zeros 255, [0, 0, 0, 0], 0#4⟩, .dataFlit 0 ⟨zeros 256, [0, 0, 0], 0#4⟩,
   .laneLossOfLock 0 4, .peerLost 0 4096,
   .kRunEnd 0 { noFault with attempts := [[.vector], [.vector], [.vector], [.vector], [.vector]] },
   .kRunEnd 0 { noFault with attempts := [[]] }, .kRunEnd 0 { noFault with ecc := [⟨5, 0, true⟩] },
   .kRunEnd 0 { noFault with ecc := [⟨0, 0, true⟩] }, .kRunEnd 0 { noFault with ecc := [⟨1, 0x12_0000, true⟩] },
   .ftqEntryRetire 0 { noFault with attempts := [[]] }, .scatteredPartial 0 { noFault with attempts := [[]] }]

def illTileEvents : List Instr :=
  [.atomic 0 { access 0 with operands := [] }, .atomic 0 (access (2 ^ 21)),
   .atomic 0 { access 0 with ecc := List.replicate 9 .clean }, .atomic 0 { access 0 with master := .tile 800 },
   .atomic 0 { access 0 with master := .skip 4 }, .flagWrite 4 0#64,
   .flagPoll 4, .compatInsnStop 0 (2 ^ 21),
   .streamTransferStart 0 ⟨64, []⟩, .scrubRead 31 ⟨.clean, 0⟩,
   .eccWriteBack 31, .softRepair ⟨0, 0, 0, 0, [31], true⟩,
   .capLoopPeriod { cold with railMw := [] }, .capLoopPeriod { cold with railMv := [] }, .capLoopPeriod { cold with tempQc := [] }]

def illPowerEvents : List Instr :=
  [.vrmAlert (.overcurrent 8) true,
   .vrmAlert (.railFault 8) true, .vrmRecoveryTimer (.overcurrent 8),
   .hourlyRecord ⟨List.replicate 7 0⟩, .pllLossOfLock (.hbm 8),
   .pllRelockTimeout (.hbm 8), .pllLock (.hbm 8),
   .pllLockTimeout (.hbm 8), .mainStageEnd ⟨0xFF#8, 0#12, 0#12, 0#4, 0#2, false⟩,
   .sidebandRead ⟨0x58#7, 65⟩]

def illFormed : List (List Instr) := [illPackets, illNumbers, illTiles, illPorts, illJobs, illSkips, illPaddocks, illContexts, illFabricPackets, illEvents, illTileEvents, illPowerEvents]

theorem test_wf_refuses : illFormed.all (fun l => l.all fun i => !i.wf) = true := by decide +kernel

/-- What no datagram, message, frame or packet can hold. -/
theorem test_wf_refuses_lengths :
    (packet 0 0 (zeros 65505)).wf = false ∧ (Instr.echoRequest 0#128 0#128 { mac := 0#48 } (zeros 65536)).wf = false ∧
      Datagram.wf { src := 0#128, dst := 0#128, srcMac := 0#48, srcPort := 0#16, bytes := zeros 65537 } = false ∧ (roce 0x100 0 .only (zeros 4097)).wf = false ∧
      (fabPacket 7 8 1 1 (zeros 4097)).wf = false := by
  simp only [Instr.wf, Packet.wf, Datagram.wf, RocePacket.wf, FabPacket.wf, packet, roce, fabPacket, zeros, List.length_replicate]
  decide

/-- The last value of each range is well formed. -/
def wellFormed : List Instr :=
  [.deviceInfo { packet 0 0 [] with viaQp := some (carrier 63) }, .operationStart (2 ^ 32 - 1), .take 799, .fabRetrain 7, .zeroingComplete 3,
   .skipWrite 47, .stretchEnd ⟨19, 800, 1000⟩, .spillComplete 15, .send (roce 0x13F 0 .only []), .data (fabPacket 7 8 5 1 []),
   .journalMirrorWrite 65535, .cnpRateRestore 63, .hostTimeout 255, .dataFlit 7 ⟨zeros 256, [0, 0, 0, 0], 15#4⟩,
   .kRunEnd 799 ⟨[[.vector], [.vector], [.vector], [.vector]], [⟨4, 0x11_FFFF, true⟩]⟩, .atomic 799 (access (2 ^ 21 - 1)), .flagWrite 8 0#64,
   .scrubRead 32 ⟨.uncorrectable, 1⟩, .droopTrip 19 700, .pllLock (.hbm 7), .sidebandRead ⟨0x58#7, 64⟩, .attestReportComplete]

theorem test_wf_accepts : wellFormed.all Instr.wf = true := by decide +kernel


/-! ### Woror commands: each opcode has an acceptable command -/

/-- A command of each opcode that `busy` accepts. -/
def commands : List (Nat × Packet) :=
  let dev (op : Nat) (p : List Byte) := (op, packet 255 255 p)
  let jb (op : Nat) (p : List Byte) := (op, packet 0 255 p)
  let q (op : Nat) (p : List Byte) := (op, packet 0 0 p)
  [ dev 0x0101 [],
    dev 0x0110 (bytes [(1, 1), (1, 2), (1, 3), (1, 0), (2, 0), (1, 0), (1, 0), (4, 0x0100000A)] ++ zeros 84),
    dev 0x0203 (bytes [(8, csrBase + 0x11000), (4, 0), (4, 0)]), dev 0x0904 (bytes [(8, csrBase), (4, 255), (4, 0)]),
    dev 0x0220 (bytes [(1, 63), (1, 0), (1, 3), (1, 0)] ++ zeros 44), dev 0x0601 (bytes [(2, 900), (1, 4), (1, 85)] ++ zeros 12), dev 0x0603 [],
    dev 0x0605 [], dev 0x0708 (bytes [(8, 0), (4, 0), (1, 0), (1, 1), (2, 0)]), dev 0x0801 (zeros 8), dev 0x0802 (zeros 48),
    dev 0x0803 (bytes [(4, 0), (4, 256)] ++ zeros 256), dev 0x0804 (zeros 8), dev 0x0805 (zeros 8), dev 0x0901 [],
    dev 0x0902 (bytes [(4, 0), (2, 16), (2, 0)]), dev 0x0903 (bytes [(4, 100), (4, 0)]), dev 0x0905 (zeros 8),
    dev 0x0910 (bytes [(8, 0), (8, 2 ^ 30), (8, 2 ^ 21)]), dev 0x0A01 (bytes [(8, 1704067200), (8, 0)]), dev 0x0A02 (zeros 8),
    jb 0x0201 (bytes [(8, 2 ^ 30 - 384), (4, 384), (4, 0)]), jb 0x0202 (bytes [(8, 2 ^ 30 - 1), (4, 1), (4, 0), (1, 0x5A)]),
    jb 0x0210 (bytes [(1, 63), (1, 0), (1, 0), (1, 255), (4, 1)] ++ zeros 56 ++ matrix 1 1 0 8 8 ++ matrix 2 1 0x1000 8 8),
    jb 0x0211 (bytes [(8, 63)]), jb 0x0212 (bytes [(8, 63)]), jb 0x0221 (bytes [(4, 1), (1, 0), (1, 0), (2, 0), (8, 0), (8, 2 ^ 20), (8, 0)]),
    jb 0x0222 (bytes [(8, 9)]), jb 0x0223 (bytes [(8, 9)]), (0x0301, packet 1 255 (jobParams 1)), jb 0x0302 (bytes [(4, 2), (4, 0), (8, 0)]), jb 0x0303 [],
    jb 0x0320 (bytes [(8, 100)]), jb 0x0602 (bytes [(1, 4), (1, 0), (1, 0), (1, 1), (1, 3), (1, 0), (2, 0)]), jb 0x0604 [],
    jb 0x0702 (bytes [(8, 1), (8, 2 ^ 48 + 2 ^ 23), (8, 2 ^ 48 + 2 ^ 24), (8, 2 ^ 23), (4, 1), (4, 604800), (4, 60), (4, 60), (8, 0), (8, 2 ^ 21)]),
    jb 0x0703 (zeros 8), jb 0x0704 (bytes [(2, 8), (1, 0), (1, 0), (2, 10), (2, 10000), (8, 0), (8, 0), (8, 0)]), jb 0x0705 [], jb 0x0706 (zeros 8),
    jb 0x0707 (bytes [(1, 2), (1, 8), (2, 0), (4, 86400), (4, 10), (4, 0)]),
    (0x0304, packet 0 1 (zeros 32)), q 0x0305 [], q 0x0310 (bytes [(4, 1), (4, 0)]), q 0x0311 (zeros 40), q 0x0312 (zeros 16), q 0x0313 (zeros 8),
    q 0x0314 (bytes [(4, 5), (4, 0), (4, 1), (4, 48), (4, 48), (1, 7), (1, 1)] ++ zeros 10), q 0x0315 (bytes [(1, 5), (1, 0), (2, 0), (4, 0)]),
    q 0x0316 (bytes [(1, 3), (1, 0), (1, 0), (1, 2), (4, 0), (4, 0x3F800000), (4, 0)] ++ zeros 16 ++ matrix 1 1 0 8 8 ++ matrix 2 1 0x1000 8 8),
    q 0x0401 (product 48 48 48), q 0x0501 (bytes [(1, 6)] ++ zeros 31), q 0x0502 (mapping 1 5),
    q 0x0503 (bytes [(8, 1), (8, 0)] ++ matrix 1 1 0 8 8), q 0x0701 (bytes [(4, 0), (4, 0)]) ]

/-- `commands` holds one command of each of the 55 opcodes of R372. -/
theorem test_commands_complete : commands.map Prod.fst =
    [0x0101, 0x0110, 0x0203, 0x0904, 0x0220, 0x0601, 0x0603, 0x0605, 0x0708, 0x0801, 0x0802, 0x0803, 0x0804, 0x0805, 0x0901, 0x0902, 0x0903,
     0x0905, 0x0910, 0x0A01, 0x0A02, 0x0201, 0x0202, 0x0210, 0x0211, 0x0212, 0x0221, 0x0222, 0x0223, 0x0301, 0x0302, 0x0303, 0x0320, 0x0602,
     0x0604, 0x0702, 0x0703, 0x0704, 0x0705, 0x0706, 0x0707, 0x0304, 0x0305, 0x0310, 0x0311, 0x0312, 0x0313, 0x0314, 0x0315, 0x0316, 0x0401,
     0x0501, 0x0502, 0x0503, 0x0701] := rfl

theorem commands_pass : commands.all (fun x => commandStatus (busy.received x.2) x.1 x.2.job.toNat x.2.ctx.toNat x.2.params == 0) = true := by
  decide +kernel

theorem commands_inTurn : commands.all (fun x => x.2.viaQp.isNone && decide (32 + x.2.params.length ≤ busy.host.udpRoom x.2.dst) &&
    x.2.frame.buffer != .full && busy.host.tagOk x.2.frame.tags && decide (busy.host.queued - x.2.taken < 256) &&
    busy.host.accepts x.2.src x.2.dst && x.2.wflags == 0#8 && x.2.seq == busy.host.next && !busy.slotBusy x.2.seq.toNat) = true := by
  decide +kernel

theorem test_commands_inTurn (x : Nat × Packet) (h : x ∈ commands) : InTurn busy x.2 := by
  have g := List.all_eq_true.1 commands_inTurn x h
  simp only [Bool.and_eq_true, decide_eq_true_eq, beq_iff_eq, bne_iff_ne, Bool.not_eq_true', Option.isNone_iff_eq_none] at g
  obtain ⟨⟨⟨⟨⟨⟨⟨⟨a, b⟩, u⟩, v⟩, q⟩, c⟩, d⟩, e⟩, f⟩ := g
  exact ⟨a, ⟨by decide +kernel, u, b, v⟩, q, by decide +kernel, c, .inl d, e, f⟩

/-- The commands that complete or enter a queue: `Acceptable` holds of one for every opcode. -/
theorem test_commands_acceptable (x : Nat × Packet) (h : x ∈ commands) : Acceptable busy x.1 x.2 :=
  ⟨test_commands_inTurn x h, eq_of_beq (List.all_eq_true.1 commands_pass x h)⟩


/-! ### The other statements about Woror commands -/

/-- A stream from one region to another, which enters the queue that `c` names. -/
def arm (c : Nat) : List Byte :=
  bytes [(1, 63), (1, 0), (1, 0), (1, c), (4, 1)] ++ zeros 56 ++ matrix 1 1 0 8 8 ++ matrix 2 1 0x1000 8 8

theorem acceptable_of (op : Nat) (p : Packet) (s : State) (h : s.hostUp = true ∧ s.sec.stage = 4 ∧ p.viaQp = none ∧
    32 + p.params.length ≤ s.host.udpRoom p.dst ∧ s.host.accepts p.src p.dst = true ∧ p.wflags = 0#8 ∧ p.seq = s.host.next ∧
    s.slotBusy p.seq.toNat = false ∧ p.frame.buffer ≠ .full ∧ s.host.tagOk p.frame.tags = true ∧ s.host.queued - p.taken < 256)
    (g : commandStatus (s.received p) op p.job.toNat p.ctx.toNat p.params = 0) : Acceptable s op p :=
  ⟨⟨h.2.2.1, ⟨h.1, h.2.2.2.2.2.2.2.2.1, h.2.2.2.1, h.2.2.2.2.2.2.2.2.2.1⟩, h.2.2.2.2.2.2.2.2.2.2, h.2.1, h.2.2.2.2.1, .inl h.2.2.2.2.2.1,
    h.2.2.2.2.2.2.1, h.2.2.2.2.2.2.2.1⟩, g⟩

/-- An arm outside every queue (context 0xFF), and one in a queue. -/
theorem test_arm_acceptable : Acceptable busy 0x0210 (packet 0 255 (arm 255)) ∧ Acceptable busy 0x0210 (packet 0 255 (arm 0)) :=
  ⟨acceptable_of _ _ _ (by decide +kernel) (by decide +kernel), acceptable_of _ _ _ (by decide +kernel) (by decide +kernel)⟩

def open0 (n : Nat) : Packet := packet 0 255 (bytes [(4, 1), (1, 1), (1, 0), (2, 0), (8, 0), (8, n), (8, 0)])

/-- A transfer of length 0 and one of length 1; the lowest free slot is 1. -/
theorem test_transfer_acceptable : Acceptable busy 0x0221 (open0 0) ∧ Acceptable busy 0x0221 (open0 1) ∧
    (List.range 256).find? (fun k => ((busy.accepted 0x0221 (open0 1) 255 none).xfer k).state == 0) = some 1 :=
  ⟨acceptable_of _ _ _ (by decide +kernel) (by decide +kernel), acceptable_of _ _ _ (by decide +kernel) (by decide +kernel),
   by decide +kernel⟩

/-- A command in its turn that check 2 refuses, for each opcode; and an opcode that is not assigned. -/
theorem test_refused : InTurn busy (packet 9 9 []) ∧
    commands.all (fun x => commandStatus (busy.received (packet 9 9 [])) x.1 9 9 [] != 0) = true ∧ scopeOf 0xFFFF = none := by
  refine ⟨⟨rfl, ⟨?_, ?_, ?_, ?_⟩, ?_, ?_, ?_, .inl rfl, ?_, ?_⟩, ?_, ?_⟩ <;> decide +kernel

/-- A command whose queue holds 4096 entries. -/
def fullQueue : State := { busy with ctxs := [(0, some { ctx with queue := List.replicate 4096 1 })] }

theorem test_full_queue : (fullQueue.ctx 0).any (fun k => decide (4096 ≤ k.queue.length)) = true ∧ scopeFits .queue 0 0 = true ∧
    (commands.drop 43).all (fun x =>
      let r := fullQueue.received x.2
      scopeOf x.1 == some .queue && (r.ctx 0).isSome && existsStatus r x.1 0 0 .queue == 0 && layoutLen x.1 x.2.params == some x.2.params.length &&
      reservedOk x.1 x.2.params && ownStatus r x.1 0 0 .queue x.2.params == 0 &&
      decide (r.poolUsed + bitmapBytes (r.bitsFor x.1 0 x.2.params) ≤ poolBytes)) = true := by
  decide +kernel

/-- The frames of a packet and of a datagram are taken, and the six reads that R355 allows without a sequence number. -/
theorem test_unsequenced : Taken busy (packet 255 255 []).frame (32 + 0) own ∧ busy.sec.stage = 4 ∧
    busy.host.accepts (packet 255 255 []).src own = true ∧ busy.host.queued - (packet 255 255 []).taken < 256 ∧
    { packet 255 255 [] with wflags := 2#8 }.wflags = 2#8 ∧
    (commands.filter fun x => [0x0101, 0x0901, 0x0902, 0x0903, 0x0904, 0x0905].contains x.1).length = 6 := by
  refine ⟨⟨?_, ?_, ?_, ?_⟩, ?_, ?_, ?_, ?_, ?_⟩ <;> decide +kernel

/-- Events before and behind the journal; MC0 has 256 commands in its queue and has taken none of them. -/
def mirrored : State :=
  { busy with
    journal := { busy.journal with mirrorOk := true, heldReplies := [(65535, 0, { answerTo (packet 255 255 []) 0x0101 with final := true })] }
    host := { busy.host with held := [⟨0x0101, { packet 255 255 [] with seq := 9#32 }⟩], queued := 256 } }

theorem test_journal_events :
    Taken busy {} (zeros 31).length own ∧ Taken mirrored {} (32 + 0) own ∧ mirrored.sec.stage = 4 ∧
    busy.host.accepts 0xFFFF_0A000002#128 own = true ∧ (zeros 31).length < 32 ∧ beAt (zeros 32) 0 2 ≠ 0x574F ∧
    { packet 255 255 [] with taken := 0 }.wflags.toNat &&& 0xF9 = 0 ∧ 256 ≤ mirrored.host.queued - { packet 255 255 [] with taken := 0 }.taken ∧
    (mirrored.host.held.any fun h => h.pkt.seq == 9#32) = true ∧ mirrored.journal.mirrorOk = true ∧
    (mirrored.journal.heldReplies.filter fun h => h.1 == 0) = [] ∧ (mirrored.journal.heldReplies.filter fun h => h.1 == 65535).length = 1 := by
  refine ⟨⟨?_, ?_, ?_, ?_⟩, ⟨?_, ?_, ?_, ?_⟩, ?_, ?_, ?_, ?_, ?_, ?_, ?_, ?_, ?_, ?_⟩ <;> decide +kernel

/-- A register write finds a port of each kind, and a PLL that is locked and one that is not. -/
theorem test_register_writes :
    (busy.port 7).enable = true ∧ busy.power.fabLock.getLsbD (7 / 4) = true ∧ State.reset.power.fabLock.getLsbD (7 / 4) = false ∧
    { Port.reset with enable := false }.enable = false ∧ busy.power.hostLock = true := by decide +kernel

/-- While nothing waits: no frame is held, one is held and may go, and the port is paused. -/
theorem test_idle : busy.pending = [] ∧ busy.host.txHeld = [] ∧ ({ busy with sclk := 1 } : State).paused = false ∧
    ({ busy with host := { busy.host with pausedUntil := 2 } } : State).paused = true := by decide +kernel

/-! ### Statements about the host port -/

def portDown : State := { busy with host := { busy.host with state := 1 } }
/-- `n` echo replies have gone out in this second. -/
def echoed (n : Nat) : State := { busy with host := { busy.host with icmpAt := 0, icmpSent := n, pfcEn := true } }

theorem test_host_frames :
    Taken (echoed 0) {} 0 0#128 ∧ Taken (echoed 0) {} (zeros 8).length own ∧ (echoed 0).host.ipv4 = some 0x0A000001#32 ∧
    own ∈ (echoed 0).host.addresses ∧ (Arrival.buffer { buffer := .full } = .full) ∧ busy.host.tagOk [5#12] = false ∧
    busy.host.udpRoom own < 65536 ∧ (echoed 999).host.icmpAt = (echoed 999).sclk / sclkSecond ∧ (echoed 999).host.icmpSent < 1000 ∧
    1000 ≤ (echoed 1000).host.icmpSent ∧ (echoed 0).host.icmpAt ≠ { echoed 0 with sclk := sclkSecond }.sclk / sclkSecond ∧
    (echoed 0).host.pfcEn = true ∧ (3#3).toNat = (echoed 0).host.pfcPrio ∧ portDown.hostUp = false := by
  refine ⟨⟨?_, ?_, ?_, ?_⟩, ⟨?_, ?_, ?_, ?_⟩, ?_, ?_, ?_, ?_, ?_, ?_, ?_, ?_, ?_, ?_, ?_, ?_⟩ <;> decide +kernel

/-- Queue pair 0 in its order, with a path MTU of 1024 bytes: with no message, in the midst of a SEND, and in the midst of a WRITE. -/
def qpMsg (m : Nat) : State :=
  { busy with host := { busy.host with qps := [(0, { Qp.reset with state := 1, pmtu := 1, msg := m, wrLeft := 64, wrLen := 64 })] } }
/-- Its transfer lets the host read. -/
def qpRead : State :=
  { qpMsg 0 with host := { (qpMsg 0).host with xfers := [(0, { Xfer.reset with state := 1, id := 9, len := 64, read := true })] } }

/-- A RoCEv2 packet of each clause: the state, whether it has a RETH, and the packet. -/
def inOrder : List (State × Bool × RocePacket) :=
  [(qpMsg 0, false, roce 0x100 0 .only (zeros 64)), (qpMsg 1, false, roce 0x100 0 .middle (zeros 1024)),
   (qpMsg 0, false, roce 0x100 0 .first (zeros 64)), (qpMsg 0, true, roce 0x100 0 .only (zeros 64)), (qpMsg 2, false, roce 0x100 0 .last (zeros 64)),
   (qpRead, true, roce 0x100 0 .only (zeros 64))]

theorem test_in_order : inOrder.all (fun x =>
    x.1.hostUp && decide (roceLength x.2.2 x.2.1 ≤ x.1.host.udpRoom own) && x.1.host.tagOk x.2.2.frame.tags && x.2.2.icrcOk &&
    x.1.host.accepts x.2.2.src own && qpiOf x.2.2.qpn == some 0 && (x.1.qp 0).state == 1 && x.2.2.psn.toNat == (x.1.qp 0).epsn) = true := by
  decide +kernel

/-- The message state and the lengths of those packets. -/
theorem test_roce_events :
    (let q := ((qpMsg 0).gotRoce (roce 0x100 0 .only (zeros 64)) 0).qp 0
     q.msg == 0 && partFits q (roce 0x100 0 .only (zeros 64)) && !partFits q (roce 0x100 0 .first (zeros 64)) &&
       lengthOk { q with wrLeft := 64 } (roce 0x100 0 .only (zeros 64))) = true ∧
    ((qpMsg 0).gotRoce (roce 0x100 0 .only (zeros 64)) 0).sendBuffers < 16 ∧
    (let q := ((qpMsg 1).gotRoce (roce 0x100 0 .middle (zeros 1024)) 0).qp 0
     q.msg == 1 && partFits q (roce 0x100 0 .middle (zeros 1024)) && decide ((sendBytes q (roce 0x100 0 .middle (zeros 1024))).length ≤ 65536)) = true ∧
    (let q := ((qpMsg 2).gotRoce (roce 0x100 0 .last (zeros 64)) 0).qp 0
     q.msg == 2 && lengthOk q (roce 0x100 0 .last (zeros 64))) = true ∧
    partStarts MsgPart.only = true ∧ partStarts MsgPart.middle = false := by decide +kernel

theorem test_rkeys : ((qpMsg 0).gotRoce (roce 0x100 0 .only (zeros 64)) 0).checkRkey 0 (roce 0x100 0 .only (zeros 64)) false = .ok 0 ∧
    (qpRead.gotRoce (roce 0x100 0 .only (zeros 64)) 0).checkRkey 0 (roce 0x100 0 .only (zeros 64)) true = .ok 0 := by decide +kernel

/-- Transfer 255 has received its one byte; and the port is training. -/
def received : State :=
  { busy with host := { busy.host with xfers := [(255, { Xfer.reset with state := 2, id := 1, len := 1, counted := 1, lastPacket := some 0 })] } }

theorem test_transfer_events :
    Taken busy (roce 0x100 0 .only []).frame (roceLength (roce 0x100 0 .only []) true) own ∧
    qpiOf 0x100#24 = some 0 ∧ qpiOf 0x13F#24 = some 63 ∧ (busy.qp 0).state = 1 ∧ (received.xfer 255).open_ = true ∧
    (received.xfer 255).len ≤ (received.xfer 255).counted ∧ received.hostOffsets 255 (received.xfer 255).gen = [] ∧
    (received.xfer 255).lastPacket = some 0 ∧ (received.job (received.xfer 255).job).isSome = true ∧
    (modeLanes busy.host.modeActive).getLsbD 7 = true ∧ portDown.host.state = 1 ∧ portDown.power.hostLock = true ∧
    0xFF#8 &&& modeLanes portDown.host.mode = modeLanes portDown.host.mode := by
  refine ⟨⟨?_, ?_, ?_, ?_⟩, ?_, ?_, ?_, ?_, ?_, ?_, ?_, ?_, ?_, ?_, ?_, ?_⟩ <;> decide +kernel

/-! ### Statements about the fabric -/

/-- Port 7 with what the clauses ask of it. -/
def port7 (x : Port) : State := { busy with fab := { busy.fab with ports := [(7, x)] } }
def up7 : Port := { Port.reset with state := 2, lanes := 15#4 }
def goodFlit : Flit := ⟨flitBytes ftDATA 0 0 0 [], [0, 0, 0, 0], 0#4⟩

set_option maxRecDepth 100000 in
theorem test_link_events :
    ((port7 up7).port 7).up = true ∧ flitGood goodFlit = true ∧ flitKind goodFlit = ftDATA ∧
    flitSeq goodFlit = (((port7 up7).port 7).rxSeq + 1) % 4096 ∧ flitGood ⟨zeros 256, [0, 0, 0, 0], 0#4⟩ = false ∧
    ({ up7 with replaysInRow := 16 }.failures 0).length < 3 ∧ 3 ≤ ({ up7 with barren := [0, 0, 0] }.failures 700000000).length ∧
    busy.power.fabLock.getLsbD (7 / 4) = true ∧ up7.enable = true := by decide +kernel

/-- A port that trains comes up with two lanes and not with one, when two are the least. -/
theorem test_training :
    ((port7 Port.reset).port 7).state = 1 ∧
    (Port.reset.tested ⟨3#4, 8#12, 0#3, 0#32⟩).1.minLanes + 2 ≤ popcount 4 (Port.reset.tested ⟨3#4, 8#12, 0#3, 0#32⟩).1.lanes.toNat ∧
    popcount 4 (Port.reset.tested ⟨1#4, 8#12, 0#3, 0#32⟩).1.lanes.toNat < (Port.reset.tested ⟨1#4, 8#12, 0#3, 0#32⟩).1.minLanes + 2 ∧
    ((port7 { Port.reset with enable := false }).port 7).enable = false := by decide +kernel

theorem test_packets_not_taken :
    busy.fab.fid ≠ 0xFFF ∧ (fabPacket 8 7 3 1 []).dest.toNat ≠ busy.fab.fid ∧ isPairPacket (fabPacket 7 8 3 1 []) = false ∧
    (fabPacket 7 8 3 1 []).dest.toNat = busy.fab.fid ∧ busy.admits { fabPacket 7 8 3 1 [] with tag := 6#32 } = none := by decide +kernel

/-! A REDUCE of devices 7 and 8, which has started here and has heard of nobody. -/

def twoDevices : Mapping := { epoch := 0, self := 0, width := 1, replicas := 1, tag := 5, devs := [⟨7, 0, 512⟩, ⟨8, 512, 512⟩] }
def jobOfTwo : Job := { job with mapping := twoDevices, prior := none }
def reduce : List Byte := bytes [(1, 1), (1, 1), (1, 1), (1, 0), (4, 4), (8, 0), (8, 0x3000), (8, 0)] ++ matrix 1 1 0 8 8 ++ matrix 2 1 0x1000 8 8
def entry (op : Nat) (p : List Byte) : Work :=
  { seq := 5, opcode := op, job := 0, ctx := some 0, params := p, step := 0, attempt := 0, running := false, cancelling := false,
    cancelBy := [], counts := [], host := none, op := none, coll := none }
/-- `busy` with one entry, at the head of queue 0. -/
def queued (j : Job) (w : Work) : State :=
  { busy with
    jobs := [(0, some j)], ctxs := [(0, some { ctx with queue := [5] })], works := [w]
    journal := { busy.journal with slots := store Slot.empty busy.journal.slots 5 { Slot.empty with
      seq := 5#32, opcode := w.opcode, state := 1, ctx := w.ctx.getD 255 } } }
def startedColl : Work :=
  { entry 0x0501 reduce with running := true, coll := some {
      started := true, id := 4, crc := 0#32, readyFrom := [], joinFrom := [8], sentTo := [], joinSent := true, got := [], dBytes := 0,
      rooted := [], poisoned := false, farPoison := false, lastPacket := none, held := [], writesLeft := 0, peerWait := false } }
def collecting : State := queued jobOfTwo startedColl
def heardData (k : FabPacket) : State :=
  ((collecting.sendPacket (packetAck k)).countLink true 0 k.payload.length).modJob 0 fun j => { j with delivered := deliveryKey k :: j.delivered }

theorem test_collective_packets :
    collecting.admits (fabPacket 7 8 1 4 (zeros 4)) = some (0, jobOfTwo) ∧
    (collecting.collFor 0 jobOfTwo (fabPacket 7 8 1 4 (zeros 4))).isSome = true ∧ le (zeros 4) 0 4 = 0 ∧
    ((fabPacket 7 8 1 4 []).pkind.toNat = pkREADY) ∧ ((fabPacket 7 8 3 4 []).pkind.toNat = pkJOIN) ∧
    jobOfTwo.delivered.contains (deliveryKey (fabPacket 7 8 2 4 (zeros 4))) = false ∧
    ((heardData (fabPacket 7 8 2 4 (zeros 4))).collFor 0 jobOfTwo (fabPacket 7 8 2 4 (zeros 4))).isSome = true ∧
    (collViewOf (heardData (fabPacket 7 8 2 4 (zeros 4))) jobOfTwo startedColl).isSome = true ∧
    { jobOfTwo with delivered := [deliveryKey (fabPacket 7 8 2 4 [])] }.delivered.contains (deliveryKey (fabPacket 7 8 2 4 [])) = true ∧
    jobOfTwo.step = 0 ∧ jobOfTwo.attempt = 0 ∧ jobOfTwo.aborted = false := by decide +kernel

/-- A device with a route to device 8 over port 7. -/
def reached : State := { port7 up7 with fab := { (port7 up7).fab with routes := [(8, { valid := true, primary := 7, altValid := false, alt := 0 })] } }

/-- A late packet; a peer that was late as often as the policy lets it, one without a route; a spare that is due. -/
theorem test_peer_events :
    ([((fabPacket 8 7 2 4 [] : FabPacket), (none : Option Nat))].any fun e => e.1 == fabPacket 8 7 2 4 []) = true ∧
    (collecting.recordLate 5).work 5 = some startedColl ∧ jobOfTwo.mapping.devs[1]? = some ⟨8, 512, 512⟩ ∧ 1 ≠ jobOfTwo.mapping.self ∧
    jobOfTwo.lost.contains 1 = false ∧ ([(1, 2, true)].any fun (l : Nat × Nat × Bool) => l.1 == 1 && decide (jobOfTwo.lossAttempts ≤ l.2.1)) = true ∧
    collecting.unreachable 8 = true ∧ collecting.host.txHeld = [] ∧ reached.unreachable 8 = false ∧
    { jobOfTwo with policy := 2, peerState := 1 }.policy = 2 := by decide +kernel

/-! ### Statements about mirror pairs, checkpoints and leases -/

def holding (j : Job) : State := { busy with jobs := [(0, some j)] }
def pairJob : Job := { job with stateSet := some stateSet, pair := some pair }
/-- A packet of partner 8. -/
def pairPkt (kind cid : Nat) : FabPacket := fabPacket 7 8 kind cid []
/-- A restore from the partner, and the image that a secondary receives. -/
def restoring : Job := { pairJob with restore := some { seq := 5, target := 3, step := 0, started := 0, poison := none, left := [] } }
def receiving : Job := { pairJob with pair := some { pair with receiving := some (1, 0), got := [0] } }

/-- A primary whose partner is ready before a copy, behind one that has gone out, and for one that waits. -/
def sender (sending : Option Copy) (gone : Bool) : Job :=
  { job with stateSet := some stateSet, pair := some { pair with secondary := false, sending := sending, gone := gone } }
def copy3 : Copy := { seq := 0, target := 0, step := 3, started := 0, poison := none, left := [] }

theorem test_pair_packets :
    isPairPacket (pairPkt 1 0xFFFFFFFD) = true ∧ busy.fab.fid ≠ 0xFFF ∧ (pairPkt 1 0xFFFFFFFD).dest.toNat = busy.fab.fid ∧
    busy.jobOfTag (pairPkt 1 0xFFFFFFFD).tag.toNat = some 0 ∧
    [job, pairJob, restoring, receiving, sender none false, sender (some copy3) true, sender (some copy3) false].all (fun j => ((holding j).pairHeard 0 (pairPkt 1 0xFFFFFFFD)).job 0 == some j) = true ∧
    pair.newestImage = some (0, 3) ∧ (pairPkt 1 0xFFFFFFFD).src.toNat = pair.partner ∧ (pairPkt 3 cidHello).collId.toNat = cidHello ∧
    job.pair = none ∧ copyOffset (pairPkt 2 0xFFFFFFFD) + 4096 ≤ stateSet.bytes ∧ stateSet.regionDa (copyOffset (pairPkt 2 0xFFFFFFFD)) = some 0 ∧
    receiving.restore = none ∧ (receiving.pair.any fun q => q.secondary && q.receiving == some (1, (pairPkt 2 0xFFFFFFFD).step.toNat) && !q.got.isEmpty) = true ∧
    (restoring.restore.any fun i => i.target == 3) = true := by decide +kernel

/-- A checkpoint into slot B of which 32 bytes are still to be read. -/
def checkpointing : Job := { pairJob with checkpoint := some { copy3 with target := 1, left := [(0, 2 ^ 48 + 2 ^ 24 + 2 ^ 21, 32)] } }

theorem test_pair_events :
    [pairJob, { job with pair := some { pair with state := 0 } }].all (fun j => (holding j).job 0 == some j) = true ∧ pair.state = 1 ∧
    (((holding checkpointing).ckptReads 0 fun _ => true).job 0).any (fun j => j.checkpoint.isSome && j.stateSet.isSome) = true ∧
    gotAll stateSet (List.range 512) = true ∧ gotAll stateSet (List.range 511) = false ∧
    restoreWhole pairJob { seq := 5, target := 0, step := 0, started := 0, poison := none, left := [] } stateSet = true ∧
    restoreWhole { pairJob with pair := some { pair with got := List.range 512 } } { seq := 5, target := 3, step := 0, started := 0, poison := none, left := [] } stateSet = true ∧
    { pair with applying := true }.newestImage = some (0, 3) ∧ { Lease.reset with state := 1 }.state = 1 := by decide +kernel

/-! ### Statements about entries at the heads of the queues -/

def marker (op : Nat) (p : List Byte) : State := queued job (entry op p)

theorem test_markers_at_head :
    [0x0310, 0x0311, 0x0312, 0x0313, 0x0314, 0x0315, 0x0502, 0x0701].all (fun op =>
      (marker op []).work 5 == some (entry op []) && (marker op []).job 0 == some job && (marker op []).jobClear 5 && (marker op []).ctxClear 5 &&
      (marker op []).atHead 5) = true := by decide +kernel

/-- A barrier over the job, and one over its context that waits for a flag and sets one. -/
theorem test_barriers :
    (BarrierHdr.parse (zeros 40)).job = false ∧ (BarrierHdr.parse (bytes [(1, 1)] ++ zeros 39)).job = true ∧
    (BarrierHdr.parse (bytes [(1, 1)] ++ zeros 39)).waitHost = false ∧ (BarrierHdr.parse (bytes [(1, 1)] ++ zeros 39)).setFlag = false ∧
    (BarrierHdr.parse (bytes [(1, 0), (1, 6)] ++ zeros 38)).waitFlag = true ∧ (BarrierHdr.parse (bytes [(1, 0), (1, 6)] ++ zeros 38)).setFlag = true ∧
    (BarrierHdr.parse (bytes [(1, 0), (1, 6)] ++ zeros 38)).waitVal ≤ (marker 0x0311 []).rdNat 0 8 ∧
    (marker 0x0311 []).badBefore ((marker 0x0311 []).barrierCtxs (entry 0x0311 []) true) 5 = false := by decide +kernel

/-- A gradient set of 1 × 1 blocks of seven frames, the next mapping, and a commit of step 0. -/
theorem test_markers :
    (job.sets.any fun g => g.tensorId == 5) = false ∧ job.sets.length < 8 ∧
    (pinBlocks job.sets 7 ((marker 0x0314 []).pinTiles job) 1 []).isSome = true ∧
    (parseMapping (mapping 1 5)).epoch = (job.mapping.epoch + 1) % 2 ^ 32 ∧ (parseMapping (mapping 1 5)).width = job.mapping.width ∧
    (parseMapping (mapping 1 5)).replicas = job.mapping.replicas ∧ (parseMapping (mapping 1 5)).tag = job.mapping.tag ∧
    (parseMapping (mapping 2 5)).epoch ≠ (job.mapping.epoch + 1) % 2 ^ 32 ∧ (marker 0x0701 []).fenced 0 = false ∧
    ({ marker 0x0701 [] with lease := { Lease.reset with state := 2 } } : State).fenced 0 = true ∧ le (zeros 8) 0 4 = job.step ∧ job.bad = [] ∧
    le (bytes [(4, 1)]) 0 4 ≠ job.step ∧ { job with bad := [4] }.bad ≠ [] ∧ job.copying = false ∧ (sender (some copy3) true).copying = true := by decide +kernel

/-! Hayloft: a held entry, a bound one, and entries on their way to and from the spill area. -/

def hayEntry (state : Nat) (moving : Option Bool) : HayEntry :=
  { tensorId := 5, microBatch := 0, step := 0, seq := 1, bodyBytes := 256, format := 1, ndim := 2, sparse := false, slotBytes := 0,
    extents := [8, 8], state := state, pushedBy := 1, pushOk := true, pushFinal := true, boundBy := 2, da := 2 ^ 24, spilled := false,
    placed := true, moving := moving, moveTo := 2 ^ 48 }

theorem test_hayloft :
    ([hayEntry 1 none].reverse.find? fun e => e.state != 2) = some (hayEntry 1 none) ∧ (hayEntry 1 none).tensorId = le (bytes [(4, 5)]) 0 4 ∧
    bit (le (bytes [(8, 5), (1, 1)]) 8 1) 0 = true ∧ (hayEntry 1 none).microBatch = le (bytes [(8, 5)]) 4 4 ∧
    ([hayEntry 1 none].any fun x => x.state == 2 && x.tensorId == 5) = false ∧ ([hayEntry 1 none].filter fun x => x.state == 2).length < 16 ∧
    ([hayEntry 2 none].find? fun e => e.state == 2 && e.tensorId == 5) = some (hayEntry 2 none) ∧
    (((marker 0x0313 (bytes [(8, 5)])).before 5).any fun v => v.ctx == some 0 && seqBefore 2 v.seq && v.readTensors.any fun t => t.id == 5) = false ∧
    busy.entryBusy (hayEntry 1 (some true)) = false ∧ busy.entryBusy (hayEntry 1 (some false)) = false ∧
    ([hayEntry 1 (some true)].find? fun e => e.moving == some true) = some (hayEntry 1 (some true)) ∧
    ([hayEntry 1 (some false)].reverse.find? fun e => e.moving == some false) = some (hayEntry 1 (some false)) := by decide +kernel


/-! ### Statements about operations, collectives and streams -/

def tiling (p : List Byte) : Tiling :=
  match mkView job.mapping (OpDesc.parse p) with
  | some v => (match tilingOf job v [] [] with | .ok t => t | .error _ => Tiling.none)
  | none => Tiling.none
def opEntry (p : List Byte) (f : OpRun → OpRun) : Work := { entry 0x0401 p with op := some (f (OpRun.fresh (tiling p) false none none [])) }
/-- A row operation over 8 rows. -/
def rows : List Byte :=
  bytes [(1, 3), (1, 0), (1, 0), (1, 2), (4, 0), (4, 0x3F800000), (4, 0)] ++ zeros 16 ++ matrix 1 1 0 8 8 ++ matrix 2 1 0x1000 8 8
def rowEntry : Work := { entry 0x0316 rows with op := some (OpRun.fresh { Tiling.none with mt := 1, f := 1, items := 8 } false none none []) }
/-- A launch. -/
def launch : List Byte := bytes [(1, 6)] ++ zeros 207
/-- A, of 4 × 4 BF16 values, is sparse: COO tiles of 256 bytes. -/
def sparseProduct : List Byte :=
  bytes [(1, 1), (1, 3)] ++ zeros 162 ++ bytes [(4, 9)] ++ zeros 40 ++
  bytes [(4, 1), (1, 2), (1, 2), (1, 1), (1, 0), (8, 0), (8, 0), (4, 4), (4, 4)] ++ zeros 64 ++ bytes [(2, 1), (2, 1)] ++ zeros 28 ++
  bytes [(1, 3), (1, 0), (1, 0), (1, 0), (4, 256 * 32), (8, 0), (8, 2 ^ 20), (8, 0)] ++ matrix 2 2 0x200000 4 4 ++ matrix 3 1 0x220000 4 4
def sparseHeader : List Byte := TileHdr.bytes ⟨1, kCOO, 2, 0, 4, 4, 3, 0, 0, 0, 0⟩

def opState (w : Work) : State := queued job w
def sparseMem : State := { opState (opEntry sparseProduct id) with mem := storeRun 0#8 [] 0 sparseHeader }
def viewOf (p : List Byte) : Option View := mkView job.mapping (OpDesc.parse p)
/-- The headers that the start of the sparse product records, when no check fails. -/
def sparseHeaders : Option (List (Nat × List Byte)) :=
  (viewOf sparseProduct).bind fun v => let r := v.headerPass sparseMem.byte sparseMem.poisonedAt; if r.1.isNone then some r.2 else none

theorem test_operations_at_head :
    [rowEntry, opEntry launch id, opEntry (product 4 4 4) id, opEntry sparseProduct id].all (fun w =>
      (opState w).work 5 == some w && w.isOp && (opState w).atHead 5 && !(opState w).pushWaits w) = true := by decide +kernel

/-- A row operation and dense and sparse products have what they need at their start. -/
theorem test_operations_start :
    ((mkRowView job.mapping (RowDesc.parse rows)).any fun v => v.boundOk ctx && ((opState rowEntry).scratchPlace 0 job
      (if v.empty then 0 else v.scratchSpan 1)).isSome) = true ∧ (OpDesc.parse launch).kind = 6 ∧
    ((viewOf (product 4 4 4)).any fun v => v.boundStatus ctx == 0 && v.sparseInputs.isEmpty &&
      ((opState rowEntry).scratchPlace 0 job (v.scratchSpan (tiling (product 4 4 4)) 0)).isSome) = true ∧
    ((viewOf (patchParams ctx (product 4 4 4) 208 (((viewOf (product 4 4 4)).map View.ops).getD []) [])).isSome) = true ∧
    sparseHeaders.isSome = true ∧ ((viewOf sparseProduct).any fun v => !v.sparseInputs.isEmpty && !v.empty &&
      (match tilingOf job v [] (v.leadKinds (sparseHeaders.getD [])) with | .ok t => decide (sparseMem.poolUsed + bitmapBytes t.items ≤ poolBytes) | .error _ => false)) = true := by decide +kernel

/-- A push without a place makes a start wait; an apply pass that has applied everything ends. -/
def pushing : Work := opEntry ((product 4 4 4).set 4 8#8) fun o => { o with pushSeq := some 1 }
def applying : Work := opEntry (product 4 4 4) fun o => { o with started := true, applying := true, ordered := true }
theorem test_operations_wait :
    (({ opState pushing with ctxs := [(0, some { ctx with queue := [5], hay := [{ hayEntry 0 none with placed := false }] })] } : State).pushWaits pushing &&
      (OpDesc.parse pushing.params).skipUnselected) = true ∧ (applying.op.any fun o => o.applying) = true ∧ applying.cancelling = false ∧
    ((((opState applying).applyFirst 5 ((opState applying).applyCount 5)).modOp 5 fun o => { o with applying := false }).work 5).isSome = true := by
  decide +kernel

/-- A collective that may start, one whose attempt has been aborted, and one that has all it needs. -/
def emptyReduce : List Byte := bytes [(1, 6)] ++ zeros 31
theorem test_collectives_run :
    (queued jobOfTwo (entry 0x0501 reduce)).work 5 = some (entry 0x0501 reduce) ∧ (entry 0x0501 reduce).isColl = true ∧
    (queued jobOfTwo (entry 0x0501 reduce)).atHead 5 = true ∧ jobOfTwo.aborted = false ∧
    jobOfTwo.collIds.contains (collIdOf jobOfTwo (entry 0x0501 reduce)) = false ∧
    (queued jobOfTwo (entry 0x0501 reduce)).collBoundOk (entry 0x0501 reduce) jobOfTwo = true ∧
    (collViewOf (queued jobOfTwo (entry 0x0501 reduce)) jobOfTwo
      ((queued jobOfTwo (entry 0x0501 reduce)).patchColl (entry 0x0501 reduce) jobOfTwo)).isSome = true ∧
    { jobOfTwo with aborted := true }.aborted = true ∧
    ((collViewOf collecting jobOfTwo (entry 0x0501 emptyReduce)).any fun v => startedColl.coll.any fun c => c.complete (entry 0x0501 emptyReduce) jobOfTwo v) =
      true := by decide +kernel

/-- Stream 63 waits; a stream, an operation and a release end. -/
def armed : Stream := { Stream.reset with state := .waiting, body := some ⟨5, arm 255, 0, none⟩ }
def streaming : State := { busy with jobs := [(0, some { job with streams := [(63, armed)] })] }
def cancelled : Work := { entry 0x0210 (arm 255) with ctx := none, cancelling := true }

theorem test_streams_and_releases :
    (streaming.stream 0 63).body = some ⟨5, arm 255, 0, none⟩ ∧ (streaming.stream 0 63).state = .waiting ∧ (streaming.stream 0 63).moving = false ∧
    streaming.triggerMet armed ⟨5, arm 255, 0, none⟩ (StreamHdr.parse (arm 255)) = true ∧ (queued job cancelled).readsOut 5 = false ∧
    (queued job cancelled).issuedOut 5 = false ∧ (queued job cancelled).work 5 = some cancelled ∧
    ({ job with releasing := some 5 }.releasing = some 5) ∧ (busy.works.any fun w => w.job == 0 && w.cancelling) = false ∧
    { job with modifying := [5], leaving := 1#20 }.modifying ≠ [] ∧ ((tilesOf 1#20).any fun n => (busy.tile n).item.isSome) = false := by decide +kernel


/-! ### Statements about tiles and skips -/

/-- Tile 0 works on item 0 of an operation. -/
def tiled (p : List Byte) (f : Tile → Tile) (g : OpRun → OpRun) : State :=
  { opState (opEntry p fun o => g { o with started := true }) with tiles := [(0, f { Tile.reset with item := some ⟨5, 0⟩ })] }
def dense4 : List Byte := product 4 4 4

theorem test_items_taken :
    (let s := tiled dense4 (fun t => { t with item := none }) id
     !(s.tile 0).quarantined && !s.waitsForSignal 0 && (s.tile 0).phase == .idle && (s.sendTake 0).offer 0 == some ⟨5, 0⟩) = true ∧
    (let s := tiled dense4 (fun t => { t with phase := .compute }) id
     (s.tile 0).round == s.tileLast ⟨5, 0⟩ && (s.sendTake 0).offer 0 == some ⟨5, 0⟩) = true ∧
    (busy.sendTake 0).offer 0 = none ∧ (busy.tile 0).quarantined = false ∧ busy.waitsForSignal 0 = false ∧
    { Tile.reset with quarantined := true }.quarantined = true := by decide +kernel

theorem test_items_pulled :
    (let s := tiled dense4 (fun t => { t with phase := .load, pulls := [(47, 0, 256)] }) id
     s.pullTarget 0 == some (⟨5, 0⟩, 0) && ((s.tile 0).pulls.any fun p => p.1 == 47) &&
      (match s.workOf ⟨5, 0⟩ with | some q => !((q.reads 0).any fun a => !s.mayAccess q.w q.o a.2.1 a.2.2) | none => false)) = true ∧
    (let s := { tiled dense4 (fun t => { t with phase := .load }) id with jobs := [(0, some { job with regions := [] })] }
     s.pullTarget 0 == some (⟨5, 0⟩, 0) &&
      (match s.workOf ⟨5, 0⟩ with | some q => ((q.reads 0).any fun a => !s.mayAccess q.w q.o a.2.1 a.2.2) | none => false)) = true := by decide +kernel

/-- A read of skip 47, kept and marked, whose units are sound. -/
def reading (marked : Bool) : State := { busy with skips := [(47, { Skip.reset with reads := [⟨5, 0, 256, 256, 0, [], marked⟩] })] }
theorem test_reads_return :
    [false, true].all (fun m => ((reading m).skip 47).reads == [⟨5, 0, 256, 256, 0, [], m⟩] && !(reading m).tierWaits 256 256 &&
      (((reading m).applyEccs 256 ([] : List Ecc)).countMoved 5 256 256).firstPoison 256 256 == none) = true := by decide +kernel

theorem test_items_computed :
    (let s := tiled dense4 (fun t => { t with phase := .load, pullSent := true }) id
     (s.tileWork 0).isSome && (s.tile 0).waitFor.isEmpty && (s.tile 0).pulls.isEmpty) = true ∧
    (let s := tiled dense4 (fun t => { t with phase := .compute }) id
     match s.tileWork 0, viewOf dense4 with
     | some q, some v => (match s.curRun 0 q, q.rounds[0]? with
       | some (p, slot), some (k0, len) =>
         let u := (s.unitFaults 0 noFault).1.readSlot 0 q slot
         q.runsK && !q.scatter && (s.tile 0).waiting.isNone && !(s.unitFaults 0 noFault).2 &&
           (u.recordChecks q (s.feed 0 q v) (q.runTiles v (s.feed 0 q v) (s.tile 0) p k0 len) (s.tile 0)).2 &&
           (s.unitFaults 0 { noFault with attempts := [[.arrayMod3], [.arrayMod3], [.arrayMod3], [.arrayMod3]] }).2
       | _, _ => false)
     | _, _ => false) = true := by decide +kernel

/-- A partial that waits in bank 15 of a tile whose item takes SCATTER. -/
def scattering : State :=
  tiled sparseProduct (fun t => { t with phase := .compute, banks := [(15, [⟨0, 127, 0x3F800000#32, false⟩])], bankTurn := 15 })
    fun o => { o with headers := sparseHeaders.getD [] }
theorem test_scattered :
    (match scattering.tileWork 0 with
     | some q => (match scattering.curRun 0 q, q.rounds[0]?, viewOf sparseProduct with
       | some (p, slot), some (k0, len), some v =>
         let t := (scattering.tile 0).toNextAdd slot ((scattering.feed 0 q v).partials q.it.batch p k0 len)
         q.scatter && (scattering.tile 0).waiting.isNone && t.nextBank == some 15 && (t.queue 15).head?.isSome &&
           !((scattering.setTile 0 t).unitFaults 0 noFault).2 &&
           decide (((scattering.feed 0 q v).partials q.it.batch p k0 len).length ≤ (scattering.tile 0).partials)
       | _, _, _ => false)
     | none => false) = true := by decide +kernel

/-- The head of the finished-tile queue retires; so does a tile of an item without k-runs; and the item stores. -/
theorem test_items_retire_and_store :
    (let s := tiled dense4 (fun t => { t with phase := .compute, ftq := [⟨.epilogue, 0, 0, 0, 0⟩] }) id
     (s.tileWork 0).any fun q => q.runsK && (s.tile 0).ftq == [⟨.epilogue, 0, 0, 0, 0⟩]) = true ∧
    (let s : State := { opState { rowEntry with op := some { OpRun.fresh { Tiling.none with mt := 256, f := 1, items := 1 } false none none [] with
       started := true } } with tiles := [(0, { Tile.reset with item := some ⟨5, 0⟩, phase := .compute })] }
     (s.tileWork 0).any fun q => !q.runsK && q.live[(s.tile 0).retired]?.isSome) = true ∧
    (let s := tiled dense4 (fun t => { t with phase := .compute, runs := 1, retired := 1 }) id
     (s.tileWork 0).any fun q => (s.tile 0).round + 1 == q.rounds.length && (s.tile 0).runs == q.live.length &&
       (s.tile 0).retired == q.live.length && !s.pushWaits q.w) = true ∧
    (let s := tiled dense4 (fun t => { t with phase := .store }) id
     (s.tile 0).storesLeft == 0 && (s.work 5).isSome) = true := by decide +kernel

/-- Skip 0 has a write to issue, and is at its limit; one of its writes is performed. -/
def write0 : WriteReq := { owner := .tile 0, handle := 100, da := 0, bytes := [1#8], add := 0, poison := false, hay := false }
def writing (n : Nat) : State := { busy with skips := [(0, { Skip.reset with arrived := [write0], issued := List.replicate n write0 })] }
/-- A checkpoint of job 0 has still to read what the write changes; and HBM stack 0 relocks. -/
def copied : State := { writing 1 with
  jobs := [(0, some checkpointing)], journal := { busy.journal with slots := [(100, { Slot.empty with seq := 100#32, state := 1 })] } }
def relocking : State := { writing 1 with sec := { busy.sec with relocking := [.hbm 0] } }

theorem test_writes :
    (writing 511).tierWaits 0 1 = false ∧ (writing 511).heldByCopy write0 = none ∧ copied.heldByCopy write0 = some 0 ∧ copied.tierWaits 0 1 = false ∧
    relocking.tierWaits 0 1 = true ∧
    ((writing 511).skip 0).issued.length < Skip.writeLimit (writing 511) 0 ∧ Skip.writeLimit (writing 512) 0 ≤ ((writing 512).skip 0).issued.length ∧
    (((((writing 1).countHold 0 write0).setSkip 0 (((writing 1).countHold 0 write0).skip 0)).countMoved 100 0 1).entry 100).isSome = true ∧ ((writing 1).skip 0).issued = write0 :: [] := by
  decide +kernel

/-- The limits of a tile, an atomic access that is allowed and three that are refused, a flag, and the tiles of a launch. -/
def launched (k : Nat) : State :=
  { opState (opEntry launch fun o => { o with started := true, compatTiles := List.range k }) with jobs := [(0, some { job with compat := true })] }

theorem test_tile_events :
    64 ≤ { Tile.reset with recovered := 64 }.recovered ∧ 4 ≤ { Tile.reset with ecc := [⟨0, 4⟩, ⟨0, 0⟩, ⟨0, 0⟩, ⟨0, 0⟩] }.uncorrSum ∧
    busy.atomicStatus 0 (access 0) = 0 ∧ busy.atomicStatus 0 (access 0xBFFC0) = 0 ∧ busy.atomicStatus 0 (access 0xC0000) = St.paramTarget ∧
    busy.atomicStatus 0 (access 2) = St.paramAlign ∧ busy.atomicStatus 799 (access 0) = St.secWindow ∧ ((launched 0).launchAt 1).isSome = true ∧
    (launched 0).atomicStatus 799 (access 0) = St.secWindow ∧ job.inRegions 0 8 = true ∧
    (((launched 0).launchAt 0).any fun x => !x.2.compatTiles.contains 0 && x.2.compatTiles.length + 1 != job.tiles.length) = true ∧
    (((launched 39).launchAt (job.tiles.getD 39 0)).any fun x => !x.2.compatTiles.contains (job.tiles.getD 39 0) &&
      x.2.compatTiles.length + 1 == job.tiles.length) = true ∧ (launched 0).holder (paddockOf 0) = some 0 := by decide +kernel


/-! ### Statements about memory, power, clocks, reset and boot -/

def row (spare : Bool) : DramRow := ⟨0, 0, 0, 0, [32], spare⟩

theorem test_memory_events :
    busy.tierWaits (hbmBytes - 1) 1 = false ∧ busy.tierWaits (2 ^ 48) 1 = false ∧ busy.inTier (hbmBytes - 1) = true ∧ busy.inTier (2 ^ 48) = true ∧ busy.inTier hbmBytes = false ∧
    ({ busy with memInfo := { busy.memInfo with failed := [32] } } : State).rowFails (row true) = true ∧
    ({ busy with corrections := [(32, 8)] } : State).rowFails (row false) = true ∧ ({ busy with corrections := [(32, 7)] } : State).rowFails (row true) = false ∧
    ({ busy.memInfo with test := some ⟨5, 0, 0, 32⟩ }.test.isSome) = true := by decide +kernel

def hot439 : Telemetry := { cold with tempQc := List.replicate 20 439 }
/-- Paddock 0, which job 0 holds, in the power state that a clause asks for. -/
def powered (f : Power → Power) : State := { busy with power := f busy.power }

/-- What a period of the cap loop has read before it decides. -/
def polled (s : State) (t : Telemetry) : State := (((s.takeCap).readTelemetry t).readHour).readVrms t.vrmStatus

theorem test_power_events :
    busy.sec.off = false ∧ (polled busy hot439).tooHot = false ∧ (polled busy { hot439 with tempQc := List.replicate 20 440 }).tooHot = true ∧
    (polled busy hot439).sec.off = false ∧
    (powered fun w => { w with rails := [(7, ⟨0, 0, 3⟩)] }).power.stale = true ∧ busy.held 0 = true ∧ busy.limitQc = 400 ∧
    (powered fun w => { w with railPoint := [(3, 3)], railTarget := [(3, 2)] }).railTo 3 < (powered fun w => { w with railPoint := [(3, 3)], railTarget := [(3, 2)] }).railAt 3 ∧
    busy.droopLevel 0 0 = 2 ∧ busy.droopLevel 0 2000 = 0 ∧ (busy.paddock 0).stretch < busy.droopLevel 0 0 ∧
    (powered fun w => { w with ramps := [(3, .down)] }).ramp 3 = .down ∧
    busy.inForceMv 3 + 10 < 2000 + busy.threshMv ∧ 10 * busy.power.hold ≤ 100000 ∧ 0 < 10 * busy.power.hold ∧ busy.sec.resetLow = false ∧
    ((powered fun w => { w with paddocks := [(19, { Paddock.reset with stretch := 1 })] }).paddock 19).stretch ≠ 0 ∧
    (let x := (powered fun w => { w with paddocks := [(0, { Paddock.reset with tempQc := 400 })] }).paddock 0; 400 ≤ x.tempQc ∧ x.hot = 0) ∧
    (let x := (powered fun w => { w with paddocks := [(0, { Paddock.reset with tempQc := 387, thermal := some 1 })] }).paddock 0
     x.tempQc < 400 - 12 ∧ x.cool = 0 ∧ x.thermal = some 1) ∧ busy.power.powerFail = false ∧ busy.power.feedSag = false := by decide +kernel

theorem test_clock_faults :
    busy.sec.warmPending = none ∧ (powered fun w => { w with hbmLock := 0x80#8 }).locked (.hbm 7) = true ∧
    (powered fun w => { w with rootLock := true }).locked .root = true ∧ [Pll.host].contains .host = true := by decide +kernel

def answers (o : Host.Outcome State Fault Refusal) (p : State → Bool) : Bool := match o with | .next t => p t | _ => false

/-- The device in a stage of its boot. -/
def booting (f : Security → Security) : State := { State.reset with sec := f { Security.reset with resetLow := false } }

theorem test_boot_events :
    (booting fun x => { x with warmPending := some .rootPll }).warmReady .rootPll = true ∧
    (booting fun x => { x with warmPending := some .command }).warmReady .command = true ∧ State.reset.sec.resetLow = true ∧
    (booting id).starting .root = true ∧ (booting fun x => { x with pllNext := 13 }).starting .host = true ∧
    (booting fun x => { x with pllNext := 1 }).starting (.hbm 0) = true ∧ busy.starting (.fab true) = false ∧ [Pll.fab true].contains (.fab true) = true ∧
    (booting fun x => { x with stage := 3, reloading := true }).sec.reloading = true ∧ (booting fun x => { x with stage := 3 }).sec.reloading = false := by
  decide +kernel

/-- With no image in either bank, stage 0 and stage 1 halt with failure code 1; and the main image of a reload. -/
theorem test_no_image :
    answers (exec .romStageEnd (booting fun x => { x with stage := 1 })) (fun t => t.sec.failCode == 1) = true ∧
    answers (exec .stage1End (booting fun x => { x with stage := 2 })) (fun t => t.sec.failCode == 1) = true ∧
    answers (exec .stage1End (booting fun x => { x with stage := 2, reloading := true })) (fun t => t.sec.failCode == 1) = true := by decide +kernel

theorem test_sideband_and_report :
    busy.sidebandUp = true ∧ State.reset.sidebandUp = false ∧ (0x58#7).toNat = 0x58 + busy.sec.sbAddr ∧ (0x59#7).toNat ≠ 0x58 + busy.sec.sbAddr ∧
    (zeros 8).length = 8 ∧ min 64 (64 : Nat) = 64 ∧ { busy.sec with attesting := [(5, zeros 32)] }.attesting = [(5, zeros 32)] := by
  decide +kernel

/-! ### Statements about every step, frames and layout -/

/-- A sound state whose tile 799 is quarantined and whose unit 32 is retired; it steps. -/
def steady : State :=
  { busy with
    poison := [(32, true)], retired := [(32, true)], tiles := [(799, { Tile.reset with quarantined := true })], pending := [.flagPoll 0] }

theorem test_steady : Memory.wf steady.mem = true ∧ (∀ u, lookup false steady.retired u = true → lookup false steady.poison u = true) ∧
    steady.quarantinedAt 799 = true ∧ ready.pending = [] ∧ answers (step steady) (fun t => t.pending.isEmpty) = true ∧
    answers (step ready) (fun t => t.sclk == 1) = true := by
  refine ⟨by decide +kernel, fun u h => h, by decide +kernel, rfl, by decide +kernel, by decide +kernel⟩

/-- A command of each frame statement is answered with a next state. -/
theorem test_frames_answer :
    [.pfcFrame 3#3 { quanta := 0xFFFF#16 }, .fabPortEnable 7 false, .tileCntClrAcc 799, .telemetryLost, .brakeNRelease, .vrmRecoveryTimer .powerFail, .resetNFall].all
      (fun c => answers (exec c busy) fun _ => true) = true ∧ [Instr.flagPoll 0] ≠ .resetNFall :: [] ∧ busy.host.held = [] := by decide +kernel

/-- `MEM_WRITE` of one byte at the end of a region, of the last bytes before a tile's reserved bytes and of the first of them. -/
def write8 (da : Nat) : Packet := packet 0 255 (bytes [(8, da), (4, 8), (4, 0), (8, 0x0807060504030201)])
theorem test_mem_writes :
    [windowDA 0 0x11F7F8, windowDA 0 0x11F9C0, 2 ^ 30 - 8].all (fun a => !busy.tierWaits a 8 && !busy.copyLacks 0 a 8 &&
      commandStatus (busy.received (write8 a)) 0x0202 0 255 (write8 a).params == 0) = true ∧
    answers (exec (.memWrite (write8 (2 ^ 30 - 8))) busy) (fun t => t.byte (2 ^ 30 - 1) != busy.byte (2 ^ 30 - 1)) = true := by decide +kernel

/-- Values at the ends of the ranges that the statements about layout and arithmetic name. -/
theorem test_layout :
    paddockOf 799 = 19 ∧ paddockOf 0 = 0 ∧ partRange 100 3 16 2 = (80, 20) ∧ hbmStack 0 = 0 ∧ 384 * 2 ^ 30 - 1 < hbmBytes ∧ busy.held 0 = true ∧
    (twosComp 8 128 * twosComp 8 128).natAbs = 2 ^ 14 ∧ 4 * [1, 2].length ≤ 8 * 1 ∧ packBytes 4 1 [1, 2] = [0x21#8] := by decide +kernel

/-! ### Values from outside the model: check values of the standards that the spec names -/

/-- CRC-32C of the digits 1 to 9, the check value of its definition. -/
theorem test_crc32c : crc32c ((List.range 9).map fun i => BitVec.ofNat 8 (0x31 + i)) = 0xE3069283#32 := by decide +kernel

/-- SHA-384 of "abc" begins with these bytes (FIPS 180-4). -/
theorem test_sha384 : (sha384 [0x61#8, 0x62#8, 0x63#8]).take 8 = [0xCB#8, 0x00#8, 0x75#8, 0x3F#8, 0x45#8, 0xA3#8, 0x5E#8, 0x8B#8] := by decide +kernel

/-- SHA-256 and SHA-512 of "abc" begin with these bytes (FIPS 180-4). -/
theorem test_sha256 : (sha256 [0x61#8, 0x62#8, 0x63#8]).take 8 = [0xBA#8, 0x78#8, 0x16#8, 0xBF#8, 0x8F#8, 0x01#8, 0xCF#8, 0xEA#8] := by decide +kernel
theorem test_sha512 : (sha512 [0x61#8, 0x62#8, 0x63#8]).take 8 = [0xDD#8, 0xAF#8, 0x35#8, 0xA1#8, 0x93#8, 0x61#8, 0x7A#8, 0xBA#8] := by decide +kernel

end Sys2Proof.Tests
end

section
/-! SUPPORT and CLAIM. The geometry of the mesh (R22): coordinates of a tile, the column and row bands of a paddock, and the
forty tiles of a paddock counted by an explicit numbering. -/

namespace Sys2Proof.Machine

@[simp] theorem tileX_row_col {x : Nat} (y : Nat) (hx : x < 32) : tileX (32 * y + x) = x := by
  simp only [tileX]; omega

@[simp] theorem tileY_row_col {x : Nat} (y : Nat) (hx : x < 32) : tileY (32 * y + x) = y := by
  simp only [tileY]; omega

theorem row_col_of_tile (n : Nat) : 32 * tileY n + tileX n = n := Nat.div_add_mod n 32

theorem tileX_lt (n : Nat) : tileX n < 32 := Nat.mod_lt n (by decide)

theorem tileY_lt {n : Nat} (hn : n < 800) : tileY n < 25 := Nat.div_lt_of_lt_mul hn

theorem paddockOf_row_col {x : Nat} (y : Nat) (hx : x < 32) : paddockOf (32 * y + x) = 5 * (x / 8) + y / 5 := by
  rw [paddockOf, tileX_row_col y hx, tileY_row_col y hx]

/-- The paddock of a tile of the mesh determines its band of columns and its band of rows. -/
theorem paddockOf_eq_iff {n p : Nat} (hn : n < 800) :
    paddockOf n = p ↔ tileX n / 8 = p / 5 ∧ tileY n / 5 = p % 5 := by
  have hy := tileY_lt hn
  simp only [paddockOf]
  omega

theorem paddockOf_lt {n : Nat} (hn : n < 800) : paddockOf n < 20 := by
  have hx := tileX_lt n
  have hy := tileY_lt hn
  simp only [paddockOf]
  omega

theorem quarterOf_eq_paddockOf_div {n : Nat} (hn : n < 800) : quarterOf n = paddockOf n / 5 :=
  ((paddockOf_eq_iff hn).1 rfl).1

theorem quarterOf_columns (n : Nat) : 8 * quarterOf n ≤ tileX n ∧ tileX n ≤ 8 * quarterOf n + 7 := by
  simp only [quarterOf]
  omega

theorem paddockOf_rows {n : Nat} (hn : n < 800) :
    5 * (paddockOf n % 5) ≤ tileY n ∧ tileY n ≤ 5 * (paddockOf n % 5) + 4 := by
  obtain ⟨-, hrow⟩ := (paddockOf_eq_iff hn).1 rfl
  omega

/-- The tile at place `i` of paddock `p`, whose 40 places are numbered row by row. -/
def paddockTile (p i : Nat) : Nat := 32 * (5 * (p % 5) + i / 8) + (8 * (p / 5) + i % 8)

theorem paddockTile_injective (p : Nat) : Function.Injective (paddockTile p) := by
  intro i k h
  simp only [paddockTile] at h
  omega

/-- The places of a paddock reach exactly the tiles of the mesh that `paddockOf` puts there. -/
theorem exists_paddockTile_iff {p n : Nat} (hp : p < 20) :
    (∃ i, i < 40 ∧ paddockTile p i = n) ↔ n < 800 ∧ paddockOf n = p := by
  constructor
  · rintro ⟨i, hi, rfl⟩
    refine ⟨by simp only [paddockTile]; omega, ?_⟩
    rw [paddockTile, paddockOf_row_col _ (by omega)]
    omega
  · rintro ⟨hn, hpad⟩
    obtain ⟨hcol, hrow⟩ := (paddockOf_eq_iff hn).1 hpad
    have hxy := row_col_of_tile n
    refine ⟨8 * (tileY n % 5) + tileX n % 8, by omega, ?_⟩
    simp only [paddockTile]
    omega

theorem filter_paddockOf_perm {p : Nat} (hp : p < 20) :
    ((List.range 800).filter fun n => paddockOf n == p).Perm ((List.range 40).map (paddockTile p)) := by
  rw [List.perm_ext_iff_of_nodup (List.nodup_range.filter _) (List.nodup_range.map (paddockTile_injective p))]
  intro n
  simp [exists_paddockTile_iff hp]

theorem length_filter_paddockOf {p : Nat} (hp : p < 20) :
    ((List.range 800).filter fun n => paddockOf n == p).length = 40 := by
  rw [(filter_paddockOf_perm hp).length_eq, List.length_map, List.length_range]

theorem Job.mem_tiles_iff (j : Job) (n : Nat) : n ∈ j.tiles ↔ n < 800 ∧ j.paddocks.getLsbD (paddockOf n) = true := by
  simp [Job.tiles]

/-- Settles O53: a tile's coordinates give its paddock's bands of columns and rows, and a numbering of the 40 places of a
paddock counts its tiles. -/
theorem paddocksTileTheMesh : Obligations.PaddocksTileTheMesh := by
  refine ⟨fun x y hx _ => ⟨tileX_row_col y hx, tileY_row_col y hx, paddockOf_row_col y hx⟩, fun n hn => ?_,
    fun p hp => length_filter_paddockOf hp, fun j n hn => by simp [Job.mem_tiles_iff, hn]⟩
  obtain ⟨hleft, hright⟩ := quarterOf_columns n
  exact ⟨paddockOf_lt hn, quarterOf_eq_paddockOf_div hn, hleft, hright, paddockOf_rows hn⟩

end Sys2Proof.Machine
end

section
/-! SUPPORT and CLAIM. The 64-bit integer of an INT8 accumulator slot (R52): a pair holds an integer modulo 2⁶⁴, a k-run adds
the sum of its exact products, and fewer than 2⁴⁹ of those stay inside the 64-bit range. -/

namespace Sys2Proof.Machine

theorem Pair.ofInt_words (n : Int) : (Pair.ofInt n).c ++ (Pair.ofInt n).s = BitVec.ofInt 64 n := by
  ext i hi
  simp only [Pair.ofInt, BitVec.getElem_append, BitVec.getElem_setWidth, BitVec.getLsbD_ushiftRight]
  split
  · simp [hi]
  · simp [show 32 + (i - 32) = i by omega, hi]

theorem Pair.ofInt_s (n : Int) : (Pair.ofInt n).s = BitVec.ofInt 32 n := by
  apply BitVec.eq_of_toNat_eq
  simp only [Pair.ofInt, BitVec.toNat_setWidth, BitVec.toNat_ofInt]
  omega

theorem Pair.ofInt_c (n : Int) : (Pair.ofInt n).c = BitVec.ofInt 32 (n / 2 ^ 32) := by
  apply BitVec.eq_of_toNat_eq
  simp only [Pair.ofInt, BitVec.toNat_setWidth, BitVec.toNat_ushiftRight, BitVec.toNat_ofInt, Nat.shiftRight_eq_div_pow]
  omega

/-- A slot gives back what was put into it, reduced to the 64-bit two's-complement range. -/
@[simp] theorem Pair.int_ofInt (n : Int) : (Pair.ofInt n).int = n.bmod (2 ^ 64) := by
  rw [Pair.int, Pair.ofInt_words, BitVec.toInt_ofInt]

theorem Pair.int_ofInt_of_range {n : Int} (hlo : -2 ^ 63 ≤ n) (hhi : n < 2 ^ 63) : (Pair.ofInt n).int = n := by
  rw [Pair.int_ofInt]
  exact Int.bmod_eq_of_le (by omega) (by omega)

@[simp] theorem Pair.int_zero : Pair.zero.int = 0 := by decide

theorem natAbs_twosComp_le (code : Nat) : (twosComp 8 code).natAbs ≤ 2 ^ 7 := by
  have hlo := BitVec.le_toInt (BitVec.ofNat 8 code)
  have hhi := BitVec.toInt_lt (x := BitVec.ofNat 8 code)
  simp only [twosComp]
  omega

theorem natAbs_twosComp_mul_le (a b : Nat) : (twosComp 8 a * twosComp 8 b).natAbs ≤ 2 ^ 14 := by
  rw [Int.natAbs_mul]
  calc (twosComp 8 a).natAbs * (twosComp 8 b).natAbs
      ≤ 2 ^ 7 * 2 ^ 7 := Nat.mul_le_mul (natAbs_twosComp_le a) (natAbs_twosComp_le b)
    _ = 2 ^ 14 := by norm_num

/-- The exact product of one term of an INT8 k-run (R52). -/
def int8Product (q : Nat × Code × Code) : Int := twosComp 8 q.2.1.code * twosComp 8 q.2.2.code

/-- An INT8 k-run adds the sum of its exact products to the slot's integer. -/
theorem runPair_int8 (fa fb : Fmt) (ps : List (Nat × Code × Code)) (p : Pair) :
    runPair .int8 fa fb ps p = Pair.ofInt (p.int + (ps.map int8Product).sum) := by
  have hsum : (ps.map int8Product).foldl (· + ·) p.int = p.int + (ps.map int8Product).sum := by
    rw [List.sum_eq_foldl, ← List.foldl_assoc (op := fun x y : Int => x + y), Int.add_zero]
  rw [← hsum, List.foldl_map]
  rfl

theorem runPair_int8_perm (fa fb : Fmt) {ps qs : List (Nat × Code × Code)} (p : Pair) (h : ps.Perm qs) :
    runPair .int8 fa fb ps p = runPair .int8 fa fb qs p := by
  rw [runPair_int8, runPair_int8, (h.map int8Product).sum_eq]

/-- Fewer than 2⁴⁹ products of magnitude at most 2¹⁴ sum to less than 2⁶³ in magnitude. -/
theorem sum_int8Product_range {ps : List (Nat × Code × Code)} (h : ps.length < 2 ^ 49) :
    -2 ^ 63 ≤ (ps.map int8Product).sum ∧ (ps.map int8Product).sum < 2 ^ 63 := by
  have hterm : ∀ x ∈ ps.map int8Product, -2 ^ 14 ≤ x ∧ x ≤ 2 ^ 14 := by
    intro x hx
    obtain ⟨q, -, rfl⟩ := List.mem_map.1 hx
    have hq : (int8Product q).natAbs ≤ 2 ^ 14 := natAbs_twosComp_mul_le q.2.1.code q.2.2.code
    omega
  have hlo := List.card_nsmul_le_sum _ _ fun x hx => (hterm x hx).1
  have hhi := List.sum_le_card_nsmul _ _ fun x hx => (hterm x hx).2
  simp only [List.length_map, nsmul_eq_mul] at hlo hhi
  omega

/-- Settles O59: a k-run adds a sum of bounded products to the slot's integer, and a sum does not depend on its order. -/
theorem int8SumsAreExact : Obligations.Int8SumsAreExact := by
  refine ⟨natAbs_twosComp_mul_le, fun n => ⟨Pair.ofInt_s n, Pair.ofInt_c n⟩, fun fa fb ps hlen => ?_,
    fun fa fb ps qs p hperm => runPair_int8_perm fa fb p hperm⟩
  obtain ⟨hlo, hhi⟩ := sum_int8Product_range hlen
  rw [runPair_int8, Pair.int_zero, Int.zero_add, Pair.int_ofInt_of_range hlo hhi]
  rfl

end Sys2Proof.Machine
end

section
/-! SUPPORT and CLAIM. The tile kinds that a target kind allows (R118): one equivalence for each row of the rule's table, and
nothing for a target kind outside it. -/

namespace Sys2Proof.Machine

theorem kindAllowed_NM (kind : Nat) : kindAllowed kNM kind = true ↔ kind ∈ [kNM, kDENSE, kZERO] := by
  simp [kindAllowed, kNM, kDENSE, kZERO, or_assoc]

theorem kindAllowed_BLOCK16 (kind : Nat) : kindAllowed kBLOCK16 kind = true ↔ kind ∈ [kBLOCK16, kDENSE, kZERO] := by
  simp [kindAllowed, kBLOCK16, kDENSE, kZERO, or_assoc]

theorem kindAllowed_BITMAP (kind : Nat) :
    kindAllowed kBITMAP kind = true ↔ kind ∈ [kBITMAP, kCOO, kDENSE, kZERO] := by
  simp [kindAllowed, kBITMAP, kCOO, kDENSE, kZERO, or_assoc]

theorem kindAllowed_MASK (kind : Nat) : kindAllowed kMASK kind = true ↔ kind ∈ [kMASK] := by
  simp [kindAllowed, kMASK]

/-- A target kind that is no row of R118's table allows no tile at all; COO, for one, is a tile kind and no target kind. -/
theorem target_of_kindAllowed {target kind : Nat} (h : kindAllowed target kind = true) :
    target = kNM ∨ target = kBLOCK16 ∨ target = kBITMAP ∨ target = kMASK := by
  unfold kindAllowed at h
  split at h
  case h_1 => exact .inl rfl
  case h_2 => exact .inr (.inl rfl)
  case h_3 => exact .inr (.inr (.inl rfl))
  case h_4 => exact .inr (.inr (.inr rfl))
  case h_5 => cases h

/-- R118's table as one equivalence. -/
theorem kindAllowed_iff (target kind : Nat) : kindAllowed target kind = true ↔
    (target = kNM ∧ kind ∈ [kNM, kDENSE, kZERO]) ∨ (target = kBLOCK16 ∧ kind ∈ [kBLOCK16, kDENSE, kZERO]) ∨
      (target = kBITMAP ∧ kind ∈ [kBITMAP, kCOO, kDENSE, kZERO]) ∨ (target = kMASK ∧ kind ∈ [kMASK]) := by
  constructor
  · intro h
    obtain rfl | rfl | rfl | rfl := target_of_kindAllowed h
    · exact .inl ⟨rfl, (kindAllowed_NM kind).1 h⟩
    · exact .inr (.inl ⟨rfl, (kindAllowed_BLOCK16 kind).1 h⟩)
    · exact .inr (.inr (.inl ⟨rfl, (kindAllowed_BITMAP kind).1 h⟩))
    · exact .inr (.inr (.inr ⟨rfl, (kindAllowed_MASK kind).1 h⟩))
  · rintro (⟨rfl, h⟩ | ⟨rfl, h⟩ | ⟨rfl, h⟩ | ⟨rfl, h⟩)
    · exact (kindAllowed_NM kind).2 h
    · exact (kindAllowed_BLOCK16 kind).2 h
    · exact (kindAllowed_BITMAP kind).2 h
    · exact (kindAllowed_MASK kind).2 h

theorem TileHdr.parse_kind (b : List Byte) : (TileHdr.parse b).kind = le b 1 1 := rfl

/-- Settles O58: each row of the table is an equivalence of its own, and no other target kind allows a tile. -/
theorem tileKindsOfATarget : Obligations.TileKindsOfATarget :=
  ⟨TileHdr.parse_kind, ⟨rfl, rfl, rfl, rfl, rfl, rfl, rfl⟩, kindAllowed_iff⟩

end Sys2Proof.Machine
end

section
/-! SUPPORT and CLAIM. `STREAM_ARM` at acceptance (R369, R252): its scope, the queue that its stream header names, and its effect. -/

namespace Sys2Proof.Machine

theorem scopeOf_streamArm : scopeOf opcSTREAM_ARM = some .job := by decide

/-- The queue hangs on byte 3 of the stream header alone: the packet's own context plays no part (R369). -/
theorem queueOf_streamArm (p : Packet) :
    queueOf opcSTREAM_ARM p = if le p.params 3 1 < 16 then some (le p.params 3 1) else none := by
  simp only [queueOf, scopeOf_streamArm, enters, if_true]

/-- Only a `MEM_READ` has error correction look at memory before its effect. -/
theorem State.readChecks_of_ne {opcode : Nat} (h : opcode ≠ 0x0201) (s : State) (p : Packet) :
    s.readChecks opcode p = s := if_neg h

theorem State.effect_of_job {opcode : Nat} (h : scopeOf opcode = some .job) (s : State) (jn c seq step : Nat) (p : List Byte) :
    s.effect opcode jn c seq step p = s.jobEffect opcode jn seq step p := by
  simp only [State.effect, h]

theorem State.effect_streamArm (s : State) (jn c seq step : Nat) (p : List Byte) :
    s.effect opcSTREAM_ARM jn c seq step p = s.armEffect jn seq step p :=
  s.effect_of_job scopeOf_streamArm jn c seq step p

/-- An acceptable `STREAM_ARM`: the context of its entry and the queue both come from the stream header, nothing is checked
in memory, and the effect is the arm. -/
theorem submit_streamArm {s : State} {p : Packet} (h : Acceptable s opcSTREAM_ARM p) :
    s.submit opcSTREAM_ARM p =
      (let c := le p.params 3 1
       let t := s.accepted opcSTREAM_ARM p c (if c < 16 then some c else none)
       let r := t.armEffect p.job.toNat p.seq.toNat (t.stepOf p.seq.toNat) p.params
       r.1.answered opcSTREAM_ARM p r.2) := by
  have noRead : opcSTREAM_ARM ≠ 0x0201 := by decide
  rw [submit_acceptable h]
  simp only [↓reduceIte, queueOf_streamArm, State.readChecks_of_ne noRead, State.effect_streamArm]

/-- Settles O7: the scope is that of R372's table, and the command is `submit_streamArm` for every acceptable packet. -/
theorem streamArmEntersTheQueueOfItsHeader : Obligations.StreamArmEntersTheQueueOfItsHeader := by
  refine ⟨scopeOf_streamArm, fun s p h => ?_⟩
  have run : exec (.streamArm p) s = .next (s.submit opcSTREAM_ARM p) := rfl
  exact run.trans (congrArg Host.Outcome.next (submit_streamArm h))

end Sys2Proof.Machine
end

section
/-! SUPPORT. Folds over the state: what every step of one leaves as it was, the whole fold leaves as it was. -/

namespace Sys2Proof.Machine

/-- `g` is what is looked at: a field, or a reading of the state. -/
theorem State.foldl_leaves {α β : Type} (g : State → β) {f : State → α → State} (h : ∀ s a, g (f s a) = g s) (l : List α)
    (s : State) : g (l.foldl f s) = g s := by
  induction l generalizing s with
  | nil => rfl
  | cons a l ih => exact (ih (f s a)).trans (h s a)

end Sys2Proof.Machine
end

section
/-! SUPPORT and CLAIM. The granted point of a paddock (R408): the slowest of its request and its ceilings, and that it is what
`State.regrant` puts in force. -/

namespace Sys2Proof.Machine

/-! ### The slowest of the request and the ceilings -/

theorem Paddock.ceilings_eq (x : Paddock) :
    x.ceilings = [(1, x.cap), (2, x.thermal), (3, x.vrm), (4, x.brake), (5, x.host)] := rfl

/-- The fold that grants skips a ceiling that does not exist. -/
theorem Paddock.grant_eq_foldl_max (x : Paddock) : x.grant = (x.ceilings.filterMap Prod.snd).foldl max x.requested := by
  rw [List.foldl_filterMap, Paddock.grant]
  congr 1
  funext a ⟨r, v⟩
  cases v <;> rfl

/-- The slowest point is the one of the highest number. -/
theorem Paddock.grant_isMax (x : Paddock) : (x.requested :: x.ceilings.filterMap Prod.snd).max? = some x.grant := by
  rw [List.max?_cons', Paddock.grant_eq_foldl_max]

theorem Paddock.mem_filterMap_ceilings (x : Paddock) (v : Nat) :
    v ∈ x.ceilings.filterMap Prod.snd ↔ ∃ r, (r, some v) ∈ x.ceilings := by
  simp [List.mem_filterMap]

theorem Paddock.requested_le_grant (x : Paddock) : x.requested ≤ x.grant :=
  (List.max?_eq_some_iff.1 x.grant_isMax).2 _ List.mem_cons_self

theorem Paddock.ceiling_le_grant {x : Paddock} {r v : Nat} (h : (r, some v) ∈ x.ceilings) : v ≤ x.grant :=
  (List.max?_eq_some_iff.1 x.grant_isMax).2 _ (List.mem_cons_of_mem _ ((x.mem_filterMap_ceilings v).2 ⟨r, h⟩))

theorem Paddock.grant_is_request_or_ceiling (x : Paddock) : x.grant = x.requested ∨ ∃ r, (r, some x.grant) ∈ x.ceilings :=
  (List.mem_cons.1 (List.max?_eq_some_iff.1 x.grant_isMax).1).imp_right (x.mem_filterMap_ceilings x.grant).1

theorem Paddock.limits_iff (x : Paddock) (r : Nat) :
    x.limits r = true ↔ ∃ v, (r, some v) ∈ x.ceilings ∧ x.requested < v ∧ v = x.granted := by
  rw [Paddock.limits, List.any_eq_true]
  constructor
  · rintro ⟨⟨q, _ | v⟩, hmem, h⟩
    · simp at h
    · obtain ⟨rfl, hslow, hgrant⟩ : q = r ∧ x.requested < v ∧ v = x.granted := by simpa using h
      exact ⟨v, hmem, hslow, hgrant⟩
  · rintro ⟨v, hmem, hslow, hgrant⟩
    exact ⟨(r, some v), hmem, by simpa [← hgrant] using hslow⟩

/-- A paddock of a job that asks for P0, which its power cap and its temperature both hold at P3. -/
def twiceLimited : Paddock := { Paddock.reset with requested := 0, granted := 3, cap := some 3, thermal := some 3 }

theorem twiceLimited_limits : twiceLimited.limits 1 = true ∧ twiceLimited.limits 2 = true := by decide

/-! ### What the steps of a grant leave of the paddocks and jobs -/

theorem State.held_of_jobs {s t : State} (h : t.jobs = s.jobs) (p : Nat) : t.held p = s.held p := by
  simp only [State.held, State.holder, State.job, h]

theorem State.paddock_setPaddock_other {p m : Nat} (h : m ≠ p) (s : State) (x : Paddock) :
    (s.setPaddock p x).paddock m = s.paddock m := by
  rw [State.paddock_setPaddock_eq, if_neg h]

/-- A paddock gets another record of the same grant, beside a change of other parts of the state. -/
theorem State.setPaddock_granted {s u : State} {p : Nat} {x : Paddock} (hpads : ∀ m, u.paddock m = s.paddock m)
    (hx : x.granted = (s.paddock p).granted) (m : Nat) :
    ((u.setPaddock p x).paddock m).granted = (s.paddock m).granted := by
  rw [State.paddock_setPaddock_eq]
  split
  · next e => rw [hx, e]
  · rw [hpads]

@[simp] theorem State.heldOver_jobs (s : State) (x : Paddock) : (s.heldOver x).jobs = s.jobs := by
  unfold State.heldOver; split <;> rfl

@[simp] theorem State.heldOver_paddock (s : State) (x : Paddock) (m : Nat) : (s.heldOver x).paddock m = s.paddock m := by
  unfold State.heldOver; split <;> rfl

/-- What a decision changes of the paddocks: the pending switch of its own. -/
theorem State.retarget_cases (s : State) (p t : Nat) :
    ∃ u : State, u.jobs = s.jobs ∧ (∀ m, u.paddock m = s.paddock m) ∧
      (s.retarget p t = u ∨ ∃ w, s.retarget p t = u.setPaddock p { s.paddock p with pending := w, heldSince := none }) := by
  unfold State.retarget
  extract_lets x u
  have hjobs : u.jobs = s.jobs := by unfold u; split <;> rfl
  have hpads (m : Nat) : u.paddock m = s.paddock m := by unfold u; split <;> rfl
  clear_value u
  split
  · exact ⟨u.heldOver x, by simp [hjobs], by simp [hpads], .inr ⟨none, rfl⟩⟩
  · split
    · exact ⟨u, hjobs, hpads, .inl rfl⟩
    · exact ⟨u.heldOver x, by simp [hjobs], by simp [hpads], .inr ⟨some t, rfl⟩⟩

@[simp] theorem State.retarget_jobs (s : State) (p t : Nat) : (s.retarget p t).jobs = s.jobs := by
  obtain ⟨u, hjobs, -, h | ⟨w, h⟩⟩ := s.retarget_cases p t <;> rw [h] <;> exact hjobs

theorem State.retarget_paddock_other {p m : Nat} (hm : m ≠ p) (s : State) (t : Nat) :
    (s.retarget p t).paddock m = s.paddock m := by
  obtain ⟨u, -, hpads, h | ⟨w, h⟩⟩ := s.retarget_cases p t
  · rw [h, hpads]
  · rw [h, State.paddock_setPaddock_other hm, hpads]

theorem State.retarget_granted (s : State) (p t : Nat) :
    ((s.retarget p t).paddock p).granted = (s.paddock p).granted := by
  obtain ⟨u, -, hpads, h | ⟨w, h⟩⟩ := s.retarget_cases p t
  · rw [h, hpads]
  · rw [h, State.paddock_setPaddock_same]

theorem State.trySwitch_granted (s : State) (p m : Nat) : ((s.trySwitch p).paddock m).granted = (s.paddock m).granted := by
  unfold State.trySwitch
  extract_lets x
  split
  · rfl
  · split
    · rfl
    · split
      · split
        · rfl
        · refine State.setPaddock_granted ?_ ?_ m
          · exact fun _ => rfl
          · rfl
      · refine State.setPaddock_granted ?_ ?_ m
        · exact s.heldOver_paddock x
        · rfl

/-! A rail moves beside the paddocks. -/

@[simp] theorem State.aimRail_paddock (s : State) (q v m : Nat) : (s.aimRail q v).paddock m = s.paddock m := rfl
@[simp] theorem State.setRail_paddock (s : State) (q v m : Nat) : (s.setRail q v).paddock m = s.paddock m := rfl
@[simp] theorem State.setRamp_paddock (s : State) (q : Nat) (r : Ramp) (m : Nat) : (s.setRamp q r).paddock m = s.paddock m := rfl

@[simp] theorem State.holdRamp_paddock (s : State) (q m : Nat) : (s.holdRamp q).paddock m = s.paddock m := by
  unfold State.holdRamp; split <;> rfl

@[simp] theorem State.moveRail_paddock (s : State) (q m : Nat) : (s.moveRail q).paddock m = s.paddock m := by
  unfold State.moveRail
  extract_lets u want held
  have hu : u.paddock m = s.paddock m := s.holdRamp_paddock q m
  clear_value u
  split
  · simp [hu]
  · split
    · simp [hu]
    · split <;> simp [hu]

theorem State.runQuarter_granted (s : State) (q m : Nat) : ((s.runQuarter q).paddock m).granted = (s.paddock m).granted :=
  (congrArg Paddock.granted (State.moveRail_paddock _ q m)).trans
    (State.foldl_leaves (fun s => (s.paddock m).granted) (fun s p => s.trySwitch_granted p m) _ s)

@[simp] theorem State.throttleNow_paddock (s : State) (m : Nat) : s.throttleNow.paddock m = s.paddock m :=
  State.foldl_leaves (fun s => s.paddock m) (f := State.throttleOne) (fun _ _ => rfl) _ s

/-! ### One paddock after another -/

/-- What `State.regrant` does for one paddock: a held one gets its point, any other falls back to its reset setting. -/
def State.regrantOne (s : State) (p : Nat) : State :=
  if s.held p then
    (s.modPaddock p fun x => { x with granted := (s.paddock p).grant, gated := false }).retarget p (s.paddock p).grant
  else (s.heldOver (s.paddock p)).modPaddock p fun x =>
    { Paddock.reset with
      tempQc := x.tempQc, tempMaxQc := x.tempMaxQc, stretchEvents := x.stretchEvents, stretchSince := x.stretchSince,
      stretchCycles := sat32 (x.stretchCycles + x.stretchCount s.sclk) }

theorem State.regrant_eq (s : State) :
    s.regrant = ((List.range 4).foldl State.runQuarter ((List.range 20).foldl State.regrantOne s)).throttleNow := rfl

@[simp] theorem State.regrantOne_jobs (s : State) (p : Nat) : (s.regrantOne p).jobs = s.jobs := by
  unfold State.regrantOne
  split <;> simp [State.modPaddock_eq]

theorem State.regrantOne_paddock_other {p m : Nat} (h : m ≠ p) (s : State) : (s.regrantOne p).paddock m = s.paddock m := by
  unfold State.regrantOne
  split
  · rw [State.retarget_paddock_other h, State.modPaddock_eq, State.paddock_setPaddock_other h]
  · rw [State.modPaddock_eq, State.paddock_setPaddock_other h, State.heldOver_paddock]

theorem State.regrantOne_granted {s : State} {p : Nat} (h : s.held p = true) :
    ((s.regrantOne p).paddock p).granted = (s.paddock p).grant := by
  rw [State.regrantOne, if_pos h, State.retarget_granted, State.modPaddock_eq, State.paddock_setPaddock_same]

theorem State.regrants_held (s : State) (l : List Nat) (p : Nat) : (l.foldl State.regrantOne s).held p = s.held p :=
  State.held_of_jobs (State.foldl_leaves State.jobs State.regrantOne_jobs l s) p

theorem State.regrants_paddock_of_not_mem {l : List Nat} {p : Nat} (h : p ∉ l) (s : State) :
    (l.foldl State.regrantOne s).paddock p = s.paddock p := by
  induction l generalizing s with
  | nil => rfl
  | cons a l ih =>
    obtain ⟨hne, hl⟩ := List.ne_and_not_mem_of_not_mem_cons h
    exact (ih hl (s.regrantOne a)).trans (State.regrantOne_paddock_other hne s)

/-- Each paddock is granted in its turn, which finds it as it was before the first turn. -/
theorem State.regrants_granted {l : List Nat} (nodup : l.Nodup) {s : State} {p : Nat} (hp : p ∈ l) (held : s.held p = true) :
    ((l.foldl State.regrantOne s).paddock p).granted = (s.paddock p).grant := by
  obtain ⟨before, after, rfl⟩ := List.append_of_mem hp
  have hbefore : p ∉ before := fun h => List.disjoint_of_nodup_append nodup h List.mem_cons_self
  have hafter : p ∉ after := (List.nodup_cons.1 nodup.of_append_right).1
  rw [List.foldl_append, List.foldl_cons, State.regrants_paddock_of_not_mem hafter, State.regrantOne_granted,
    State.regrants_paddock_of_not_mem hbefore]
  rw [State.regrants_held, held]

theorem State.regrant_granted {s : State} {p : Nat} (hp : p < 20) (held : s.held p = true) :
    (s.regrant.paddock p).granted = (s.paddock p).grant := by
  rw [State.regrant_eq, State.throttleNow_paddock,
    State.foldl_leaves (fun s => (s.paddock p).granted) (fun s q => s.runQuarter_granted q p)]
  exact State.regrants_granted List.nodup_range (List.mem_range.2 hp) held

/-- Settles O56: the grant is the greatest of the request and the ceilings, two equal ceilings limit one paddock, and a new
grant reaches every held paddock. -/
theorem grantIsTheSlowestCeiling : Obligations.GrantIsTheSlowestCeiling :=
  ⟨fun x => ⟨x.ceilings_eq, x.requested_le_grant, fun _ _ => Paddock.ceiling_le_grant, x.grant_is_request_or_ceiling,
    x.limits_iff⟩, ⟨twiceLimited, twiceLimited_limits⟩, fun _ _ => State.regrant_granted⟩

end Sys2Proof.Machine
end

section
/-! SUPPORT and CLAIM. The preferred points of a job (R406): a new job has the six of the rule, the end of its creation leaves
them, and `PHASE_POINTS_SET` sets them. -/

namespace Sys2Proof.Machine

/-- The preferred points of a job by phase code, while it exists. -/
def State.pointsOf (s : State) (jn : Nat) : Option (List Nat) := (s.job jn).map Job.points

theorem State.pointsOf_eq_some_iff {s : State} {jn : Nat} {l : List Nat} :
    s.pointsOf jn = some l ↔ ∃ j, s.job jn = some j ∧ j.points = l := by
  simp [State.pointsOf]

theorem State.pointsOf_of_jobs {s t : State} (h : t.jobs = s.jobs) (jn : Nat) : t.pointsOf jn = s.pointsOf jn := by
  rw [State.pointsOf, State.pointsOf, State.job, State.job, h]

/-- A change of a job that is no change of its points. -/
theorem State.modJob_pointsOf {f : Job → Job} (h : ∀ j, (f j).points = j.points) (s : State) (n jn : Nat) :
    (s.modJob n f).pointsOf jn = s.pointsOf jn := by
  rw [State.pointsOf, State.modJob_eq, State.job_setJob_eq]
  split
  · next e => subst e; cases hj : s.job jn <;> simp [State.pointsOf, hj, h]
  · rfl

/-! ### What leaves the jobs -/

@[simp] theorem State.stpHop_jobs (s : State) (f : List Byte) (i : Nat) : (s.stpHop f i).jobs = s.jobs := by
  unfold State.stpHop; dsimp only; split <;> rfl

@[simp] theorem State.stpSend_jobs (s : State) (m : StpMessage) : (s.stpSend m).jobs = s.jobs :=
  State.foldl_leaves State.jobs (fun s f => State.foldl_leaves State.jobs (fun s i => s.stpHop_jobs f i) _ s) _ s

@[simp] theorem State.carry_jobs (s : State) (src dest : Agent) (kind : Nat) (payload : List Byte) :
    (s.carry src dest kind payload).jobs = s.jobs := by
  unfold State.carry State.carryMarked
  split
  · exact s.stpSend_jobs _
  · rfl

@[simp] theorem State.unrestrict_jobs (s : State) : s.unrestrict.jobs = s.jobs := by
  unfold State.unrestrict
  split
  · rfl
  · split
    · rfl
    · split <;> rfl

/-! ### What changes a job beside its points -/

theorem State.writeRecord_pointsOf (s : State) (k : Ctx) (c : Nat) (fault : Bool) (jn : Nat) :
    (s.writeRecord k c fault).pointsOf jn = s.pointsOf jn := by
  unfold State.writeRecord
  split
  · rfl
  · split
    · rfl
    · refine (State.modJob_pointsOf ?_ _ _ jn).trans (State.pointsOf_of_jobs ?_ jn)
      · exact fun _ => rfl
      · rw [State.write_jobs, State.carry_jobs]

theorem State.endSpan_pointsOf (s : State) (c p : Nat) (fault : Bool) (jn : Nat) :
    (s.endSpan c p fault).pointsOf jn = s.pointsOf jn := by
  unfold State.endSpan
  split
  · rfl
  · next k _ =>
    rw [State.modCtx_eq]
    exact (State.pointsOf_of_jobs (State.setCtx_jobs _ _ _) jn).trans (s.writeRecord_pointsOf k c fault jn)

theorem State.settle_pointsOf (s : State) (c jn : Nat) : (s.settle c).pointsOf jn = s.pointsOf jn := by
  unfold State.settle
  split
  · rfl
  · split
    · rfl
    · exact s.endSpan_pointsOf _ _ _ jn

theorem State.signal_pointsOf (s : State) (n jn : Nat) : (s.signal n).pointsOf jn = s.pointsOf jn :=
  State.modJob_pointsOf (f := fun x => { x with signals := x.signals + 1 }) (fun _ => rfl) s n jn

theorem State.endedBad_pointsOf (s : State) (n seq jn : Nat) : (s.endedBad n seq).pointsOf jn = s.pointsOf jn :=
  State.modJob_pointsOf (f := fun j => { j with bad := j.bad ++ [seq] }) (fun _ => rfl) s n jn

/-- An entry that ends counts in its job and may bar its commit; the job keeps its points. -/
theorem State.finish_pointsOf (s : State) (seq status : Nat) (reply : List Byte) (jn : Nat) :
    (s.finish seq status reply).pointsOf jn = s.pointsOf jn := by
  unfold State.finish
  split
  · rfl
  · next x _ =>
    split
    · rfl
    · extract_lets y recorded replied removed bad
      have hreplied : replied.jobs = s.jobs := by
        unfold replied
        split
        · split <;> rfl
        · rfl
      clear_value replied
      split
      · exact State.pointsOf_of_jobs hreplied jn
      · next w _ =>
        extract_lets counted judged
        have hremoved : removed.pointsOf jn = s.pointsOf jn := State.pointsOf_of_jobs hreplied jn
        have hcounted : counted.pointsOf jn = s.pointsOf jn := by
          unfold counted
          split
          · refine (State.modJob_pointsOf ?_ removed w.job jn).trans hremoved
            intro j
            split <;> rfl
          · exact hremoved
        have hjudged : judged.pointsOf jn = s.pointsOf jn := by
          unfold judged
          split
          · exact (counted.endedBad_pointsOf w.job seq jn).trans hcounted
          · exact hcounted
        clear_value judged
        split
        · exact hjudged
        · rw [State.settle_pointsOf, State.signal_pointsOf, State.modCtx_eq]
          exact (State.pointsOf_of_jobs (State.setCtx_jobs _ _ _) jn).trans hjudged

theorem State.createJob_pointsOf (s : State) (jn seq : Nat) (p : List Byte) :
    (s.createJob jn seq p).pointsOf jn = some [4, 0, 0, 1, 3, 0] := by
  have fresh : ((s.setJob jn (some (Job.fresh s p))).forgetJob jn).pointsOf jn = some [4, 0, 0, 1, 3, 0] :=
    State.pointsOf_eq_some_iff.2 ⟨Job.fresh s p, State.job_setJob_same s jn (some (Job.fresh s p)), rfl⟩
  refine (State.finish_pointsOf _ _ _ _ jn).trans (Eq.trans (State.pointsOf_of_jobs ?_ jn) fresh)
  split
  · exact State.unrestrict_jobs _
  · rfl

/-- Settles O57: the end of an entry leaves the points that creation gives, and the command replaces all six. -/
theorem preferredPointsOfAJob : Obligations.PreferredPointsOfAJob := by
  refine ⟨fun s jn seq p _ => State.pointsOf_eq_some_iff.1 (s.createJob_pointsOf jn seq p), fun s jn p j hj => ?_⟩
  rw [State.setPoints, State.modJob_eq, State.job_setJob_same, hj]
  rfl

end Sys2Proof.Machine
end

section
/-! SUPPORT and CLAIM. What holds of every step (R71, R229, R470): `exec_keeps` carried over to `step`, with the fall of RESET_N
apart, which alone ends a quarantine. -/

namespace Sys2Proof.Machine

/-! ### A step -/

theorem step_cons (c : Instr) (rest : List Instr) (s : State) :
    step { s with pending := c :: rest } = exec c { s with pending := rest } := rfl

theorem step_of_pending_cons {s : State} {c : Instr} {rest : List Instr} (h : s.pending = c :: rest) :
    step s = exec c { s with pending := rest } := by
  unfold step
  rw [h]

theorem step_of_pending_nil {s : State} (h : s.pending = []) : step s = .next (s.passTo (s.sclk + 1)) := by
  unfold step
  rw [h]

/-- What a step keeps beside the queue of commands, which it shortens. -/
structure State.StepKeeps (s t : State) : Prop where
  sound : s.Sound → t.Sound
  svn : s.otp.svn ≤ t.otp.svn
  quarantine : ∀ n, s.quarantinedAt n = true → t.quarantinedAt n = true

theorem State.Keeps.stepKeeps {s t : State} {q : List Instr} (h : State.Keeps { s with pending := q } t) : s.StepKeeps t :=
  ⟨fun x => h.sound ⟨x.mem, x.retired⟩, h.svn, h.quarantine⟩

/-- Every step but the fall of RESET_N. -/
theorem step_keeps {s t : State} (h : step s = .next t) (notReset : ∀ rest, s.pending ≠ .resetNFall :: rest) : s.StepKeeps t := by
  cases e : s.pending with
  | nil =>
    rw [step_of_pending_nil e] at h
    cases h
    have k : s.Keeps (s.passTo (s.sclk + 1)) := State.passTo_keeps _ (.refl s)
    exact ⟨k.sound, k.svn, k.quarantine⟩
  | cons c rest =>
    rw [step_of_pending_cons e] at h
    have notFall : c ≠ .resetNFall := by rintro rfl; exact notReset rest e
    exact (exec_keeps c _ t h notFall).stepKeeps

/-! ### The fall of RESET_N -/

theorem State.coldReset_sound (s : State) : s.coldReset.Sound := ⟨rfl, fun _ => id⟩

theorem State.coldReset_otp (s : State) : s.coldReset.otp = s.otp := rfl

theorem step_of_resetNFall {s : State} {rest : List Instr} (h : s.pending = .resetNFall :: rest) :
    step s = .next { s with pending := rest }.coldReset := step_of_pending_cons h

/-- A step is the fall of RESET_N or keeps what every other step keeps. -/
theorem step_cases {s t : State} (h : step s = .next t) :
    (∃ rest, t = { s with pending := rest }.coldReset) ∨ s.StepKeeps t := by
  by_cases reset : ∃ rest, s.pending = .resetNFall :: rest
  · obtain ⟨rest, e⟩ := reset
    rw [step_of_resetNFall e] at h
    cases h
    exact .inl ⟨rest, rfl⟩
  · exact .inr (step_keeps h fun rest e => reset ⟨rest, e⟩)

/-! ### The statements -/

/-- Settles O40: a cold reset empties memory and forgets the retired units, and every other step keeps soundness. -/
theorem everyStepKeepsSoundness : Obligations.EveryStepKeepsSoundness := by
  intro s t sound h
  obtain ⟨rest, rfl⟩ | keeps := step_cases h
  · exact State.coldReset_sound _
  · exact keeps.sound sound

/-- Settles O42: of the commands, `exec_keeps` leaves out the fall of RESET_N alone, and an empty queue keeps every tile. -/
theorem quarantineLastsUntilColdReset : Obligations.QuarantineLastsUntilColdReset :=
  fun _ _ n h quarantined notReset => (step_keeps h notReset).quarantine n quarantined

/-- Settles O43: OTP outlives a cold reset, and no other step lowers the version. -/
theorem securityVersionNeverFalls : Obligations.SecurityVersionNeverFalls := by
  intro s t h
  obtain ⟨rest, rfl⟩ | keeps := step_cases h
  · exact Nat.le_of_eq (congrArg Otp.svn (State.coldReset_otp _)).symm
  · exact keeps.svn

/-- Settles O1: `step` is defined so. -/
theorem stepRunsFrontCommand : Obligations.StepRunsFrontCommand := step_cons

/-- Settles O41: no memory, no retired unit and no command is listed after reset. -/
theorem resetIsSound : Obligations.ResetIsSound := ⟨⟨rfl, fun _ => id⟩, rfl⟩

end Sys2Proof.Machine
end

section
/-! SUPPORT and CLAIM. The canonical form of the sparse tables: it is determined by what is read, key by key. -/

namespace Sys2Proof.Machine

variable {α : Type} [DecidableEq α] {d : α}

/-- Below the least key of a table nothing is listed. -/
theorem lookup_of_canonFrom {m : SMap α} {lo i : Nat} (h : canonFrom d (some lo) m = true) (hi : i ≤ lo) : lookup d m i = d := by
  induction m generalizing lo with
  | nil => rfl
  | cons e m ih =>
    obtain ⟨k, v⟩ := e
    obtain ⟨hlo, -, hm⟩ := canonFrom_cons.1 h
    have hk : lo < k := hlo lo rfl
    rw [lookup, if_neg (by omega), ih hm (by omega)]

/-- Two canonical tables that read the same list the same entries: the heads have the same key, for the lower of two would be
listed in one table alone. -/
theorem eq_of_canonFrom {a b : SMap α} {la lb : Option Nat} (ha : canonFrom d la a = true) (hb : canonFrom d lb b = true)
    (h : ∀ i, lookup d a i = lookup d b i) : a = b := by
  induction a generalizing b la lb with
  | nil =>
    cases b with
    | nil => rfl
    | cons f b =>
      obtain ⟨l, w⟩ := f
      obtain ⟨-, hw, -⟩ := canonFrom_cons.1 hb
      have hl := h l
      rw [lookup_nil, lookup, if_pos rfl] at hl
      exact absurd hl.symm hw
  | cons e a ih =>
    obtain ⟨k, v⟩ := e
    obtain ⟨-, hv, ha'⟩ := canonFrom_cons.1 ha
    cases b with
    | nil =>
      have hk := h k
      rw [lookup_nil, lookup, if_pos rfl] at hk
      exact absurd hk hv
    | cons f b =>
      obtain ⟨l, w⟩ := f
      obtain ⟨-, hw, hb'⟩ := canonFrom_cons.1 hb
      have hk := h k
      have hl := h l
      simp only [lookup, if_true] at hk hl
      obtain hlt | rfl | hgt := Nat.lt_trichotomy k l
      · rw [if_neg hlt.ne', lookup_of_canonFrom hb' hlt.le] at hk
        exact absurd hk hv
      · rw [if_pos rfl] at hk
        subst hk
        have tails : ∀ i, lookup d a i = lookup d b i := by
          intro i
          by_cases hi : k = i
          · subst hi
            rw [lookup_of_canonFrom ha' le_rfl, lookup_of_canonFrom hb' le_rfl]
          · simpa only [lookup, if_neg hi] using h i
        rw [ih ha' hb' tails]
      · rw [if_neg hgt.ne', lookup_of_canonFrom ha' hgt.le] at hl
        exact absurd hl.symm hw

/-- Settles O44: the general fact about canonical tables, for bytes. -/
theorem memoryIsCanonical : Obligations.MemoryIsCanonical := fun _ _ => eq_of_canonFrom

end Sys2Proof.Machine
end

section
/-! SUPPORT and CLAIM. The parts of a split dimension (R181): where each starts, and that the last ends at the extent. -/

namespace Sys2Proof.Machine

theorem le_ceilDiv_mul {u : Nat} (e : Nat) (hu : 0 < u) : e ≤ ceilDiv e u * u := by
  have := Nat.div_add_mod (e + u - 1) u
  have := Nat.mod_lt (e + u - 1) hu
  unfold ceilDiv
  rw [Nat.mul_comm]
  omega

/-- The units of part `p` when `us` units go to `n` parts: one more for each of the first `us % n`. -/
def partUnits (us n p : Nat) : Nat := us / n + if p < us % n then 1 else 0

/-- The first unit of part `p`: what the parts before it take. -/
def partFirst (us n p : Nat) : Nat := p * (us / n) + min p (us % n)

theorem partFirst_zero (us n : Nat) : partFirst us n 0 = 0 := by simp [partFirst]

theorem partFirst_succ (us n p : Nat) : partFirst us n (p + 1) = partFirst us n p + partUnits us n p := by
  simp only [partFirst, partUnits, Nat.succ_mul]
  split <;> omega

/-- All units go to the `n` parts. -/
theorem partFirst_all (us : Nat) {n : Nat} (hn : 0 < n) : partFirst us n n = us := by
  rw [partFirst, Nat.min_eq_right (Nat.mod_lt us hn).le, Nat.div_add_mod]

theorem partRange_eq (e n u p : Nat) : partRange e n u p =
    (min e (partFirst (ceilDiv e u) n p * u),
      min e (partFirst (ceilDiv e u) n (p + 1) * u) - min e (partFirst (ceilDiv e u) n p * u)) := by
  have units : (if p < ceilDiv e u % n then ceilDiv e u / n + 1 else ceilDiv e u / n) = partUnits (ceilDiv e u) n p := by
    rw [partUnits]
    split <;> rfl
  rw [partFirst_succ, ← units]
  rfl

/-- A part ends where the next one begins. -/
theorem partRange_end (e n u p : Nat) :
    (partRange e n u p).1 + (partRange e n u p).2 = min e (partFirst (ceilDiv e u) n (p + 1) * u) := by
  have rises : partFirst (ceilDiv e u) n p * u ≤ partFirst (ceilDiv e u) n (p + 1) * u :=
    Nat.mul_le_mul_right u (partFirst_succ .. ▸ Nat.le_add_right _ _)
  rw [partRange_eq]
  omega

theorem partRange_length_le (e n u p : Nat) : (partRange e n u p).2 ≤ partUnits (ceilDiv e u) n p * u := by
  rw [partRange_eq, partFirst_succ, Nat.add_mul]
  omega

/-- Settles O54: the starts are the sums of the units before them, and all units together reach the extent. -/
theorem partsCoverTheExtent : Obligations.PartsCoverTheExtent := by
  intro e n u hn hu
  refine ⟨?_, fun p _ => ?_, ?_, fun p _ => partRange_length_le e n u p⟩
  · simp [partRange_eq, partFirst_zero]
  · rw [partRange_end, partRange_eq]
  · rw [partRange_end, Nat.sub_add_cancel hn, partFirst_all _ hn]
    exact Nat.min_eq_left (le_ceilDiv_mul e hu)

end Sys2Proof.Machine
end

section
/-! SUPPORT and CLAIM. `hbm_place` (R210): a fold of exclusive or, whose first field is read back from the result and the fields
above it. -/

namespace Sys2Proof.Machine

theorem foldXor_lt (w n x : Nat) : foldXor w n x < 2 ^ w := by
  induction n generalizing x with
  | zero => exact Nat.two_pow_pos w
  | succ n ih => exact Nat.xor_lt_two_pow (Nat.mod_lt _ (Nat.two_pow_pos w)) (ih _)

theorem foldXor_eq_foldl (w n x : Nat) :
    foldXor w n x = ((List.range n).map fun c => x / (2 ^ w) ^ c % 2 ^ w).foldl (· ^^^ ·) 0 := by
  induction n generalizing x with
  | zero => rfl
  | succ n ih =>
    have fields : (List.range n).map (fun c => x / (2 ^ w) ^ (c + 1) % 2 ^ w) =
        (List.range n).map fun c => x / 2 ^ w / (2 ^ w) ^ c % 2 ^ w := by
      simp only [Nat.pow_succ', Nat.div_div_eq_div_mul]
    rw [foldXor, ih, List.range_succ_eq_map, List.map_cons, List.map_map, List.foldl_cons, Nat.pow_zero, Nat.div_one,
      Nat.zero_xor, ← Nat.xor_zero (x % 2 ^ w)]
    rw [List.foldl_assoc (op := fun a b : Nat => a ^^^ b), Nat.xor_zero]
    exact congrArg (fun l => x % 2 ^ w ^^^ List.foldl _ 0 l) fields.symm

/-- The first field is the result's, where the fields above it are the same. -/
theorem field_eq_of_foldXor_eq {w n x y : Nat} (above : x / 2 ^ w = y / 2 ^ w) (h : foldXor w (n + 1) x = foldXor w (n + 1) y) :
    x = y := by
  rw [foldXor, foldXor, above] at h
  have low : x % 2 ^ w = y % 2 ^ w := Nat.xor_left_injective h
  rw [← Nat.div_add_mod x (2 ^ w), ← Nat.div_add_mod y (2 ^ w), above, low]

/-- The number that has the fields `t` above its first one and folds to `r`. -/
def unfoldXor (w n t r : Nat) : Nat := 2 ^ w * t + (r ^^^ foldXor w n t)

theorem unfoldXor_div {w r : Nat} (n t : Nat) (hr : r < 2 ^ w) : unfoldXor w n t r / 2 ^ w = t := by
  have := Nat.xor_lt_two_pow hr (foldXor_lt w n t)
  rw [unfoldXor, Nat.mul_add_div (Nat.two_pow_pos w), Nat.div_eq_of_lt this, Nat.add_zero]

theorem foldXor_unfoldXor {w r : Nat} (n t : Nat) (hr : r < 2 ^ w) : foldXor w (n + 1) (unfoldXor w n t r) = r := by
  have low : unfoldXor w n t r % 2 ^ w = r ^^^ foldXor w n t := by
    rw [unfoldXor, Nat.mul_add_mod, Nat.mod_eq_of_lt (Nat.xor_lt_two_pow hr (foldXor_lt w n t))]
  rw [foldXor, unfoldXor_div n t hr, low, Nat.xor_assoc, Nat.xor_self, Nat.xor_zero]

theorem hbmStack_lt (a : Nat) : hbmStack a < 8 := foldXor_lt 3 11 _
theorem hbmPc_lt (a : Nat) : hbmPc a < 64 := foldXor_lt 6 5 _

/-- Stack, pseudo-channel and byte determine the address: the byte gives the fields above, the pseudo-channel the next field, and the
stack the lowest one. -/
theorem hbmPlace_injective {a b : Nat} (stack : hbmStack a = hbmStack b) (pc : hbmPc a = hbmPc b)
    (byte : a / 256 / 8 / 64 * 256 + a % 256 = b / 256 / 8 / 64 * 256 + b % 256) : a = b := by
  have high : a / 256 / 8 / 2 ^ 6 = b / 256 / 8 / 2 ^ 6 := by omega
  have middle : a / 256 / 2 ^ 3 = b / 256 / 2 ^ 3 := field_eq_of_foldXor_eq high pc
  have granule : a / 256 = b / 256 := field_eq_of_foldXor_eq middle stack
  omega

theorem hbmPlace_surjective {h c b : Nat} (hh : h < 8) (hc : c < 64) (hb : b < 768 * 2 ^ 20) :
    ∃ a, a < 384 * 2 ^ 30 ∧ hbmStack a = h ∧ hbmPc a = c ∧ a / 256 / 8 / 64 * 256 + a % 256 = b := by
  have middle : unfoldXor 6 4 (b / 256) c / 64 = b / 256 := unfoldXor_div (w := 6) 4 (b / 256) hc
  have granule : unfoldXor 3 10 (unfoldXor 6 4 (b / 256) c) h / 8 = unfoldXor 6 4 (b / 256) c :=
    unfoldXor_div (w := 3) 10 (unfoldXor 6 4 (b / 256) c) hh
  have stack : foldXor 3 11 (unfoldXor 3 10 (unfoldXor 6 4 (b / 256) c) h) = h := foldXor_unfoldXor 10 _ hh
  have pc : foldXor 6 5 (unfoldXor 6 4 (b / 256) c) = c := foldXor_unfoldXor 4 _ hc
  refine ⟨256 * unfoldXor 3 10 (unfoldXor 6 4 (b / 256) c) h + b % 256, by omega, ?_, ?_, by omega⟩
  · rw [hbmStack, Nat.mul_add_div (by decide), Nat.div_eq_of_lt (Nat.mod_lt _ (by decide)), Nat.add_zero, stack]
  · rw [hbmPc, Nat.mul_add_div (by decide), Nat.div_eq_of_lt (Nat.mod_lt _ (by decide)), Nat.add_zero, granule, pc]

/-- Settles O55: the folds are those of R210, and a field of the index is what undoes each. -/
theorem hbmPlacementIsABijection : Obligations.HbmPlacementIsABijection :=
  ⟨fun _ _ => ⟨foldXor_eq_foldl 3 11 _, foldXor_eq_foldl 6 5 _⟩,
    fun a ha => ⟨hbmStack_lt a, hbmPc_lt a, by omega⟩,
    fun _ _ _ _ => hbmPlace_injective, fun _ _ _ => hbmPlace_surjective⟩

end Sys2Proof.Machine
end

section
/-! SUPPORT and CLAIM. Packed codes (R41, R114): the digits of one number, in base 2ʷ when they are packed and in base 2⁸ when they
are stored. -/

namespace Sys2Proof.Machine

/-- A code is a digit of the number that the codes are packed into. -/
theorem packNat_digit {w i c : Nat} {cs : List Nat} (h : cs[i]? = some c) : packNat w cs / 2 ^ (i * w) % 2 ^ w = c % 2 ^ w := by
  induction cs generalizing i with
  | nil => simp at h
  | cons x cs ih =>
    cases i with
    | zero =>
      obtain rfl : x = c := by simpa using h
      simp [packNat]
    | succ i =>
      have rest : packNat w (x :: cs) / 2 ^ w = packNat w cs := by
        rw [packNat, Nat.add_mul_div_left _ _ (Nat.two_pow_pos w), Nat.div_eq_of_lt (Nat.mod_lt _ (Nat.two_pow_pos w)), Nat.zero_add]
      rw [Nat.succ_mul, Nat.add_comm, Nat.pow_add, ← Nat.div_div_eq_div_mul, rest]
      exact ih (by simpa using h)

theorem leBytes_getElem? {n k : Nat} (v : Nat) (hk : k < n) : (leBytes n v)[k]? = some (BitVec.ofNat 8 (v / 2 ^ (8 * k) % 2 ^ 8)) := by
  induction n generalizing k v with
  | zero => omega
  | succ n ih =>
    cases k with
    | zero => simp [leBytes]
    | succ k =>
      have shift : v / 2 ^ (8 * (k + 1)) = v / 256 / 2 ^ (8 * k) := by
        rw [Nat.mul_add, Nat.add_comm, Nat.pow_add, Nat.div_div_eq_div_mul]
      rw [leBytes, List.getElem?_cons_succ, ih _ (by omega), shift]

/-- The number that `m` bytes spell from the `k`-th byte of `v` on. -/
theorem leNat_bytes {f : Nat → Byte} {v k m : Nat} (h : ∀ i, i < m → f i = BitVec.ofNat 8 (v / 2 ^ (8 * (k + i)) % 2 ^ 8)) :
    leNat ((List.range m).map f) = v / 2 ^ (8 * k) % 2 ^ (8 * m) := by
  induction m generalizing f k with
  | zero => simp [leNat, Nat.mod_one]
  | succ m ih =>
    have first : (f 0).toNat = v / 2 ^ (8 * k) % 2 ^ 8 := by
      rw [h 0 (by omega), BitVec.toNat_ofNat, Nat.add_zero, Nat.mod_mod]
    have rest : leNat ((List.range m).map (f ∘ Nat.succ)) = v / 2 ^ (8 * (k + 1)) % 2 ^ (8 * m) :=
      ih fun i hi => by
        have e : k + 1 + i = k + (i + 1) := by omega
        rw [e]
        exact h (i + 1) (by omega)
    rw [List.range_succ_eq_map, List.map_cons, List.map_map, leNat, first, rest]
    have e1 : 2 ^ (8 * (k + 1)) = 2 ^ (8 * k) * 2 ^ 8 := by rw [← Nat.pow_add]; congr 1
    have e2 : 2 ^ (8 * (m + 1)) = 2 ^ 8 * 2 ^ (8 * m) := by rw [← Nat.pow_add]; congr 1; omega
    rw [e1, e2, ← Nat.div_div_eq_div_mul, Nat.mod_mul]
    rfl

/-- Digits of digits: a field of `w` bits at bit `o` of the `8 * m` bits that hold it. -/
theorem field_of_mod {v o w m : Nat} (h : o + w ≤ 8 * m) : v % 2 ^ (8 * m) / 2 ^ o % 2 ^ w = v / 2 ^ o % 2 ^ w := by
  have e : 2 ^ (8 * m) = 2 ^ o * 2 ^ (8 * m - o) := by rw [← Nat.pow_add]; congr 1; omega
  have dvd : 2 ^ w ∣ 2 ^ (8 * m - o) := Nat.pow_dvd_pow 2 (by omega)
  rw [e, Nat.mod_mul_right_div_self, Nat.mod_mod_of_dvd _ dvd]

/-- What `bitsAt` reads where the bytes from `base` on are those of `v`. -/
theorem bitsAt_of_bytes {rd : Nat → Byte} {v base n bit w : Nat} (fits : bit + w ≤ 8 * n)
    (h : ∀ k, k < n → rd (base + k) = BitVec.ofNat 8 (v / 2 ^ (8 * k) % 2 ^ 8)) :
    bitsAt rd (8 * base + bit) w = v / 2 ^ bit % 2 ^ w := by
  have first : (8 * base + bit) / 8 = base + bit / 8 := by omega
  have inByte : (8 * base + bit) % 8 = bit % 8 := by omega
  have len : bit % 8 + w ≤ 8 * ceilDiv (bit % 8 + w) 8 := by
    rw [Nat.mul_comm]
    exact le_ceilDiv_mul _ (by decide)
  have room : bit / 8 + ceilDiv (bit % 8 + w) 8 ≤ n := by
    unfold ceilDiv
    omega
  have read : leNat ((List.range (ceilDiv (bit % 8 + w) 8)).map fun i => rd (base + bit / 8 + i)) =
      v / 2 ^ (8 * (bit / 8)) % 2 ^ (8 * ceilDiv (bit % 8 + w) 8) := by
    refine leNat_bytes fun i hi => ?_
    rw [Nat.add_assoc]
    exact h _ (by omega)
  have split : 2 ^ bit = 2 ^ (8 * (bit / 8)) * 2 ^ (bit % 8) := by
    rw [← Nat.pow_add, Nat.div_add_mod]
  unfold bitsAt
  simp only [first, inByte]
  rw [read, field_of_mod len, split, Nat.div_div_eq_div_mul]

/-- Settles O60: the bytes are the digits of the packed number, and the code is one of its digits. -/
theorem packedElementsReadBack : Obligations.PackedElementsReadBack := by
  intro w n base i c cs rd room hc hrd
  have hi : i < cs.length := (List.getElem?_eq_some_iff.1 hc).1
  have fits : i * w + w ≤ 8 * n := by
    have := Nat.mul_le_mul_left w (Nat.succ_le_of_lt hi)
    rw [← Nat.succ_mul, Nat.mul_comm]
    exact this.trans room
  have bytes : ∀ k, k < n → rd (base + k) = BitVec.ofNat 8 (packNat w cs / 2 ^ (8 * k) % 2 ^ 8) := by
    intro k hk
    rw [hrd k hk, packBytes, leBytes_getElem? _ hk]
    rfl
  rw [bitsAt_of_bytes fits bytes, packNat_digit hc]

end Sys2Proof.Machine
end

section
/-! SUPPORT and CLAIM. Every Woror row submits its packet under its opcode (R351-R355, R367-R372); the statements about commands that
complete, enter a queue, are refused or are lost follow from what `State.submit` does. -/

namespace Sys2Proof.Machine

/-- The row performs its packet as a command with this opcode. -/
def Submits (c : Packet → Instr) (opcode : Nat) : Prop := ∀ p s, exec (c p) s = .next (s.submit opcode p)

/-! ### Refused commands (R371) -/

theorem Submits.refuses {c : Packet → Instr} {op : Nat} (run : Submits c op) : Refuses c op := by
  intro s p turn bad
  rw [run, submit_refused turn bad]

theorem commandStatus_unassigned {op : Nat} (h : scopeOf op = none) (s : State) (jn c : Nat) (ps : List Byte) :
    commandStatus s op jn c ps = St.paramOpcode := by
  unfold commandStatus
  rw [h]

/-- Settles O9: each row submits its packet, an opcode outside the table fails the first check, and `submit_refused` says what a
refusal leaves. -/
theorem refusedCommandsOnlyReply : Obligations.RefusedCommandsOnlyReply := by
  unfold Obligations.RefusedCommandsOnlyReply
  iterate 55 refine ⟨Submits.refuses fun _ _ => rfl, ?_⟩
  intro s op p turn unassigned
  have status := commandStatus_unassigned unassigned (s.received p) p.job.toNat p.ctx.toNat p.params
  have run : exec (.unassignedOpcode op p) s = .next (s.submit op.toNat p) := rfl
  rw [run, submit_refused turn (by rw [status]; decide), status]

/-! ### A full context queue (R368) -/

theorem commandStatus_queue {s : State} {op jn c : Nat} {ps : List Byte} (scope : scopeOf op = some .queue)
    (fits : scopeFits .queue jn c = true) (there : existsStatus s op jn c .queue = 0) (layout : layoutLen op ps = some ps.length)
    (reserved : reservedOk op ps = true) (own : ownStatus s op jn c .queue ps = 0) :
    commandStatus s op jn c ps = roomStatus s op jn c .queue ps := by
  unfold commandStatus
  simp [scope, fits, there, layout, reserved, own, orElse0, firstBad]

theorem roomStatus_full {s : State} {op jn c q : Nat} {sc : Scope} {ps : List Byte} {k : Ctx} (enter : enters op c sc ps = some q)
    (ctx : s.ctx q = some k) (full : 4096 ≤ k.queue.length) (pool : s.poolUsed + bitmapBytes (s.bitsFor op jn ps) ≤ poolBytes) :
    roomStatus s op jn c sc ps = St.resQueueFull := by
  unfold roomStatus
  simp [enter, ctx, Nat.not_lt.2 full, pool, firstBad]

/-- A row of scope Q whose command enters its context's queue. -/
structure EntersQueue (c : Packet → Instr) (op : Nat) : Prop where
  run : Submits c op
  scope : scopeOf op = some .queue
  noArm : op ≠ opcSTREAM_ARM
  noCreate : op ≠ 0x0304
  noRelease : op ≠ 0x0305

theorem EntersQueue.enters {c : Packet → Instr} {op : Nat} (h : EntersQueue c op) (ctx : Nat) (ps : List Byte) :
    enters op ctx .queue ps = some ctx := by
  simp [Machine.enters, h.noArm, h.noCreate, h.noRelease]

/-- The rows whose commands enter their context's queue (R368). -/
def queuedRows : List ((Packet → Instr) × Nat) :=
  [(.stepBegin, 0x0310), (.barrier, 0x0311), (.hayloftPop, 0x0312), (.hayloftFree, 0x0313), (.gradOpen, 0x0314),
   (.phaseMark, 0x0315), (.row, 0x0316), (.opIssue, 0x0401), (.collective, 0x0501), (.mapSet, 0x0502), (.gradNorm, 0x0503),
   (.stepCommit, 0x0701)]

theorem queuedRows_enter : ∀ e ∈ queuedRows, EntersQueue e.1 e.2 := by
  unfold queuedRows
  repeat' refine List.forall_mem_cons.2 ⟨⟨fun _ _ => rfl, by decide, by decide, by decide, by decide⟩, ?_⟩
  exact fun _ h => nomatch h

/-- Settles O10: the room in the queue is the last check, and a refusal enters no queue. -/
theorem fullQueueRefuses : Obligations.FullQueueRefuses := by
  intro s p k turn t jn c ctx full e mem fits there layout reserved own pool
  have row : EntersQueue e.1 e.2 := queuedRows_enter e mem
  have status : commandStatus t e.2 jn c p.params = St.resQueueFull := by
    rw [commandStatus_queue row.scope fits there layout reserved own, roomStatus_full (row.enters c p.params) ctx full pool]
  have refused : s.submit e.2 p = _ := submit_refused turn (by rw [status]; decide)
  rw [row.run, refused, status]

/-! ### Commands that enter a queue (R368) -/

theorem State.effect_of_queue {opcode : Nat} (h : scopeOf opcode = some .queue) (s : State) (jn c seq step : Nat) (p : List Byte) :
    s.effect opcode jn c seq step p = s.queueEffect opcode jn c seq p := by
  simp only [State.effect, h]

theorem State.effect_of_device {opcode : Nat} (h : scopeOf opcode = some .device) (s : State) (jn c seq step : Nat) (p : List Byte) :
    s.effect opcode jn c seq step p = (s.deviceEffect opcode seq p, []) := by
  simp only [State.effect, h]

theorem EntersQueue.enqueues {c : Packet → Instr} {op : Nat} {f : State → Packet → State × List Byte} (row : EntersQueue c op)
    (effect : ∀ s p, s.queueEffect op p.job.toNat p.ctx.toNat p.seq.toNat p.params = f s p) : Enqueues c op f := by
  intro s p acceptable
  have noRead : op ≠ 0x0201 := by rintro rfl; exact absurd row.scope (by decide)
  have queue : queueOf op p = some p.ctx.toNat := by simp only [queueOf, row.scope, row.enters]
  rw [row.run, submit_acceptable acceptable]
  simp only [if_neg row.noArm, queue, State.readChecks_of_ne noRead, State.effect_of_queue row.scope, effect]

/-- Settles O6: what acceptance does beside the entry is `State.queueEffect` of the opcode. -/
theorem queuedCommandsEnter : Obligations.QueuedCommandsEnter := by
  unfold Obligations.QueuedCommandsEnter
  refine ⟨?_, ?_, ?_, ?_, ?_, ?_, ?_, ?_, ?_, ?_, ?_, ?_⟩ <;>
    exact EntersQueue.enqueues ⟨fun _ _ => rfl, by decide, by decide, by decide, by decide⟩ fun _ _ => rfl

/-! ### Commands that take effect at acceptance (R372) -/

/-- A row of scope D. -/
theorem performs_device {c : Packet → Instr} {op : Nat} {f : State → Packet → State} (run : Submits c op)
    (scope : scopeOf op = some .device) (effect : ∀ s p, s.deviceEffect op p.seq.toNat p.params = f s p) : Performs c op f := by
  intro s p acceptable
  have noArm : op ≠ opcSTREAM_ARM := by rintro rfl; exact absurd scope (by decide)
  have noRead : op ≠ 0x0201 := by rintro rfl; exact absurd scope (by decide)
  have queue : queueOf op p = none := by simp [queueOf, scope, enters, noArm]
  rw [run, submit_acceptable acceptable]
  simp only [if_neg noArm, queue, State.readChecks_of_ne noRead, State.effect_of_device scope, effect]

/-- A row of scope J; `f` begins with what error correction finds for a `MEM_READ`. -/
theorem performs_job {c : Packet → Instr} {op : Nat} {f : State → Packet → State} (run : Submits c op)
    (scope : scopeOf op = some .job) (noArm : op ≠ opcSTREAM_ARM)
    (effect : ∀ s p step, (s.readChecks op p).jobEffect op p.job.toNat p.seq.toNat step p.params = (f s p, [])) : Performs c op f := by
  intro s p acceptable
  have queue : queueOf op p = none := by simp [queueOf, scope, enters, noArm]
  rw [run, submit_acceptable acceptable]
  simp only [if_neg noArm, queue, State.effect_of_job scope, effect]

/-- A row of scope Q that creates or releases its context, and so waits in no queue. -/
theorem performs_context {c : Packet → Instr} {op : Nat} {f : State → Packet → State} (run : Submits c op)
    (context : op = 0x0304 ∨ op = 0x0305)
    (effect : ∀ s p, s.queueEffect op p.job.toNat p.ctx.toNat p.seq.toNat p.params = (f s p, [])) : Performs c op f := by
  intro s p acceptable
  have scope : scopeOf op = some .queue := by rcases context with rfl | rfl <;> decide
  have noArm : op ≠ opcSTREAM_ARM := by rcases context with rfl | rfl <;> decide
  have noRead : op ≠ 0x0201 := by rcases context with rfl | rfl <;> decide
  have queue : queueOf op p = none := by rcases context with rfl | rfl <;> rfl
  rw [run, submit_acceptable acceptable]
  simp only [if_neg noArm, queue, State.readChecks_of_ne noRead, State.effect_of_queue scope, effect]

/-- Settles O4: each row is of scope D, and its effect is `State.deviceEffect` of its opcode. -/
theorem deviceCommandsComplete : Obligations.DeviceCommandsComplete := by
  unfold Obligations.DeviceCommandsComplete
  iterate 20 refine ⟨performs_device (fun _ _ => rfl) (by decide) fun _ _ => rfl, ?_⟩
  exact performs_device (fun _ _ => rfl) (by decide) fun _ _ => rfl

/-- Settles O5: each row is of scope J, with the effect `State.jobEffect` of its opcode, or concerns a context. -/
theorem jobCommandsComplete : Obligations.JobCommandsComplete := by
  unfold Obligations.JobCommandsComplete
  iterate 9 refine ⟨performs_job (fun _ _ => rfl) (by decide) (by decide) fun _ _ _ => rfl, ?_⟩
  refine ⟨performs_context (fun _ _ => rfl) (.inl rfl) fun _ _ => rfl, ?_⟩
  refine ⟨performs_context (fun _ _ => rfl) (.inr rfl) fun _ _ => rfl, ?_⟩
  iterate 8 refine ⟨performs_job (fun _ _ => rfl) (by decide) (by decide) fun _ _ _ => rfl, ?_⟩
  exact performs_job (fun _ _ => rfl) (by decide) (by decide) fun _ _ _ => rfl

/-! ### `XFER_OPEN` (R360, R361, R374) -/

theorem submit_xferOpen {s : State} {p : Packet} (h : Acceptable s 0x0221 p) :
    s.submit 0x0221 p =
      (let r := (s.accepted 0x0221 p p.ctx.toNat none).openXfer p.job.toNat p.seq.toNat p.params
       r.1.answered 0x0221 p r.2) := by
  have queue : queueOf 0x0221 p = none := rfl
  have noArm : (0x0221 : Nat) ≠ opcSTREAM_ARM := by decide
  rw [submit_acceptable h]
  simp only [if_neg noArm, queue, State.effect_of_job (show scopeOf 0x0221 = some .job by decide)]
  rfl

/-- Settles O8: the first free slot of the table is the lowest, and the effect of the opcode gives the rest. -/
theorem transferOpenCompletes : Obligations.TransferOpenCompletes := by
  intro s p acceptable t k slot x u
  have run : exec (.xferOpen p) s = .next (s.submit 0x0221 p) := rfl
  have opened : t.openXfer p.job.toNat p.seq.toNat p.params =
      if x.len = 0 then (u.xferComplete k, leBytes 4 (x.rkey k) ++ leBytes 4 0) else (u, leBytes 4 (x.rkey k) ++ leBytes 4 0) := by
    unfold State.openXfer
    rw [slot]
    rfl
  rw [run, submit_xferOpen acceptable]
  refine ⟨fun nonempty => ?_, fun empty => ?_⟩
  · rw [show State.openXfer _ _ _ _ = _ from opened, if_neg (Nat.ne_of_gt nonempty)]
  · rw [show State.openXfer _ _ _ _ = _ from opened, if_pos empty]

/-! ### Unsequenced reads (R355) -/

theorem submit_udp {p : Packet} (h : p.viaQp = none) (s : State) (op : Nat) :
    s.submit op p = s.arrives p.frame p.src p.dst (32 + p.params.length) fun s => s.woror op p := by
  unfold State.submit
  rw [h]

/-- MC0's queue as it was when the packet's frame was counted. -/
theorem State.frameCounted_queued (s : State) (a : Arrival) (i : Nat) :
    ((s.frameCounted a).hostCount i).host.queued = s.host.queued := by
  obtain ⟨c, o, e⟩ := s.frameCounted_eq a
  rw [e]
  rfl

theorem submit_unsequenced {s : State} {op : Nat} {p : Packet} (udp : p.viaQp = none) (frame : Taken s p.frame (32 + p.params.length) p.dst)
    (running : s.sec.stage = 4) (addressed : s.host.accepts p.src p.dst = true) (room : s.host.queued - p.taken < 256)
    (unseq : p.wflags = 2#8) (may : mayUnseq op = true)
    (ok : commandStatus (s.received p) op p.job.toNat p.ctx.toNat p.params = 0) :
    s.submit op p = (((s.received p).readReply op p.params).1.sendReply
      { answerTo p op with params := ((s.received p).readReply op p.params).2.take 1024 }).flushReplies := by
  have flags : p.wflags.toNat = 2 := by rw [unseq]; rfl
  have room' : ((s.frameCounted p.frame).hostCount hcWOROR_RX).host.queued - p.taken < 256 := by
    rw [State.frameCounted_queued]; exact room
  rw [submit_udp udp, arrives_taken frame running addressed]
  unfold State.woror
  have unsequencedFlag : bit 2 1 = true := by decide
  simp only [flags, room', decide_true, Bool.not_true, Bool.false_eq_true, if_false, unsequencedFlag, if_true,
    show ¬ (2 &&& 0xF9 ≠ 0) by decide]
  change (State.unsequenced (s.received p) op p).flushReplies = _
  unfold State.unsequenced
  simp [may, ok]

/-- Settles O11: the six opcodes may carry `UNSEQ`, and each answers with its reading of the state. -/
theorem unsequencedReadsComplete : Obligations.UnsequencedReadsComplete := by
  intro s p udp frame running addressed room unseq t ok answer
  have run : ∀ {c op}, Submits c op → mayUnseq op = true → ok op →
      exec (c p) s = .next (answer (t.readReply op p.params).1 op (t.readReply op p.params).2) := by
    intro c op submits may passed
    rw [submits, submit_unsequenced udp frame running addressed room unseq may passed]
  exact ⟨run (fun _ _ => rfl) (by decide), run (fun _ _ => rfl) (by decide), run (fun _ _ => rfl) (by decide),
    run (fun _ _ => rfl) (by decide), run (fun _ _ => rfl) (by decide), run (fun _ _ => rfl) (by decide)⟩

/-! ### While the port is not up (R344) -/

theorem arrives_down {s : State} (h : s.hostUp = false) (a : Arrival) (src dst : IpAddr) (len : Nat) (f : State → State) :
    s.arrives a src dst len f = s := frameIn_down h a len _ _

theorem roceIn_down {s : State} (h : s.hostUp = false) (r : RocePacket) (reth : Bool) (f g : State → Nat → State) :
    s.roceIn r reth f g = s := frameIn_down h r.frame _ _ _

/-- A command is lost with its datagram, or with every packet of its SEND. -/
theorem submit_down {s : State} (h : s.hostUp = false) (op : Nat) (p : Packet) : s.submit op p = s := by
  unfold State.submit
  split
  · exact arrives_down h _ _ _ _ _
  · generalize carrierPackets p op _ _ = packets
    induction packets with
    | nil => rfl
    | cons r rest ih =>
      rw [List.foldl_cons, show s.sendIn r = s from roceIn_down h r _ _ _]
      exact ih

theorem Submits.lost {c : Packet → Instr} {op : Nat} (run : Submits c op) {s : State} (down : s.hostUp = false) (p : Packet) :
    exec (c p) s = .next s := by
  rw [run, submit_down down]

/-- Settles O17: every frame, packet and command begins with the port that is not up. -/
theorem portDownLosesFrames : Obligations.PortDownLosesFrames := by
  intro s down
  have frames {t : State} (h : t = s) : (Host.Outcome.next t : Host.Outcome State Fault Refusal) = .next s := by rw [h]
  refine ⟨fun w => frames ?_, fun a b m => frames (frameIn_down down ..), fun a b m => frames (frameIn_down down ..),
    fun a b m d => frames (frameIn_down down ..), fun q n => frames ?_, fun r => frames (roceIn_down down ..),
    fun r => frames (roceIn_down down ..), fun r => frames (roceIn_down down ..), fun r => frames (roceIn_down down ..),
    fun r => frames (frameIn_down down ..), fun d q => frames (arrives_down down ..), fun o p => frames (submit_down down _ _), fun p => ?_⟩
  · rw [State.dropFrame, down]; rfl
  · rw [State.pfc, down]; rfl
  · iterate 54 refine ⟨Submits.lost (fun _ _ => rfl) down p, ?_⟩
    exact Submits.lost (fun _ _ => rfl) down p

end Sys2Proof.Machine
end

section
/-! SUPPORT. Parts of the state that a command leaves alone: the state without the host port, without the fabric or without the power
loop, and what the device has sent beside the first two. What a step changes within such a part, it does not change of the rest. -/

namespace Sys2Proof.Machine

/-! ### Beside the host port -/

/-- What is left of the state beside the host port and what the device has sent. -/
def State.besideHost (s : State) : State := { s with host := .reset, out := [] }

theorem State.eq_of_besideHost {s t : State} (h : t.besideHost = s.besideHost) : t = { s with host := t.host, out := t.out } :=
  congrArg (fun u : State => { u with host := t.host, out := t.out }) h

@[simp] theorem State.hostCount_besideHost (s : State) (i : Nat) : (s.hostCount i).besideHost = s.besideHost := rfl
@[simp] theorem State.hostCounts_besideHost (s : State) (i n : Nat) : (s.hostCounts i n).besideHost = s.besideHost := rfl
@[simp] theorem State.tx_besideHost (s : State) (f : Frame) : (s.tx f).besideHost = s.besideHost := rfl
@[simp] theorem State.setQp_besideHost (s : State) (i : Nat) (q : Qp) : (s.setQp i q).besideHost = s.besideHost := rfl

@[simp] theorem State.txResume_besideHost (s : State) : s.txResume.besideHost = s.besideHost := by
  unfold State.txResume
  split
  · rfl
  · exact State.foldl_leaves State.besideHost (f := fun s (f : Option Nat × Frame) => (s.send (.frame f.1 f.2)).hostCount hcFRAMES_TX)
      (fun _ _ => rfl) _ _

@[simp] theorem State.hostRetrain_besideHost (s : State) : s.hostRetrain.besideHost = s.besideHost := by
  unfold State.hostRetrain
  split <;> rfl

@[simp] theorem State.frameCounted_besideHost (s : State) (a : Arrival) : (s.frameCounted a).besideHost = s.besideHost := by
  obtain ⟨c, o, e⟩ := s.frameCounted_eq a
  rw [e]
  rfl

/-- A frame reaches beside the port what its action does. -/
theorem State.frameIn_besideHost {s : State} {a : Arrival} {len room : Nat} {f : State → State}
    (h : ∀ s, (f s).besideHost = s.besideHost) : (s.frameIn a len room f).besideHost = s.besideHost := by
  unfold State.frameIn
  split
  · rfl
  · dsimp only
    split
    · simp
    · split
      · simp
      · split <;> simp [h]

@[simp] theorem State.dropFrame_besideHost (s : State) (w : DropReason) : (s.dropFrame w).besideHost = s.besideHost := by
  unfold State.dropFrame
  split
  · rfl
  · cases w <;> simp

@[simp] theorem State.arp_besideHost (s : State) (a b : U32) (w : Asker) : (s.arp a b w).besideHost = s.besideHost :=
  State.frameIn_besideHost fun t => by split <;> rfl

@[simp] theorem State.neighborAsked_besideHost (s : State) (a b : IpAddr) (w : Asker) :
    (s.neighborAsked a b w).besideHost = s.besideHost :=
  State.frameIn_besideHost fun t => by split <;> rfl

@[simp] theorem State.echoAsked_besideHost (s : State) (a b : IpAddr) (w : Asker) (d : List Byte) :
    (s.echoAsked a b w d).besideHost = s.besideHost := by
  refine State.frameIn_besideHost fun t => ?_
  split
  · rfl
  · dsimp only
    generalize (if t.host.icmpAt = t.sclk / sclkSecond then t.host.icmpSent else 0) = n
    split <;> rfl

@[simp] theorem State.pfc_besideHost (s : State) (q : BitVec 3) (p : Pause) : (s.pfc q p).besideHost = s.besideHost := by
  unfold State.pfc
  split
  · rfl
  · extract_lets u
    have hu : u.besideHost = s.besideHost := by simp [u]
    clear_value u
    split
    · rw [State.txResume_besideHost, ← hu]
      rfl
    · exact hu

@[simp] theorem State.cnpIn_besideHost (s : State) (r : RocePacket) : (s.cnpIn r).besideHost = s.besideHost := by
  refine State.frameIn_besideHost fun t => ?_
  split
  · rfl
  · split
    · rfl
    · split <;> rfl

@[simp] theorem State.rateRestore_besideHost (s : State) (i : Nat) : (s.rateRestore i).besideHost = s.besideHost := rfl

@[simp] theorem State.hostLaneLost_besideHost (s : State) (l : Nat) : (s.hostLaneLost l).besideHost = s.besideHost := by
  unfold State.hostLaneLost
  split <;> simp

@[simp] theorem State.hostTrained_besideHost (s : State) (l : BitVec 8) : (s.hostTrained l).besideHost = s.besideHost := by
  unfold State.hostTrained
  split <;> rfl

@[simp] theorem State.heldExpires_besideHost (s : State) (q : U32) : (s.heldExpires q).besideHost = s.besideHost := by
  unfold State.heldExpires
  split <;> rfl

/-! ### Beside the fabric -/

/-- What is left of the state beside the fabric and what the device has sent. -/
def State.besideFab (s : State) : State := { s with fab := .reset, out := [] }

theorem State.eq_of_besideFab {s t : State} (h : t.besideFab = s.besideFab) : t = { s with fab := t.fab, out := t.out } :=
  congrArg (fun u : State => { u with fab := t.fab, out := t.out }) h

@[simp] theorem State.setPort_besideFab (s : State) (p : Nat) (x : Port) : (s.setPort p x).besideFab = s.besideFab := rfl
@[simp] theorem State.modPort_besideFab (s : State) (p : Nat) (f : Port → Port) : (s.modPort p f).besideFab = s.besideFab := rfl
@[simp] theorem State.sendTraining_besideFab (s : State) (p : Nat) : (s.sendTraining p).besideFab = s.besideFab := rfl

@[simp] theorem State.sendFlit_besideFab (s : State) (p kind seq : Nat) (pay : List Byte) :
    (s.sendFlit p kind seq pay).besideFab = s.besideFab := by
  unfold State.sendFlit
  split <;> rfl

@[simp] theorem State.pushFlits_besideFab (fuel : Nat) (s : State) (p : Nat) : (s.pushFlits p fuel).besideFab = s.besideFab := by
  induction fuel generalizing s with
  | zero => rfl
  | succ fuel ih =>
    unfold State.pushFlits
    dsimp only
    split
    · rfl
    · split
      · simp
      · simp [ih]

@[simp] theorem State.pushAll_besideFab (s : State) (p : Nat) : (s.pushAll p).besideFab = s.besideFab := s.pushFlits_besideFab _ p

@[simp] theorem State.ackFlits_besideFab (s : State) (p a : Nat) : (s.ackFlits p a).besideFab = s.besideFab := by
  unfold State.ackFlits
  split <;> simp

@[simp] theorem State.replayFrom_besideFab (s : State) (p a : Nat) : (s.replayFrom p a).besideFab = s.besideFab := by
  unfold State.replayFrom
  extract_lets x again s1
  have h1 : s1.besideFab = s.besideFab := State.setPort_besideFab _ _ _
  clear_value again s1
  split
  · rfl
  · refine (State.foldl_leaves State.besideFab ?_ again s1).trans h1
    exact fun t e => t.sendFlit_besideFab p ftDATA e.1 e.2

@[simp] theorem State.resumePort_besideFab (s : State) (p : Nat) : (s.resumePort p).besideFab = s.besideFab := by
  unfold State.resumePort
  split <;> simp

@[simp] theorem State.sendNak_besideFab (s : State) (p : Nat) : (s.sendNak p).besideFab = s.besideFab := by
  unfold State.sendNak
  simp

@[simp] theorem State.flitTaken_besideFab (s : State) (p : Nat) (f : Flit) : (s.flitTaken p f).besideFab = s.besideFab := by
  unfold State.flitTaken
  dsimp only
  split <;> simp

@[simp] theorem State.flitIn_besideFab (s : State) (p : Nat) (f : Flit) : (s.flitIn p f).besideFab = s.besideFab := by
  unfold State.flitIn
  split
  · rfl
  · dsimp only
    generalize hu : s.modPort p (fun x => x.corrections f s.sclk) = u
    have hu' : u.besideFab = s.besideFab := by rw [← hu]; rfl
    split
    · simp [hu']
    · split
      · simp [hu']
      · split
        · simp [hu']
        · split
          · simp [hu']
          · split <;> simp [hu']

@[simp] theorem State.nakIn_besideFab (s : State) (p m : Nat) : (s.nakIn p m).besideFab = s.besideFab := by
  unfold State.nakIn
  split <;> simp

@[simp] theorem State.ackTimer_besideFab (s : State) (p : Nat) : (s.ackTimer p).besideFab = s.besideFab := by
  unfold State.ackTimer
  simp

@[simp] theorem State.routeOut_besideFab (s : State) (k : FabPacket) : (s.routeOut k).besideFab = s.besideFab := by
  unfold State.routeOut
  split
  · split
    · rfl
    · exact State.pushAll_besideFab _ _
  · rfl

@[simp] theorem State.retryWaiting_besideFab (s : State) : s.retryWaiting.besideFab = s.besideFab := by
  unfold State.retryWaiting
  refine State.foldl_leaves State.besideFab (fun t k => ?_) _ _
  split
  · exact t.routeOut_besideFab k
  · rfl

@[simp] theorem State.portLost_besideFab (s : State) (p state : Nat) : (s.portLost p state).besideFab = s.besideFab :=
  State.foldl_leaves State.besideFab State.routeOut_besideFab _ _

@[simp] theorem State.retrain_besideFab (s : State) (p : Nat) (all : Bool) : (s.retrain p all).besideFab = s.besideFab := by
  unfold State.retrain
  dsimp only
  split
  · rfl
  · split <;> simp

@[simp] theorem State.replayLimit_besideFab (s : State) (p : Nat) : (s.replayLimit p).besideFab = s.besideFab := by
  unfold State.replayLimit
  split <;> simp

@[simp] theorem State.laneLost_besideFab (s : State) (p : Nat) : (s.laneLost p).besideFab = s.besideFab := by
  unfold State.laneLost
  split <;> simp

@[simp] theorem State.forward_besideFab (s : State) (k : FabPacket) : (s.forward k).besideFab = s.besideFab := by
  unfold State.forward
  split <;> simp

@[simp] theorem State.ackTimeout_besideFab (s : State) (k : FabPacket) : (s.ackTimeout k).besideFab = s.besideFab := by
  unfold State.ackTimeout
  split <;> simp

@[simp] theorem State.enablePort_besideFab (s : State) (p : Nat) (on : Bool) : (s.enablePort p on).besideFab = s.besideFab := by
  unfold State.enablePort
  dsimp only
  split
  · split
    · rfl
    · split <;> simp
  · simp

@[simp] theorem State.writeFid_besideFab (s : State) (f : Nat) : (s.writeFid f).besideFab = s.besideFab := by
  unfold State.writeFid
  dsimp only
  rw [State.foldl_leaves State.besideFab State.pushAll_besideFab, State.retryWaiting_besideFab,
    State.foldl_leaves State.besideFab State.resumePort_besideFab]
  rfl

/-! ### Beside the power loop -/

/-- What is left of the state beside the power loop. -/
def State.besidePower (s : State) : State := { s with power := .reset }

theorem State.eq_of_besidePower {s t : State} (h : t.besidePower = s.besidePower) : t = { s with power := t.power } :=
  congrArg (fun u : State => { u with power := t.power }) h

@[simp] theorem State.setPaddock_besidePower (s : State) (p : Nat) (x : Paddock) : (s.setPaddock p x).besidePower = s.besidePower := rfl
@[simp] theorem State.modPaddock_besidePower (s : State) (p : Nat) (f : Paddock → Paddock) :
    (s.modPaddock p f).besidePower = s.besidePower := rfl
@[simp] theorem State.setRail_besidePower (s : State) (q v : Nat) : (s.setRail q v).besidePower = s.besidePower := rfl
@[simp] theorem State.aimRail_besidePower (s : State) (q v : Nat) : (s.aimRail q v).besidePower = s.besidePower := rfl
@[simp] theorem State.setRamp_besidePower (s : State) (q : Nat) (r : Ramp) : (s.setRamp q r).besidePower = s.besidePower := rfl
@[simp] theorem State.replacedOne_besidePower (s : State) : s.replacedOne.besidePower = s.besidePower := rfl

@[simp] theorem State.throttleNow_besidePower (s : State) : s.throttleNow.besidePower = s.besidePower :=
  State.foldl_leaves State.besidePower (f := State.throttleOne) (fun _ _ => rfl) _ s

@[simp] theorem State.heldOver_besidePower (s : State) (x : Paddock) : (s.heldOver x).besidePower = s.besidePower := by
  unfold State.heldOver
  split <;> rfl

@[simp] theorem State.holdRamp_besidePower (s : State) (q : Nat) : (s.holdRamp q).besidePower = s.besidePower := by
  unfold State.holdRamp
  split <;> rfl

@[simp] theorem State.trySwitch_besidePower (s : State) (p : Nat) : (s.trySwitch p).besidePower = s.besidePower := by
  unfold State.trySwitch
  dsimp only
  split
  · rfl
  · split
    · rfl
    · split
      · split <;> rfl
      · exact State.heldOver_besidePower _ _

@[simp] theorem State.moveRail_besidePower (s : State) (q : Nat) : (s.moveRail q).besidePower = s.besidePower := by
  unfold State.moveRail
  dsimp only
  split
  · simp
  · split
    · simp
    · split <;> simp

@[simp] theorem State.runQuarter_besidePower (s : State) (q : Nat) : (s.runQuarter q).besidePower = s.besidePower := by
  unfold State.runQuarter
  rw [State.moveRail_besidePower, State.foldl_leaves State.besidePower State.trySwitch_besidePower]

@[simp] theorem State.retarget_besidePower (s : State) (p t : Nat) : (s.retarget p t).besidePower = s.besidePower := by
  unfold State.retarget
  extract_lets x u
  have hu : u.besidePower = s.besidePower := by unfold u; split <;> rfl
  clear_value u
  split
  · simp [hu]
  · split <;> simp [hu]

@[simp] theorem State.regrantOne_besidePower (s : State) (p : Nat) : (s.regrantOne p).besidePower = s.besidePower := by
  unfold State.regrantOne
  split <;> simp

@[simp] theorem State.regrant_besidePower (s : State) : s.regrant.besidePower = s.besidePower := by
  rw [State.regrant_eq, State.throttleNow_besidePower, State.foldl_leaves State.besidePower State.runQuarter_besidePower,
    State.foldl_leaves State.besidePower State.regrantOne_besidePower]

@[simp] theorem State.vrmCeilings_besidePower (s : State) : s.vrmCeilings.besidePower = s.besidePower := by
  unfold State.vrmCeilings
  exact State.foldl_leaves State.besidePower (fun t p => t.modPaddock_besidePower p _) _ s

@[simp] theorem State.telemetryIsLost_besidePower (s : State) : s.telemetryIsLost.besidePower = s.besidePower := by
  unfold State.telemetryIsLost
  split
  · rw [State.regrant_besidePower, State.vrmCeilings_besidePower]
    rfl
  · rfl

@[simp] theorem State.thermalStep_besidePower (s : State) (p : Nat) : (s.thermalStep p).besidePower = s.besidePower := by
  unfold State.thermalStep
  dsimp only
  split
  · rfl
  · split
    · simp
    · split <;> simp

@[simp] theorem State.vrmReached_besidePower (s : State) (q : Nat) : (s.vrmReached q).besidePower = s.besidePower := by
  unfold State.vrmReached
  split
  · simp
  · split <;> simp

@[simp] theorem State.droop_besidePower (s : State) (p mv : Nat) : (s.droop p mv).besidePower = s.besidePower := by
  unfold State.droop
  dsimp only
  split <;> simp

@[simp] theorem State.droopEnds_besidePower (s : State) (h : Steady) : (s.droopEnds h).besidePower = s.besidePower := by
  unfold State.droopEnds
  dsimp only
  split <;> simp

@[simp] theorem State.brake_besidePower (s : State) : s.brake.besidePower = s.besidePower := by
  unfold State.brake
  split
  · rfl
  · rw [State.regrant_besidePower, State.foldl_leaves State.besidePower]
    · rfl
    · exact fun _ _ => rfl

@[simp] theorem State.brakeEnds_besidePower (s : State) : s.brakeEnds.besidePower = s.besidePower := by
  unfold State.brakeEnds
  rw [State.regrant_besidePower, State.foldl_leaves State.besidePower]
  · rfl
  · exact fun _ _ => rfl

/-- Every alert but that of a power failure sets ceilings when its delay is over. -/
theorem State.vrmRecovered_besidePower {d : Disturbance} (h : d ≠ .powerFail) (s : State) :
    (s.vrmRecovered d).besidePower = s.besidePower := by
  unfold State.vrmRecovered
  cases d with
  | feedSag =>
    dsimp only
    split
    · rfl
    · rw [State.regrant_besidePower, State.vrmCeilings_besidePower]
      rfl
  | brownOut =>
    dsimp only
    split
    · rfl
    · rw [State.regrant_besidePower, State.vrmCeilings_besidePower]
      rfl
  | powerFail => exact absurd rfl h
  | overcurrent r => rfl
  | railFault r => rfl

end Sys2Proof.Machine
end

section
/-! CLAIM. The frames of the host port's, the links' and the power loop's commands. -/

namespace Sys2Proof.Machine

theorem onUnit_next {n c : Nat} {u t : State} (h : onUnit n c u = .next t) : t = u := by
  unfold onUnit at h
  split at h
  · exact (Host.Outcome.next.inj h).symm
  · cases h

theorem onUnits_next {n c m d : Nat} {u t : State} (h : onUnits n c m d u = .next t) : t = u := by
  unfold onUnits at h
  split at h
  · exact (Host.Outcome.next.inj h).symm
  · cases h

theorem next_inj {u t : State} (h : (Host.Outcome.next u : Host.Outcome State Fault Refusal) = .next t) : t = u :=
  (Host.Outcome.next.inj h).symm

/-- Settles O47: none of these commands changes anything beside the host port. -/
theorem hostFramesTouchOnlyThePort : Obligations.HostFramesTouchOnlyThePort := by
  intro s t c hc h
  apply State.eq_of_besideHost
  obtain ⟨w, rfl⟩ | ⟨a, b, m, rfl⟩ | ⟨a, b, m, rfl⟩ | ⟨a, b, m, d, rfl⟩ | ⟨q, n, rfl⟩ | ⟨q, rfl⟩ | ⟨i, rfl⟩ | ⟨l, rfl⟩ | ⟨l, rfl⟩ |
    rfl | ⟨q, rfl⟩ := hc
  · rw [next_inj h, State.dropFrame_besideHost]
  · rw [next_inj h, State.arp_besideHost]
  · rw [next_inj h, State.neighborAsked_besideHost]
  · rw [next_inj h, State.echoAsked_besideHost]
  · rw [next_inj h, State.pfc_besideHost]
  · rw [next_inj h, State.cnpIn_besideHost]
  · rw [onUnit_next h, State.rateRestore_besideHost]
  · rw [onUnit_next h, State.hostLaneLost_besideHost]
  · rw [next_inj h, State.hostTrained_besideHost]
  · rw [next_inj h, State.hostRetrain_besideHost]
  · rw [next_inj h, State.heldExpires_besideHost]

/-- Settles O48: none of these commands changes anything beside the fabric. -/
theorem flitsTouchOnlyTheFabric : Obligations.FlitsTouchOnlyTheFabric := by
  intro s t c hc h
  apply State.eq_of_besideFab
  obtain ⟨p, f, rfl⟩ | ⟨p, a, rfl⟩ | ⟨p, m, rfl⟩ | ⟨p, rfl⟩ | ⟨p, rfl⟩ | ⟨p, l, rfl⟩ | ⟨k, rfl⟩ | ⟨k, rfl⟩ | ⟨f, rfl⟩ | ⟨p, rfl⟩ |
    ⟨p, b, rfl⟩ := hc
  · rw [onUnit_next h, State.flitIn_besideFab]
  · rw [onUnit_next h, State.ackFlits_besideFab]
  · rw [onUnit_next h, State.nakIn_besideFab]
  · rw [onUnit_next h, State.replayLimit_besideFab]
  · rw [onUnit_next h, State.ackTimer_besideFab]
  · rw [onUnits_next h, State.laneLost_besideFab]
  · rw [next_inj h, State.forward_besideFab]
  · rw [next_inj h, State.ackTimeout_besideFab]
  · rw [next_inj h, State.writeFid_besideFab]
  · rw [onUnit_next h, State.retrain_besideFab]
  · rw [onUnit_next h, State.enablePort_besideFab]

/-- Each of the four jobs is signalled once; the state changes in its jobs alone. -/
theorem State.signalAll_eq (s : State) :
    ∃ js, (List.range 4).foldl State.signal s = { s with jobs := js } := ⟨_, rfl⟩

theorem State.job_signal (s : State) (n m : Nat) :
    (s.signal n).job m = if m = n then (s.job m).map fun x => { x with signals := x.signals + 1 } else s.job m := by
  rw [State.signal, State.modJob_eq, State.job_setJob_eq]
  split
  · next e => rw [e]
  · rfl

theorem State.job_signalAll (s : State) (m : Nat) : ((List.range 4).foldl State.signal s).job m =
    if m < 4 then (s.job m).map fun x => { x with signals := x.signals + 1 } else s.job m := by
  have steps : (List.range 4).foldl State.signal s = (((s.signal 0).signal 1).signal 2).signal 3 := rfl
  rw [steps]
  simp only [State.job_signal]
  by_cases h : m < 4
  · rw [if_pos h]
    interval_cases m <;> rfl
  · rw [if_neg h, if_neg (by omega), if_neg (by omega), if_neg (by omega), if_neg (by omega)]

theorem State.vrmRecovered_powerFail_standing {s : State} (h : s.power.powerFail = true) : s.vrmRecovered .powerFail = s := by
  simp [State.vrmRecovered, h]

theorem State.vrmRecovered_powerFail_over {s : State} (h : s.power.powerFail = false) : s.vrmRecovered .powerFail =
    (List.range 4).foldl State.signal { s with power := { s.power with handOutStopped := false } } := by
  simp [State.vrmRecovered, h]

/-- Settles O50: the commands change the power loop alone, and handing out resumes with a signal for each job. -/
theorem powerEventsTouchOnlyPower : Obligations.PowerEventsTouchOnlyPower := by
  intro s t c
  refine ⟨fun hc h => ?_, fun standing h => ?_, fun cleared h => ?_⟩
  · apply State.eq_of_besidePower
    obtain rfl | ⟨p, rfl⟩ | ⟨q, rfl⟩ | ⟨p, l, rfl⟩ | ⟨d, rfl⟩ | rfl | rfl | ⟨d, rfl, other⟩ := hc
    · rw [next_inj h, State.telemetryIsLost_besidePower]
    · rw [onUnit_next h, State.thermalStep_besidePower]
    · rw [onUnit_next h, State.vrmReached_besidePower]
    · rw [onUnit_next h, State.droop_besidePower]
    · rw [onUnit_next h, State.droopEnds_besidePower]
    · rw [next_inj h, State.brake_besidePower]
    · rw [next_inj h, State.brakeEnds_besidePower]
    · rw [next_inj h, State.vrmRecovered_besidePower other]
  · rw [next_inj h, State.vrmRecovered_powerFail_standing standing]
  · obtain rfl := next_inj h
    rw [State.vrmRecovered_powerFail_over cleared]
    obtain ⟨js, e⟩ := State.signalAll_eq { s with power := { s.power with handOutStopped := false } }
    refine ⟨by rw [e], fun j hj => ?_, fun j hj => ?_⟩
    · rw [State.job_signalAll, if_pos hj]
      rfl
    · rw [State.job_signalAll, if_neg (Nat.not_lt.2 hj)]
      rfl

end Sys2Proof.Machine
end

section
/-! SUPPORT. How a row of the table answers: with its effect at once, or with its effect when the unit that it names exists. -/

namespace Sys2Proof.Machine

theorem next_eq {u t : State} (h : u = t) : (Host.Outcome.next u : Host.Outcome State Fault Refusal) = .next t := by rw [h]

theorem onUnit_eq {n c : Nat} {u t : State} (hn : n < c) (h : u = t) : onUnit n c u = .next t := by
  rw [onUnit, if_pos hn, h]

theorem onUnits_eq {n c m d : Nat} {u t : State} (hn : n < c) (hm : m < d) (h : u = t) : onUnits n c m d u = .next t := by
  rw [onUnits, if_pos ⟨hn, hm⟩, h]

end Sys2Proof.Machine
end

section
/-! CLAIM. The frames that the host port drops, answers and obeys (R344-R349). -/

namespace Sys2Proof.Machine

/-! ### Counting a frame -/

@[simp] theorem State.frameCounted_ipv4 (s : State) (a : Arrival) : (s.frameCounted a).host.ipv4 = s.host.ipv4 := by
  obtain ⟨c, o, e⟩ := s.frameCounted_eq a; rw [e]
@[simp] theorem State.frameCounted_ipv6 (s : State) (a : Arrival) : (s.frameCounted a).host.ipv6 = s.host.ipv6 := by
  obtain ⟨c, o, e⟩ := s.frameCounted_eq a; rw [e]
@[simp] theorem State.frameCounted_mac (s : State) (a : Arrival) : (s.frameCounted a).host.mac = s.host.mac := by
  obtain ⟨c, o, e⟩ := s.frameCounted_eq a; rw [e]
@[simp] theorem State.frameCounted_permit (s : State) (a : Arrival) : (s.frameCounted a).host.permit = s.host.permit := by
  obtain ⟨c, o, e⟩ := s.frameCounted_eq a; rw [e]
@[simp] theorem State.frameCounted_icmpAt (s : State) (a : Arrival) : (s.frameCounted a).host.icmpAt = s.host.icmpAt := by
  obtain ⟨c, o, e⟩ := s.frameCounted_eq a; rw [e]
@[simp] theorem State.frameCounted_icmpSent (s : State) (a : Arrival) : (s.frameCounted a).host.icmpSent = s.host.icmpSent := by
  obtain ⟨c, o, e⟩ := s.frameCounted_eq a; rw [e]
@[simp] theorem State.frameCounted_sclk (s : State) (a : Arrival) : (s.frameCounted a).sclk = s.sclk := by
  obtain ⟨c, o, e⟩ := s.frameCounted_eq a; rw [e]
@[simp] theorem State.frameCounted_tagOk (s : State) (a : Arrival) (t : List (BitVec 12)) :
    (s.frameCounted a).host.tagOk t = s.host.tagOk t := by
  obtain ⟨c, o, e⟩ := s.frameCounted_eq a; rw [e]; rfl
@[simp] theorem State.frameCounted_accepts (s : State) (a : Arrival) (src dst : IpAddr) :
    (s.frameCounted a).host.accepts src dst = s.host.accepts src dst := by
  obtain ⟨c, o, e⟩ := s.frameCounted_eq a; rw [e]; rfl
@[simp] theorem State.frameCounted_addresses (s : State) (a : Arrival) : (s.frameCounted a).host.addresses = s.host.addresses := by
  obtain ⟨c, o, e⟩ := s.frameCounted_eq a; rw [e]; rfl
@[simp] theorem State.frameCounted_qp (s : State) (a : Arrival) (i : Nat) : (s.frameCounted a).qp i = s.qp i := by
  obtain ⟨c, o, e⟩ := s.frameCounted_eq a; rw [e]; rfl

/-! ### Frames that go no further -/

theorem frameIn_full {s : State} {a : Arrival} (up : s.hostUp = true) (full : a.buffer = .full) (len room : Nat) (f : State → State) :
    s.frameIn a len room f = s.frameCounted a := by
  simp [State.frameIn, up, full]

theorem frameIn_wrongTag {s : State} {a : Arrival} {len room : Nat} (up : s.hostUp = true) (buffer : a.buffer ≠ .full)
    (fits : len ≤ room) (tag : s.host.tagOk a.tags = false) (f : State → State) :
    s.frameIn a len room f = (s.frameCounted a).hostCount hcMAC_DROP := by
  simp [State.frameIn, up, buffer, Nat.not_lt.2 fits, tag]

theorem frameIn_tooLong {s : State} {a : Arrival} {len room : Nat} (up : s.hostUp = true) (buffer : a.buffer ≠ .full)
    (long : room < len) (f : State → State) : s.frameIn a len room f = (s.frameCounted a).hostCount hcFCS_DROP := by
  simp [State.frameIn, up, buffer, long]

/-- A frame that carries no IP payload is as long as it is. -/
theorem frameIn_short {s : State} {a : Arrival} {dst : IpAddr} (h : Taken s a 0 dst) (f : State → State) :
    s.frameIn a 0 0 f = f (s.frameCounted a) := frameIn_goes h.up h.buffer le_rfl h.tag f

/-! ### What the port answers -/

theorem State.dropFrame_up {s : State} (up : s.hostUp = true) {w : DropReason} (h : ∀ c u, w ≠ .fecFailed c u) :
    s.dropFrame w = (s.hostCount hcFRAMES_RX).hostCount (dropCounter w) := by
  rw [State.dropFrame, up]
  cases w with
  | fecFailed c u => exact absurd rfl (h c u)
  | badFcs => rfl
  | tooLong => rfl
  | otherMac => rfl
  | wrongTag => rfl
  | ipError => rfl
  | otherPort => rfl

theorem State.dropFrame_fecFailed {s : State} (up : s.hostUp = true) (c u : Nat) : s.dropFrame (.fecFailed c u) =
    (((s.hostCount hcFRAMES_RX).hostCounts hcFEC_CORR c).hostCounts hcFEC_UNCORR u).hostCount hcFCS_DROP := by
  rw [State.dropFrame, up]
  rfl

theorem State.arp_taken {s : State} {a b : U32} {w : Asker} {dst : IpAddr} (h : Taken s w.frame 0 dst) (own : s.host.ipv4 = some a) :
    s.arp a b w = (s.frameCounted w.frame).tx (.arp a b w.mac) := by
  unfold State.arp
  rw [frameIn_short h, if_pos (by rw [State.frameCounted_ipv4, own])]

theorem State.neighborAsked_taken {s : State} {a b : IpAddr} {w : Asker} {dst : IpAddr} (h : Taken s w.frame 0 dst)
    (own : a = linkLocal s.host.mac ∨ s.host.ipv6 = some a) :
    s.neighborAsked a b w = (s.frameCounted w.frame).tx (.neighbor a b w.mac) := by
  unfold State.neighborAsked
  rw [frameIn_short h, if_pos (by rwa [State.frameCounted_mac, State.frameCounted_ipv6])]

/-- An echo request for an address of the device, with the replies that have gone out in this second. -/
theorem State.echoAsked_taken {s : State} {a b : IpAddr} {w : Asker} {d : List Byte} (h : Taken s w.frame d.length a)
    (own : a ∈ s.host.addresses) {n : Nat} (sent : (if s.host.icmpAt = s.sclk / sclkSecond then s.host.icmpSent else 0) = n) :
    s.echoAsked a b w d =
      let u := s.frameCounted w.frame
      if 1000 ≤ n then u
      else ({ u with host := { u.host with icmpSent := n + 1, icmpAt := s.sclk / sclkSecond } }).tx (.echo a b w.mac d) := by
  unfold State.echoAsked
  rw [frameIn_taken h]
  simp only [State.frameCounted_addresses, List.contains_iff_mem.2 own, State.frameCounted_icmpAt, State.frameCounted_icmpSent,
    State.frameCounted_sclk, sent, Bool.not_true, Bool.false_eq_true, if_false]

/-- A PFC frame on the port's priority: what it has counted, and the pause. -/
theorem State.pfc_obeyed {s : State} {q : BitVec 3} (up : s.hostUp = true) (en : s.host.pfcEn = true) (prio : q.toNat = s.host.pfcPrio)
    (n : Pause) : s.pfc q n =
      let u := (s.hostCount hcFRAMES_RX).hostCounts hcFEC_CORR n.frame.corrected
      ({ u with host := { u.host with pausedUntil := s.sclk + pauseCycles n.quanta.toNat } }).txResume := by
  have obeyed : (s.host.pfcEn && q.toNat == s.host.pfcPrio) = true := by simp [en, prio]
  unfold State.pfc
  rw [up]
  exact if_pos obeyed

/-- Settles O14: each frame meets `State.frameIn`, and the port's answer behind it. -/
theorem hostFrameEventsComplete : Obligations.HostFrameEventsComplete := by
  intro s up t
  refine ⟨fun w h => next_eq (State.dropFrame_up up h), fun c u => next_eq (State.dropFrame_fecFailed up c u),
    fun a b w full => next_eq (frameIn_full up full ..), fun a b w buffer tag => next_eq (frameIn_wrongTag up buffer le_rfl tag _),
    fun a b w d buffer long => next_eq (frameIn_tooLong up buffer long _), fun a b w h own => next_eq (State.arp_taken h own),
    fun a b w h own => next_eq (State.neighborAsked_taken h own), fun a b w d h own => ?_,
    fun q n en prio => next_eq (State.pfc_obeyed up en prio n)⟩
  refine ⟨fun now few => next_eq ?_, fun now many => next_eq ?_, fun later => next_eq ?_⟩
  · rw [State.echoAsked_taken h own (if_pos now)]
    dsimp only
    rw [if_neg (Nat.not_le.2 few), ← now, ← State.frameCounted_icmpAt s w.frame]
  · rw [State.echoAsked_taken h own (if_pos now)]
    exact if_pos many
  · rw [State.echoAsked_taken h own (if_neg later)]
    rfl

end Sys2Proof.Machine
end

section
/-! CLAIM. RoCEv2 packets in their order, congestion, host transfers and the lanes of the host port (R344, R356-R365). -/

namespace Sys2Proof.Machine

/-! ### `SEND`, `WRITE`, `READ` -/

theorem State.sendIn_inOrder {s : State} {r : RocePacket} {i : Nat} (h : InOrder s r false i) : s.sendIn r =
    (let t := s.gotRoce r i
     if (partStarts r.part && (t.qp i).msg != 0) || (!partStarts r.part && (t.qp i).msg != 1) || !partFits (t.qp i) r then t.fatalNak i 1
     else if partStarts r.part && decide (16 ≤ t.sendBuffers) then t.txQp i (.rnrNak (t.qp i).epsn 1)
     else if 65536 < (sendBytes (t.qp i) r).length then t.fatalNak i 1
     else t.sendPart i r) := roceIn_inOrder h _ _

/-- A SEND packet that fits its message, with a buffer free for a first one. -/
theorem State.sendIn_fits {s : State} {r : RocePacket} {i : Nat} (h : InOrder s r false i)
    (place : ((s.gotRoce r i).qp i).msg = if partStarts r.part then 0 else 1) (fits : partFits ((s.gotRoce r i).qp i) r = true)
    (room : partStarts r.part = true → (s.gotRoce r i).sendBuffers < 16)
    (short : (sendBytes ((s.gotRoce r i).qp i) r).length ≤ 65536) : s.sendIn r = (s.gotRoce r i).sendPart i r := by
  rw [State.sendIn_inOrder h]
  cases starts : partStarts r.part with
  | true => simp [place, starts, fits, room starts, Nat.not_lt.2 short]
  | false => simp [place, starts, fits, Nat.not_lt.2 short]

theorem State.sendIn_unfit {s : State} {r : RocePacket} {i : Nat} (h : InOrder s r false i)
    (fits : partFits ((s.gotRoce r i).qp i) r = false) : s.sendIn r = (s.gotRoce r i).fatalNak i 1 := by
  rw [State.sendIn_inOrder h]
  simp [fits]

theorem State.rdmaWrite_first {s : State} {r : RocePacket} {i k : Nat} (h : InOrder s r true i) (starts : partStarts r.part = true)
    (idle : ((s.gotRoce r i).qp i).msg = 0) (key : (s.gotRoce r i).checkRkey i r false = .ok k)
    (len : lengthOk { (s.gotRoce r i).qp i with wrLeft := r.dmaLen.toNat } r = true) :
    s.rdmaWrite r = ((s.gotRoce r i).beginWrite i r k 2).writePayload i r := by
  unfold State.rdmaWrite
  rw [starts, roceIn_inOrder h]
  dsimp only
  rw [if_pos rfl, if_neg (not_not_intro idle), key]
  exact if_pos len

theorem State.rdmaWrite_next {s : State} {r : RocePacket} {i : Nat} (h : InOrder s r false i) (starts : partStarts r.part = false)
    (msg : ((s.gotRoce r i).qp i).msg = 2) (len : lengthOk ((s.gotRoce r i).qp i) r = true) :
    s.rdmaWrite r = (s.gotRoce r i).writePayload i r := by
  unfold State.rdmaWrite
  rw [starts, roceIn_inOrder h]
  simp [msg, len]

theorem State.rdmaRead_ok {s : State} {r : RocePacket} {i k : Nat} (h : InOrder s r true i)
    (idle : ((s.gotRoce r i).qp i).msg = 0) (key : (s.gotRoce r i).checkRkey i r true = .ok k) :
    s.rdmaRead r = (s.gotRoce r i).performRead i r k := by
  unfold State.rdmaRead
  rw [roceIn_inOrder h]
  simp [idle, key]

/-- Settles O15: a packet in its order is performed on the state that `State.gotRoce` leaves. -/
theorem roceEventsComplete : Obligations.RoceEventsComplete := by
  intro s r i t
  refine ⟨fun h starts idle fits room short => next_eq (State.sendIn_fits h ?_ fits (fun _ => room) short),
    fun h starts msg fits short => next_eq (State.sendIn_fits h ?_ fits ?_ short), fun h _ _ fits => next_eq (State.sendIn_unfit h fits),
    fun k h starts idle key len => next_eq (State.rdmaWrite_first h starts idle key len),
    fun h starts msg len => next_eq (State.rdmaWrite_next h starts msg len),
    fun k h idle key => next_eq (State.rdmaRead_ok h idle key), fun h => next_eq (roceIn_inOrder h _ _)⟩
  · rw [starts]; exact idle
  · rw [starts]; exact msg
  · rw [starts]; exact fun e => nomatch e

/-! ### Congestion, transfers and lanes -/

theorem State.cnpIn_taken {s : State} {r : RocePacket} {i : Nat} (frame : Taken s r.frame (roceLength r true) r.dst)
    (icrc : r.icrcOk = true) (addressed : s.host.accepts r.src r.dst = true) (qp : qpiOf r.qpn = some i) (rts : (s.qp i).state = 1) :
    s.cnpIn r = ((s.frameCounted r.frame).hostCount hcCNP_RX).setQp i { s.qp i with rate := max 1 ((s.qp i).rate / 2) } := by
  unfold State.cnpIn
  rw [frameIn_taken frame]
  simp [icrc, addressed, qp, rts, State.modQp_eq]

/-- A transfer that is open, whole and acknowledged. -/
theorem State.xferComplete_whole {s : State} {k : Nat} (isOpen : (s.xfer k).open_ = true) (counted : (s.xfer k).len ≤ (s.xfer k).counted)
    (acked : s.hostOffsets k (s.xfer k).gen = []) : s.xferComplete k =
      (let x := s.xfer k
       let st := if x.poisonDa.isSome then St.intPoison else St.done
       ((s.setXfer k { x with state := 3, status := st, watermark := x.counted, lastPacket := none }).finishAt x.seq st
         x.counted (xferReply st x.counted)).hostEnded x.job x.id St.done) := by
  have go : ¬((!(s.xfer k).open_) = true ∨ (s.xfer k).counted < (s.xfer k).len ∨ (!(s.hostOffsets k (s.xfer k).gen).isEmpty) = true) := by
    simp [isOpen, Nat.not_lt.2 counted, acked]
  unfold State.xferComplete
  exact if_neg go

theorem State.hostTimedOut_of_packet {s : State} {k t : Nat} {j : Job} (last : (s.xfer k).lastPacket = some t)
    (job : s.job (s.xfer k).job = some j) : s.hostTimedOut k =
      ((s.passTo (t + j.hostTimeoutMs * (sclkSecond / 1000))).xferComplete k).abortXfer k St.dataHostTimeout St.dataHostTimeout true := by
  simp only [State.hostTimedOut, last, job]

theorem State.hostRetrain_locked {s : State} (lock : s.power.hostLock = true) :
    s.hostRetrain = { s with host := { s.host with state := 1, locked := 0#8, txHeld := [] } } := by
  rw [State.hostRetrain, lock]
  rfl

theorem State.hostLaneLost_active {s : State} {l : Nat} (up : s.host.state = 2) (active : (modeLanes s.host.modeActive).getLsbD l = true) :
    s.hostLaneLost l = s.hostRetrain := if_pos ⟨up, active⟩

theorem State.hostTrained_all {s : State} {l : BitVec 8} (training : s.host.state = 1) (lock : s.power.hostLock = true)
    (all : l &&& modeLanes s.host.mode = modeLanes s.host.mode) : s.hostTrained l =
      { s with host := { s.host with locked := modeLanes s.host.mode, modeActive := s.host.mode, state := 2 } } := by
  unfold State.hostTrained
  simp [training, lock, all]

/-- Settles O16. -/
theorem transferAndCongestionEventsComplete : Obligations.TransferAndCongestionEventsComplete := by
  intro s
  refine ⟨fun r i frame icrc addressed qp rts => next_eq (State.cnpIn_taken frame icrc addressed qp rts),
    fun i hi => onUnit_eq hi rfl, fun k hk isOpen counted acked => onUnit_eq hk (State.xferComplete_whole isOpen counted acked),
    fun k t j hk last job => onUnit_eq hk (State.hostTimedOut_of_packet last job),
    fun l hl up lock active => onUnit_eq hl ((State.hostLaneLost_active up active).trans (State.hostRetrain_locked lock)),
    fun l training lock all => next_eq (State.hostTrained_all training lock all)⟩

end Sys2Proof.Machine
end

section
/-! CLAIM. Control fields of registers, the links of the fabric and their training (R110, R271, R304-R309, R342, R344, R466, R478). -/

namespace Sys2Proof.Machine

/-! ### Retraining -/

/-- The port that begins to retrain, at a host's wish or after a failure (R307). -/
def Port.retraining (x : Port) (now : Nat) (testAll : Bool) : Port :=
  { x.leaves 1 now with
    retrains := sat16 (x.retrains + 1), testAll := x.testAll || testAll, replaysInRow := 0, trainAt := some now
    barren := if testAll then [] else x.failures now }

theorem State.retrain_asked {s : State} {p : Nat} (en : (s.port p).enable = true) (lock : s.power.fabLock.getLsbD (p / 4) = true) :
    s.retrain p true = (s.setPort p ((s.port p).retraining s.sclk true)).sendTraining p := by
  unfold State.retrain
  simp only [en, lock]
  rfl

/-- A failing link retrains while it has not failed three times in the last second. -/
theorem State.retrain_failed {s : State} {p : Nat} (en : (s.port p).enable = true) (lock : s.power.fabLock.getLsbD (p / 4) = true)
    (few : ((s.port p).failures s.sclk).length < 3) :
    s.retrain p false = (s.setPort p ((s.port p).retraining s.sclk false)).sendTraining p := by
  unfold State.retrain
  simp only [en, lock, Nat.not_le.2 few, and_false, if_false]
  rfl

theorem State.retrain_fruitless {s : State} {p : Nat} (en : (s.port p).enable = true) (lock : s.power.fabLock.getLsbD (p / 4) = true)
    (many : 3 ≤ ((s.port p).failures s.sclk).length) : s.retrain p false = s.portLost p 0 := by
  unfold State.retrain
  simp [en, lock, many]

/-- What a port that is up becomes when its link fails. -/
theorem Port.retraining_of_up {x : Port} (up : x.up = true) (now : Nat) : x.retraining now false =
    { x with state := 1, retrains := sat16 (x.retrains + 1), replaysInRow := 0, trainAt := some now,
             barren := x.failures now, leftAt := now } := by
  simp [Port.retraining, Port.leaves, up]

theorem Port.retraining_asked (x : Port) (now : Nat) : x.retraining now true =
    { x with state := 1, retrains := sat16 (x.retrains + 1), testAll := true, replaysInRow := 0, trainAt := some now,
             barren := [], leftAt := if x.up then now else x.leftAt } := by
  simp [Port.retraining, Port.leaves]

/-! ### Control fields -/

theorem State.enablePort_locked {s : State} {p : Nat} (off : (s.port p).enable = false)
    (lock : s.power.fabLock.getLsbD (p / 4) = true) :
    s.enablePort p true = (s.setPort p { s.port p with enable := true, state := 1 }).sendTraining p := by
  simp [State.enablePort, off, lock]

theorem State.enablePort_unlocked {s : State} {p : Nat} (off : (s.port p).enable = false)
    (lock : s.power.fabLock.getLsbD (p / 4) = false) :
    s.enablePort p true = s.setPort p { s.port p with enable := true, state := 0 } := by
  simp [State.enablePort, off, lock]

/-- Settles O13: the fields of tiles and of the STP are record updates, and those of ports are `State.retrain`, `State.enablePort` and
`State.hostRetrain`. -/
theorem registerWritesComplete : Obligations.RegisterWritesComplete := by
  intro s
  refine ⟨fun n hn => onUnit_eq hn rfl, fun n hn => onUnit_eq hn rfl, fun n hn => onUnit_eq hn rfl, fun n hn => onUnit_eq hn rfl,
    rfl, fun f => rfl, fun p hp en lock => onUnit_eq hp ?_, fun p hp off lock => onUnit_eq hp (State.enablePort_locked off lock),
    fun p hp off lock => onUnit_eq hp (State.enablePort_unlocked off lock), fun p hp => onUnit_eq hp rfl,
    fun lock => next_eq (State.hostRetrain_locked lock)⟩
  rw [State.retrain_asked en lock, Port.retraining_asked]

/-! ### Flits (R304-R307) -/

/-- A flit at a port that is up, with its PLL locked, on the state that has counted its corrections. -/
theorem State.flitIn_up {s : State} {p : Nat} (up : (s.port p).up = true) (lock : s.power.fabLock.getLsbD (p / 4) = true) (f : Flit) :
    s.flitIn p f =
      (let t := s.setPort p ((s.port p).corrections f s.sclk)
       if f.badLanes ≠ 0#4 then t.sendNak p
       else if !flitGood f then (t.modPort p fun x => { x with crcErr := sat32 (x.crcErr + 1) }).sendNak p
       else if flitKind f ≠ ftDATA then t.ackFlits p (flitAck f)
       else if flitSeq f = ((s.port p).rxSeq + 1) % 4096 then t.flitTaken p f
       else if (flitSeq f + 4096 - ((s.port p).rxSeq + 1) % 4096) % 4096 < 2048 ∧ !(t.port p).nakOut then
         (t.sendNak p).ackFlits p (flitAck f)
       else t.ackFlits p (flitAck f)) := by
  have rx : ((s.setPort p ((s.port p).corrections f s.sclk)).port p).rxSeq = (s.port p).rxSeq := by
    rw [State.port_setPort_same]
    rfl
  unfold State.flitIn
  simp only [up, lock, State.modPort_eq, rx]
  rfl

/-- Settles O18: the clauses of a data flit are the branches of `State.flitIn_up`, and a failing link retrains or is lost. -/
theorem linkEventsComplete : Obligations.LinkEventsComplete := by
  intro s p hp up lock x c
  have fails (en : x.enable = true) (few : (x.failures s.sclk).length < 3) : s.retrain p false =
      (s.setPort p { x with state := 1, retrains := sat16 (x.retrains + 1), replaysInRow := 0, trainAt := some s.sclk
                            barren := x.failures s.sclk, leftAt := s.sclk }).sendTraining p := by
    rw [State.retrain_failed en lock few, Port.retraining_of_up up]
  have limit (n : 16 ≤ x.replaysInRow) : s.replayLimit p = s.retrain p false := if_pos ⟨up, n⟩
  have lane : s.laneLost p = s.retrain p false := if_pos up
  refine ⟨fun f sound good kind seq => onUnit_eq hp ?_, fun f bad => onUnit_eq hp ?_, fun f sound bad => onUnit_eq hp ?_,
    fun a => onUnit_eq hp (if_pos up), fun m => onUnit_eq hp (if_pos up), fun n en few => onUnit_eq hp ((limit n).trans (fails en few)),
    fun n en many => onUnit_eq hp ((limit n).trans (State.retrain_fruitless en lock many)),
    fun l hl en few => onUnits_eq hp hl (lane.trans (fails en few)),
    fun l hl en many => onUnits_eq hp hl (lane.trans (State.retrain_fruitless en lock many)), onUnit_eq hp rfl⟩
  · rw [State.flitIn_up up lock]
    simp [sound, good, kind, seq, c, x]
  · rw [State.flitIn_up up lock]
    exact if_pos bad
  · rw [State.flitIn_up up lock]
    simp [sound, bad, c, x]

/-! ### The end of a retrain (R307, R309, R478) -/

/-- Settles O19: a port that trains with its PLL locked takes up the result, and has lanes enough or not. -/
theorem portTrainingCompletes : Obligations.PortTrainingCompletes := by
  intro s p r hp training lock y n t u
  have ends : s.trained p r = if n < y.1.minLanes + 2 then u.portLost p 0 else u.comesUp p n := by
    have trains : ¬((s.port p).state ≠ 1 ∨ (!s.power.fabLock.getLsbD (p / 4)) = true) := by simp [training, lock]
    unfold State.trained
    exact if_neg trains
  exact ⟨fun enough => onUnit_eq hp (ends.trans (if_neg (Nat.not_lt.2 enough))), fun few => onUnit_eq hp (ends.trans (if_pos few))⟩

end Sys2Proof.Machine
end

section
/-! CLAIM. Packets that arrive: forwarded, turned away, or handled for their collective; and peers that are late or lost (R309-R313,
R323-R339, R436, R437). -/

namespace Sys2Proof.Machine

/-! ### What happens before a packet's kind matters -/

theorem State.forward_other {s : State} {k : FabPacket} (set : s.fab.fid ≠ 0xFFF) (other : k.dest.toNat ≠ s.fab.fid) :
    s.forward k = s.routeOut k := if_neg (not_or.2 ⟨set, other⟩)

theorem State.receive_other {s : State} {k : FabPacket} (set : s.fab.fid ≠ 0xFFF) (other : k.dest.toNat ≠ s.fab.fid)
    (f : State → Nat → Job → State) : s.receive k f = s.routeOut k := by
  rw [State.receive, if_pos ⟨set, other⟩, State.forward_other set other]

theorem State.pairReceive_other {s : State} {k : FabPacket} (set : s.fab.fid ≠ 0xFFF) (other : k.dest.toNat ≠ s.fab.fid)
    (f : State → Nat → Job → State) : s.pairReceive k f = s.routeOut k := by
  rw [State.pairReceive, if_neg set, if_pos other, State.forward_other set other]

theorem State.receive_dropped {s : State} {k : FabPacket} (here : k.dest.toNat = s.fab.fid ∨ s.fab.fid = 0xFFF)
    (out : s.admits k = none) (f : State → Nat → Job → State) : s.receive k f = s.dropped := by
  have stays : ¬(s.fab.fid ≠ 0xFFF ∧ k.dest.toNat ≠ s.fab.fid) := by tauto
  rw [State.receive, if_neg stays, out]

theorem State.receive_admitted {s : State} {k : FabPacket} {jn : Nat} {j : Job} (here : k.dest.toNat = s.fab.fid)
    (ok : s.admits k = some (jn, j)) (f : State → Nat → Job → State) : s.receive k f = f s jn j := by
  have stays : ¬(s.fab.fid ≠ 0xFFF ∧ k.dest.toNat ≠ s.fab.fid) := fun h => h.2 here
  rw [State.receive, if_neg stays, ok]

/-- Settles O20: a packet of a collective and one of a pair are forwarded alike, before anything else is asked of them. -/
theorem packetsNotTakenHere : Obligations.PacketsNotTakenHere := by
  intro s k
  refine ⟨fun set other => ?_, fun t collective here out ht => ?_⟩
  · have both (f g : State → Nat → Job → State) :
        (if isPairPacket k then s.pairReceive k f else s.receive k g) = s.routeOut k := by
      rw [State.pairReceive_other set other, State.receive_other set other, ite_self]
    exact ⟨next_eq (State.forward_other set other), next_eq (both _ _), next_eq (both _ _), next_eq (both _ _), next_eq (both _ _),
      next_eq (State.receive_other set other _)⟩
  · have dropped (f : State → Nat → Job → State) (u : State) : (if isPairPacket k then u else s.receive k f) = t := by
      rw [collective, State.receive_dropped here out, ht]
      rfl
    exact ⟨next_eq (dropped _ _), next_eq (dropped _ _), next_eq (dropped _ _), next_eq (dropped _ _),
      next_eq ((State.receive_dropped here out _).trans ht.symm)⟩

/-! ### Packets of collectives -/

/-- READY or JOIN for a started collective whose CRC agrees. -/
theorem State.greeting_agrees {s : State} {jn : Nat} {j : Job} {k : FabPacket} {w : Work} {c : CollRun}
    (coll : s.collFor jn j k = some (w, c)) (crc : le k.payload 0 4 = c.crc.toNat) : s.greeting jn j k =
      ((if k.pkind.toNat = pkREADY then
          ((s.heard w c).modColl w.seq fun c => { c with readyFrom := c.readyFrom ++ [k.src.toNat] }).pumpColl w.seq
        else (s.heard w c).modColl w.seq fun c => { c with joinFrom := c.joinFrom ++ [k.src.toNat] }).flushColl w.seq).noteWait w.seq := by
  simp [State.greeting, coll, crc]

/-- The first copy of a DATA packet, for a started collective. -/
theorem State.delivers_first {s : State} {jn : Nat} {j : Job} {k : FabPacket} {w : Work} {c : CollRun} {v : CView} {t : State}
    (ht : t = ((s.sendPacket (packetAck k)).countLink true jn k.payload.length).modJob jn fun j =>
      { j with delivered := deliveryKey k :: j.delivered })
    (fresh : j.delivered.contains (deliveryKey k) = false) (coll : t.collFor jn j k = some (w, c)) (view : collViewOf t j w = some v) :
    s.delivers jn j k = t.takeData w c v k := by
  unfold State.delivers
  simp only [fresh, Bool.false_eq_true, if_false, ← ht, coll, view]

theorem State.delivers_again {s : State} {jn : Nat} {j : Job} {k : FabPacket} (again : j.delivered.contains (deliveryKey k) = true) :
    s.delivers jn j k = (s.sendPacket (packetAck k)).countLink true jn k.payload.length := by
  unfold State.delivers
  simp only [again, if_true]

/-- Settles O21: an admitted packet of a collective meets the action of its kind. -/
theorem collectivePacketsComplete : Obligations.CollectivePacketsComplete := by
  intro s k jn j collective here ok heard t
  have meets (f : State → Nat → Job → State) (u : State) : (if isPairPacket k then u else s.receive k f) = f s jn j := by
    rw [collective]
    exact State.receive_admitted here ok f
  refine ⟨fun w c coll crc kind => next_eq ((meets _ _).trans ?_), fun w c coll crc kind => next_eq ((meets _ _).trans ?_),
    fun w c v fresh coll view => next_eq ((meets _ _).trans (State.delivers_first rfl fresh coll view)),
    fun again => next_eq ((meets _ _).trans (State.delivers_again again)), next_eq (meets _ _),
    fun step attempt goes => next_eq ((State.receive_admitted here ok _).trans ?_)⟩
  · rw [State.greeting_agrees coll crc, if_pos kind]
  · have join : k.pkind.toNat ≠ pkREADY := by rw [kind]; decide
    rw [State.greeting_agrees coll crc, if_neg join]
  · simp [State.abortPacket, step, attempt, goes]

/-! ### Peers (R312, R338, R436, R437) -/

/-- The job after the loss of a device of its mapping. -/
def Job.loses (j : Job) (d now : Nat) : Job :=
  { j with lost := j.lost ++ [d], events := j.events ++ [now], lostAt := if j.peerState = 0 then now else j.lostAt
           peerState := if j.peerState ≠ 0 then j.peerState else if j.policy = 0 then 2 else 1 }

theorem State.modJob_of_job {s : State} {jn : Nat} {j : Job} (h : s.job jn = some j) (f : Job → Job) :
    s.modJob jn f = s.setJob jn (some (f j)) := by
  rw [State.modJob_eq, h]
  rfl

theorem State.peerIsLost_of {s : State} {jn d : Nat} {j : Job} {dev : MapDev} (job : s.job jn = some j)
    (device : j.mapping.devs[d]? = some dev) (other : d ≠ j.mapping.self) (new : j.lost.contains d = false)
    (gone : ((j.late.any fun l => l.1 == d && decide (j.lossAttempts ≤ l.2.1)) ||
      (s.unreachable dev.fid && decide (s.routeLostAt dev.fid + j.lossMs * msCycles ≤ s.sclk))) = true) :
    s.peerIsLost jn d = s.setJob jn (some (j.loses d s.sclk)) := by
  unfold State.peerIsLost
  have lost : ¬(d = j.mapping.self ∨ j.lost.contains d = true ∨
      (!((j.late.any fun l => l.1 == d && decide (j.lossAttempts ≤ l.2.1)) ||
        (s.unreachable dev.fid && decide (s.routeLostAt dev.fid + j.lossMs * msCycles ≤ s.sclk)))) = true) := by
    rw [gone, new]
    simp [other]
  simp only [job, device]
  rw [if_neg lost, State.modJob_of_job job]
  rfl

/-- Where no frame is held, time passes and nothing else. -/
theorem State.passTo_of_noneHeld {s : State} (h : s.host.txHeld = []) (t : Nat) : s.passTo t = { s with sclk := max s.sclk t } := by
  unfold State.passTo State.txResume
  split
  · rfl
  · have noFrames : ({ s with sclk := max s.sclk t } : State).host.txHeld = [] := h
    rw [noFrames, List.foldl_nil, ← noFrames]

theorem State.peerLate_started {s : State} {q : Nat} {w : Work} {c : CollRun} (work : s.work q = some w) (coll : w.coll = some c)
    (started : c.started = true) : s.peerLate q = s.breakColl w c St.intPeerLate := by
  simp [State.peerLate, work, coll, started]

/-- Settles O22: each event under the condition of its clause. -/
theorem peerEventsComplete : Obligations.PeerEventsComplete := by
  intro s
  refine ⟨fun k late sent => next_eq ?_, fun q w c work coll started => next_eq (State.peerLate_started work coll started),
    fun jn d j dev hjn job device other new often routed => onUnit_eq hjn ?_,
    fun jn d j dev t hjn job device other new cut held ht => onUnit_eq hjn ?_, fun jn j hjn job policy state => onUnit_eq hjn ?_⟩
  · exact if_pos ⟨late, by rw [sent]; rfl⟩
  · have stays : s.lossPasses jn d = s := by simp [State.lossPasses, job, device, routed]
    rw [stays, State.peerIsLost_of job device other new (by rw [often, Bool.true_or])]
    rfl
  · have passes : s.lossPasses jn d = t := by
      simp only [State.lossPasses, job, device, cut, if_true]
      rw [State.passTo_of_noneHeld held, ht]
    have cut' : t.unreachable dev.fid = true := by rw [ht]; exact cut
    have passed : t.routeLostAt dev.fid + j.lossMs * msCycles ≤ t.sclk := by rw [ht]; exact Nat.le_max_right _ _
    have job' : t.job jn = some j := by rw [ht]; exact job
    rw [passes, State.peerIsLost_of job' device other new (by simp [cut', passed])]
    rfl
  · rw [State.spareIsDue, State.modJob_of_job job]
    simp [policy, state]

end Sys2Proof.Machine
end

section
/-! CLAIM. Packets and events of mirror pairs, copies, failovers and the lease (R444-R457). -/

namespace Sys2Proof.Machine

/-! ### Packets between partners -/

/-- No serial number is older than itself. -/
theorem older_self {n : Nat} (c : Nat) (h : c < 2 ^ n) : older n c c = false := by
  have gap : (c + 2 ^ n - c % 2 ^ n) % 2 ^ n = 0 := by
    rw [Nat.mod_eq_of_lt h, Nat.add_sub_cancel_left, Nat.mod_self]
  unfold older
  simp only [gap]
  rfl

theorem State.pairReceive_here {s : State} {k : FabPacket} {jn : Nat} {j : Job} (set : s.fab.fid ≠ 0xFFF)
    (here : k.dest.toNat = s.fab.fid) (tag : s.jobOfTag k.tag.toNat = some jn) (job : (s.pairHeard jn k).job jn = some j)
    (f : State → Nat → Job → State) : s.pairReceive k f = f (s.pairHeard jn k) jn j := by
  unfold State.pairReceive
  rw [if_neg set, if_neg (not_not.2 here)]
  simp only [tag, job]

/-- A READY of the partner of a pair with a state set. -/
theorem State.imageAsked_partner {s : State} {k : FabPacket} {jn : Nat} {j : Job} {q : Pairing} {c : StateSet}
    (pair : j.pair = some q) (set : j.stateSet = some c) (src : k.src.toNat = q.partner) : s.imageAsked k jn j =
      if q.secondary = false then s.partnerReady jn q
      else match q.newestImage with
        | some (i, n) => s.sendPackets (copyPackets s j c (q.imageDa c i) q.partner n)
        | none => s := by
  unfold State.imageAsked
  simp only [pair, set]
  rw [if_neg (not_not.2 src)]
  cases q.secondary <;> rfl

/-- A piece of the image that a device restores from its partner. -/
theorem State.copyArrives_restore {s : State} {k : FabPacket} {jn : Nat} {j : Job} {q : Pairing} {c : StateSet} {i : Copy} {da : Nat}
    (pair : j.pair = some q) (set : j.stateSet = some c) (src : k.src.toNat = q.partner)
    (fits : copyOffset k + k.payload.length ≤ c.bytes) (restore : j.restore = some i) (partner : i.target = 3)
    (place : c.regionDa (copyOffset k) = some da) : s.copyArrives k jn j =
      (((s.sendPacket (packetAck k)).copyBefore jn da k.payload.length).storePieces k da).modJob jn fun j =>
        { j with restore := some { i with step := k.step.toNat, poison := if i.poison.isNone ∧ k.poison ≠ 0#128 then some da else i.poison }
                 pair := some { q with got := if q.got.contains (copyOffset k) then q.got else copyOffset k :: q.got } } := by
  have taken : ¬(k.src.toNat ≠ q.partner ∨ c.bytes < copyOffset k + k.payload.length) := by omega
  unfold State.copyArrives
  simp only [pair, set, restore]
  rw [if_neg taken, if_neg (not_not.2 partner)]
  simp only [place]

/-- A further piece of the image that a secondary receives. -/
theorem State.copyArrives_image {s : State} {k : FabPacket} {jn : Nat} {j : Job} {q : Pairing} {c : StateSet} {i : Nat}
    (pair : j.pair = some q) (set : j.stateSet = some c) (src : k.src.toNat = q.partner)
    (fits : copyOffset k + k.payload.length ≤ c.bytes) (restore : j.restore = none) (secondary : q.secondary = true)
    (image : q.receiving = some (i, k.step.toNat)) (got : q.got ≠ []) : s.copyArrives k jn j =
      (((s.sendPacket (packetAck k)).copyBefore jn (q.imageDa c i + mib2 + copyOffset k) k.payload.length).storePieces k
        (q.imageDa c i + mib2 + copyOffset k)).modJob jn fun j => { j with
          pair := some { q with
            receiving := some (i, k.step.toNat)
            got := if q.got.contains (copyOffset k) then q.got else copyOffset k :: q.got } } := by
  have taken : ¬(k.src.toNat ≠ q.partner ∨ c.bytes < copyOffset k + k.payload.length) := by omega
  have isSecondary : ¬(!q.secondary) = true := by simp [secondary]
  have current : older 32 k.step.toNat k.step.toNat = false := older_self _ k.step.isLt
  have some' : q.got.isEmpty = false := by simpa using got
  unfold State.copyArrives
  simp only [pair, set, restore]
  rw [if_neg taken, if_neg isSecondary]
  simp only [image, current, some', if_true, Bool.false_eq_true, if_false]

theorem State.partnerReady_idle {s : State} {jn : Nat} {q : Pairing} (idle : q.sending = none) :
    s.partnerReady jn q = s.modJob jn fun j => { j with pair := some { q with ready := true } } := by
  simp only [State.partnerReady, idle]

theorem State.partnerReady_gone {s : State} {jn : Nat} {q : Pairing} {y : Copy} (sending : q.sending = some y) (gone : q.gone = true) :
    s.partnerReady jn q = s.modJob jn fun j =>
      { j with pair := some { q with ready := true, sending := none, gone := false, sentStep := y.step } } := by
  simp only [State.partnerReady, sending, gone, if_true]

theorem State.partnerReady_waiting {s : State} {jn : Nat} {q : Pairing} {y : Copy} (sending : q.sending = some y)
    (waits : q.gone = false) : s.partnerReady jn q = s.mirrorGoes jn := by
  simp only [State.partnerReady, sending, waits, Bool.false_eq_true, if_false]

theorem State.pairGreets_hello {s : State} {k : FabPacket} {jn : Nat} {j : Job} {q : Pairing} (hello : k.collId.toNat = cidHello)
    (pair : j.pair = some q) (src : k.src.toNat = q.partner) : s.pairGreets k jn j = s.helloDecides jn k.payload := by
  simp only [State.pairGreets, hello, pair, src, if_true]

theorem State.pairGreets_early {s : State} {k : FabPacket} {jn : Nat} {j : Job} (hello : k.collId.toNat = cidHello)
    (pair : j.pair = none) : s.pairGreets k jn j = s.modJob jn fun j => { j with early := j.early ++ [k] } := by
  simp only [State.pairGreets, hello, pair, if_true]

/-- Settles O23: a packet of the pair for this device meets the action of its kind, on the state that has heard the partner. -/
theorem pairPacketsComplete : Obligations.PairPacketsComplete := by
  intro s k jn j ofPair set here tag job t
  have meets (f : State → Nat → Job → State) (u : State) : (if isPairPacket k then s.pairReceive k f else u) = f t jn j := by
    rw [ofPair]
    exact State.pairReceive_here set here tag job f
  have ready {u : State} (h : t.imageAsked k jn j = u) : exec (.ready k) s = .next u := next_eq ((meets _ _).trans h)
  have primary {q : Pairing} {c : StateSet} (pair : j.pair = some q) (stateSet : j.stateSet = some c) (src : k.src.toNat = q.partner)
      (first : q.secondary = false) : t.imageAsked k jn j = t.partnerReady jn q := by
    rw [State.imageAsked_partner pair stateSet src, if_pos first]
  refine ⟨fun q c i n pair stateSet src second newest => ready ?_,
    fun q c pair stateSet src first idle => ready ((primary pair stateSet src first).trans (State.partnerReady_idle idle)),
    fun q c y pair stateSet src first sending gone =>
      ready ((primary pair stateSet src first).trans (State.partnerReady_gone sending gone)),
    fun q c y pair stateSet src first sending waits =>
      ready ((primary pair stateSet src first).trans (State.partnerReady_waiting sending waits)),
    fun q pair hello src => next_eq ((meets _ _).trans (State.pairGreets_hello hello pair src)),
    fun pair hello => next_eq ((meets _ _).trans (State.pairGreets_early hello pair)),
    fun q c da i pair stateSet src fits restore partner place =>
      next_eq ((meets _ _).trans (State.copyArrives_restore pair stateSet src fits restore partner place)),
    fun q c i pair stateSet src fits restore second image got =>
      next_eq ((meets _ _).trans (State.copyArrives_image pair stateSet src fits restore second image got)),
    next_eq (meets _ _)⟩
  rw [State.imageAsked_partner pair stateSet src, if_neg (by rw [second]; decide), newest]

/-! ### Events of a pair -/

section
variable {s : State} {jn : Nat} {j : Job} (job : s.job jn = some j)
include job

theorem State.pairTimesOut_paired {q : Pairing} (pair : j.pair = some q) (paired : q.state = 1) : s.pairTimesOut jn =
    (s.setJob jn (some { j with
      pair := some { q with state := 2, sending := none, outbox := [], gone := false }, events := j.events ++ [s.sclk] })).beginApply jn := by
  simp only [State.pairTimesOut, job, Option.bind_some, pair, paired, ne_eq, not_true_eq_false, if_false, State.modJob_of_job job]

theorem State.heartbeat_greeted {q : Pairing} (pair : j.pair = some q) (greeted : q.state ≠ 0) :
    s.heartbeat jn = s.sendPacket (pairPacket s j q.partner pkJOIN cidBeat 0 []) := by
  simp only [State.heartbeat, job, pair, greeted, if_false]

theorem State.pairLate_waiting {q : Pairing} (pair : j.pair = some q) (waits : q.state = 0) : s.pairLate jn =
    (s.setJob jn (some { j with pair := none })).finish q.pairSeq St.intPeerLate (pairReply 0 0 0) := by
  simp only [State.pairLate, job, Option.bind_some, pair, waits, if_true, State.modJob_of_job job]

theorem State.imageReceived_whole {q : Pairing} {t : StateSet} {i n : Nat} (pair : j.pair = some q) (set : j.stateSet = some t)
    (image : q.receiving = some (i, n)) (whole : gotAll t q.got = true) : s.imageReceived jn = s.keepImage jn j q t i n := by
  simp only [State.imageReceived, job, pair, set, image, whole, if_true]

theorem State.restoreEnds_whole {c : Copy} {t : StateSet} (restore : j.restore = some c) (set : j.stateSet = some t)
    (whole : restoreWhole j c t = true) : s.restoreEnds jn = s.endRestore jn c t := by
  simp only [State.restoreEnds, job, restore, set, whole, if_true]

theorem State.imageApplied_newest {q : Pairing} {t : StateSet} {i n : Nat} (pair : j.pair = some q) (set : j.stateSet = some t)
    (applying : q.applying = true) (newest : q.newestImage = some (i, n)) : s.imageApplied jn = s.useImage jn q t i := by
  simp only [State.imageApplied, job, pair, set, applying, if_true, newest]

end

theorem State.ckptComplete_running {s u : State} {jn : Nat} {i : Job} {c : Copy} {t : StateSet}
    (read : u = s.ckptReads jn fun _ => true) (job : u.job jn = some i) (running : i.checkpoint = some c) (set : i.stateSet = some t) :
    s.ckptComplete jn = u.endCkpt jn i c t := by
  unfold State.ckptComplete
  simp only [← read, job, running, set]

/-- Settles O24: each event under the condition of its clause. -/
theorem pairEventsComplete : Obligations.PairEventsComplete := by
  intro s jn j hjn job
  exact ⟨fun q pair paired => onUnit_eq hjn (State.pairTimesOut_paired job pair paired),
    fun q pair greeted => onUnit_eq hjn (State.heartbeat_greeted job pair greeted),
    fun q pair waits => onUnit_eq hjn (State.pairLate_waiting job pair waits),
    fun q t i n pair set image whole => onUnit_eq hjn (State.imageReceived_whole job pair set image whole),
    fun u i c t read job' running set => onUnit_eq hjn (State.ckptComplete_running read job' running set),
    fun c t restore set whole => onUnit_eq hjn (State.restoreEnds_whole job restore set whole),
    fun q t i n pair set applying newest => onUnit_eq hjn (State.imageApplied_newest job pair set applying newest),
    fun active => next_eq (if_neg (not_not.2 active))⟩

end Sys2Proof.Machine
end

section
/-! SUPPORT and CLAIM. Markers at the head of their queue (R265, R272, R287, R299, R317, R439). -/

namespace Sys2Proof.Machine

section
variable {s : State} {q : Nat} {w : Work} {j : Job} (work : s.work q = some w)
include work

/-- `BARRIER` whose turn has come, behind entries that all ended well and with its host wait not failed. -/
theorem State.barrierEnd_good (op : w.opcode = opcBARRIER) (host : w.host = none)
    (turn : (if (BarrierHdr.parse w.params).job then s.jobClear q && s.atHead q else s.ctxClear q) = true)
    (good : s.badBefore (s.barrierCtxs w (BarrierHdr.parse w.params).job) q = false)
    (noHost : (BarrierHdr.parse w.params).waitHost = false) : s.barrierEnd q =
      if (BarrierHdr.parse w.params).waitFlag ∧ s.rdNat (BarrierHdr.parse w.params).waitDa 8 < (BarrierHdr.parse w.params).waitVal then s
      else
        let t := ((s.finish q St.done []).judged w (BarrierHdr.parse w.params).job []).signal w.job
        if (BarrierHdr.parse w.params).setFlag then t.flagPut w.job (BarrierHdr.parse w.params).setDa (BarrierHdr.parse w.params).setVal
        else t := by
  unfold State.barrierEnd
  simp only [work, op, turn, good, host, noHost, ite_self, ne_eq, not_true_eq_false, Bool.not_true, Bool.false_eq_true, or_self, if_false,
    false_and, false_or]

/-- `PHASE_MARK` at the head of its queue. -/
theorem State.phaseMarks_head {c : Nat} (op : w.opcode = 0x0315) (ctx : w.ctx = some c) (head : s.atHead q = true) : s.phaseMarks q =
    ((s.endSpan c (le w.params 0 1) false).modCtx c fun k =>
      { k with markPhase := some (le w.params 0 1), stage := le w.params 1 1, microBatch := le w.params 4 4 }).finish q St.done [] := by
  simp [State.phaseMarks, work, op, ctx, head]

variable (job : s.job w.job = some j)
include job

/-- `STEP_BEGIN` whose turn has come. -/
theorem State.stepTake_turn (op : w.opcode = opcSTEP_BEGIN) (clear : s.jobClear q = true) (head : s.atHead q = true) :
    s.stepTake q = s.beginAttempt w j q := by
  simp [State.stepTake, work, job, op, clear, head]

/-- What `MAP_SET` decides when its turn has come (R317). -/
theorem State.mapTake_turn (op : w.opcode = opcMAP_SET) (clear : s.jobClear q = true) (head : s.atHead q = true) : s.mapTake q =
    if (parseMapping w.params).epoch ≠ (j.mapping.epoch + 1) % 2 ^ 32 ∨ (parseMapping w.params).width ≠ j.mapping.width ∨
        (parseMapping w.params).replicas ≠ j.mapping.replicas ∨ (parseMapping w.params).tag ≠ j.mapping.tag then
      s.finish q St.stateMapEpoch []
    else (s.setJob w.job (some { j with
      mapping := parseMapping w.params, prior := some j.mapping, peerState := 0, lost := [], late := [] })).finish q St.done [] := by
  have turn : ¬(w.opcode ≠ opcMAP_SET ∨ (!s.jobClear q) = true ∨ (!s.atHead q) = true) := by simp [op, clear, head]
  unfold State.mapTake
  simp only [work, job]
  rw [if_neg turn, State.modJob_of_job job]

/-- What `STEP_COMMIT` decides when its turn has come and no copy is under way (R439). -/
theorem State.commitTake_turn (op : w.opcode = opcSTEP_COMMIT) (clear : s.jobClear q = true) (head : s.atHead q = true)
    (idle : j.copying = false) : s.commitTake q =
      if s.fenced w.job then s.finish q St.stateFenced []
      else if le w.params 0 4 ≠ j.step then s.finish q St.paramRange []
      else if !j.bad.isEmpty then s.finish q St.statePredFailed []
      else s.commitStep w j := by
  have turn : ¬(w.opcode ≠ opcSTEP_COMMIT ∨ (!s.jobClear q) = true ∨ (!s.atHead q) = true ∨ j.copying = true) := by
    simp [op, clear, head, idle]
  unfold State.commitTake
  simp only [work, job]
  rw [if_neg turn]

theorem State.commitTake_waits (copying : j.copying = true) : s.commitTake q = s := by
  simp [State.commitTake, work, job, copying]

/-- `GRAD_OPEN` at the head of its queue, with a place for its set and frames to pin (R287). -/
theorem State.gradOpens_room {pins : List (Nat × List Nat)} (op : w.opcode = 0x0314) (head : s.atHead q = true)
    (new : (j.sets.any fun g => g.tensorId == le w.params 0 4) = false) (room : j.sets.length < 8)
    (frames : pinBlocks j.sets (le w.params 20 1 * le w.params 21 1) (s.pinTiles j)
      (ceilDiv (le w.params 12 4) (48 * le w.params 20 1) * ceilDiv (le w.params 16 4) (48 * le w.params 21 1)) [] = some pins) :
    s.gradOpens q = (s.setJob w.job (some { j with sets := j.sets ++
      [{ tensorId := le w.params 0 4, mbFirst := le w.params 4 4, mbCount := le w.params 8 4, rows := le w.params 12 4,
         cols := le w.params 16 4, a := le w.params 20 1, b := le w.params 21 1, pins := pins,
         accepted := [], settings := [], taken := [], lost := false }] })).finish q St.done [] := by
  have turn : ¬(w.opcode ≠ 0x0314 ∨ (!s.atHead q) = true) := by simp [op, head]
  unfold State.gradOpens
  simp only [work, job]
  rw [if_neg turn, if_neg (by rw [new]; decide), if_neg (Nat.not_le.2 room)]
  simp only [frames]
  rw [State.modJob_of_job job]

end

/-- Settles O25: each marker under the condition of its turn. -/
theorem markersTakeEffect : Obligations.MarkersTakeEffect := by
  intro s q w j work job
  refine ⟨fun op clear head => next_eq (State.stepTake_turn work job op clear head),
    fun op ofJob clear head good noHost noFlag noSet host => next_eq ?_,
    fun op ofCtx clear good noHost flag reached set host => next_eq ?_,
    fun c op ctx head => next_eq (State.phaseMarks_head work op ctx head),
    fun pins op head new room frames => next_eq (State.gradOpens_room work job op head new room frames),
    fun m op clear head hm epoch width replicas tag => next_eq ?_,
    fun op clear head unfenced step good idle => next_eq ?_, fun op copying => next_eq (State.commitTake_waits work job copying)⟩
  · have turn : (if (BarrierHdr.parse w.params).job then s.jobClear q && s.atHead q else s.ctxClear q) = true := by
      rw [if_pos ofJob, clear, head]
      rfl
    rw [State.barrierEnd_good work op host turn (by rw [ofJob]; exact good) noHost, noFlag, noSet, ofJob]
    rfl
  · have turn : (if (BarrierHdr.parse w.params).job then s.jobClear q && s.atHead q else s.ctxClear q) = true := by
      rw [if_neg (by rw [ofCtx]; decide), clear]
    rw [State.barrierEnd_good work op host turn (by rw [ofCtx]; exact good) noHost, if_neg (fun h => absurd h.2 (Nat.not_lt.2 reached)),
      set, ofCtx]
    rfl
  · subst hm
    have next : ¬((parseMapping w.params).epoch ≠ (j.mapping.epoch + 1) % 2 ^ 32 ∨ (parseMapping w.params).width ≠ j.mapping.width ∨
        (parseMapping w.params).replicas ≠ j.mapping.replicas ∨ (parseMapping w.params).tag ≠ j.mapping.tag) := by tauto
    rw [State.mapTake_turn work job op clear head, if_neg next]
  · rw [State.commitTake_turn work job op clear head idle, if_neg (by rw [unfenced]; decide), if_neg (not_not.2 step),
      if_neg (by rw [good]; decide)]

/-- Settles O26: the failing branches of `State.mapTake_turn` and `State.commitTake_turn`. -/
theorem markersThatFail : Obligations.MarkersThatFail := by
  intro s q w j work job clear head
  refine ⟨fun op bad => next_eq ?_, fun op idle fenced => next_eq ?_, fun op idle unfenced step => next_eq ?_,
    fun op idle unfenced step bad => next_eq ?_⟩
  · rw [State.mapTake_turn work job op clear head, if_pos bad]
  all_goals rw [State.commitTake_turn work job op clear head idle]
  · rw [if_pos fenced]
  · rw [if_neg (by rw [unfenced]; decide), if_pos step]
  · rw [if_neg (by rw [unfenced]; decide), if_neg (not_not.2 step), if_pos (by simpa using bad)]

end Sys2Proof.Machine
end

section
/-! CLAIM. The hayloft, operations and collectives at the head of their queue (R196-R205, R257, R280-R285, R297, R323-R341). -/

namespace Sys2Proof.Machine

/-! ### The hayloft -/

theorem State.modCtx_of_ctx {s : State} {c : Nat} {k : Ctx} (h : s.ctx c = some k) (f : Ctx → Ctx) :
    s.modCtx c f = s.setCtx c (some (f k)) := by
  rw [State.modCtx_eq, h]
  rfl

section
variable {s : State} {c q : Nat} {k : Ctx} {w : Work} {e : HayEntry} (ctx : s.ctx c = some k)
include ctx

/-- A pop binds the newest entry that is not bound, when it is in HBM and holds what is asked for. -/
theorem State.popTake_binds (work : s.work q = some w) (ofCtx : w.ctx = some c) (op : w.opcode = 0x0312) (head : s.atHead q = true)
    (newest : (k.hay.reverse.find? fun e => e.state != 2) = some e) (final : e.pushFinal = true)
    (tag : ¬(e.tensorId ≠ le w.params 0 4 ∨ (!bit (le w.params 8 1) 0) = true ∧ e.microBatch ≠ le w.params 4 4 ∨
      (k.hay.any fun x => x.state == 2 && x.tensorId == le w.params 0 4) = true))
    (room : (k.hay.filter fun x => x.state == 2).length < 16) (ok : e.pushOk = true) (here : (!e.placed || e.spilled || e.moving.isSome) = false) :
    s.popTake q = (((s.setCtx c (some { k.modHay e.seq (fun _ => { e with state := 2, boundBy := q }) with
      popWait := k.popWaited s.sclk, popSince := none })).hayState { e with state := 2, boundBy := q }).finish q St.done []).roomLeft c := by
  have turn : ¬(w.opcode ≠ 0x0312 ∨ (!s.atHead q) = true) := by simp [op, head]
  unfold State.popTake
  simp only [work, ofCtx, ctx]
  rw [if_neg turn]
  simp only [newest]
  rw [if_neg (by rw [final]; decide), if_neg tag, if_neg (Nat.not_le.2 room), if_neg (by rw [ok]; decide), if_neg (by rw [here]; decide),
    State.modCtx_of_ctx ctx]

/-- A free ends a bound entry that nothing reads any more. -/
theorem State.freeTake_unread (work : s.work q = some w) (ofCtx : w.ctx = some c) (op : w.opcode = 0x0313) (head : s.atHead q = true)
    (bound : (k.hay.find? fun e => e.state == 2 && e.tensorId == le w.params 0 4) = some e)
    (unread : ((s.before q).any fun v => v.ctx == some c && seqBefore e.boundBy v.seq &&
      v.readTensors.any fun t => t.id == le w.params 0 4) = false) :
    s.freeTake q = (s.freeEntry c e.seq).finish q St.done [] := by
  have turn : ¬(w.opcode ≠ 0x0313 ∨ (!s.atHead q) = true) := by simp [op, head]
  unfold State.freeTake
  simp only [work, ofCtx, ctx]
  rw [if_neg turn]
  simp only [bound]
  rw [if_neg (by rw [unread]; decide)]

theorem State.spillDone_idle (oldest : (k.hay.find? fun e => e.moving == some true) = some e) (idle : s.entryBusy e = false) :
    s.spillDone c = ((s.copyRange e.da e.moveTo e.bytes).modCtx c fun k =>
      { k.modHay e.seq fun x => { x with da := x.moveTo, spilled := true, moving := none } with spillOut := k.spillOut + e.bytes }).spillLeft
        c := by
  simp only [State.spillDone, ctx, oldest, Option.filter, idle, Bool.not_false, if_true]

theorem State.refillDone_idle (youngest : (k.hay.reverse.find? fun e => e.moving == some false) = some e) (idle : s.entryBusy e = false) :
    s.refillDone c = ((s.copyRange e.da e.moveTo e.bytes).modCtx c fun k =>
      { k.modHay e.seq fun x => { x with da := x.moveTo, spilled := false, moving := none } with refill := k.refill + e.bytes }).room c := by
  simp only [State.refillDone, ctx, youngest, Option.filter, idle, Bool.not_false, if_true]

end

/-- Settles O27: pops and frees at the head of their queue, and the copies of entries that nothing uses. -/
theorem hayloftEventsComplete : Obligations.HayloftEventsComplete := by
  intro s c k ctx
  refine ⟨fun q w e work ofCtx op head newest final tensor mb unbound room ok placed hbm still =>
      next_eq (State.popTake_binds ctx work ofCtx op head newest final ?_ room ok ?_),
    fun q w e work ofCtx op head bound unread => next_eq (State.freeTake_unread ctx work ofCtx op head bound unread),
    fun e hc oldest idle => onUnit_eq hc (State.spillDone_idle ctx oldest idle),
    fun e hc youngest idle => onUnit_eq hc (State.refillDone_idle ctx youngest idle)⟩
  · rw [unbound]
    rcases mb with any | same
    · simp [tensor, any]
    · simp [tensor, same]
  · rw [placed, hbm, still]
    rfl

/-! ### Operations -/

section
variable {s : State} {q c : Nat} {w : Work} {o : OpRun} {j : Job} {k : Ctx}

section
variable (work : s.work q = some w) (run : w.op = some o) (job : s.job w.job = some j) (ofCtx : w.ctx = some c) (ctx : s.ctx c = some k)
  (isOp : w.isOp = true) (new : o.started = false) (head : s.atHead q = true)
  (noWait : (s.pushWaits w && (OpDesc.parse w.params).skipUnselected) = false)
include work run job ofCtx ctx isOp new head noWait

/-- A `ROW` operation starts. -/
theorem State.startOp_row {v : RowView} {da need : Nat} (op : w.opcode = opcROW)
    (view : mkRowView j.mapping (RowDesc.parse w.params) = some v) (bound : v.boundOk k = true)
    (size : need = if v.empty then 0 else v.scratchSpan o.tiling.mt) (place : s.scratchPlace w.job j need = some da) : s.startOp q =
      (((s.startEntry q).modWork q fun x =>
        { x with params := patchParams k w.params 32 v.ops v.d.destinations,
                 op := some { o with started := true, scratchDa := da, scratchLen := need } }).signal w.job).afterItems q := by
  subst size
  have turn : ¬(!w.isOp || o.started || !s.atHead q || s.pushWaits w && (OpDesc.parse w.params).skipUnselected) = true := by
    rw [isOp, new, head, noWait]
    decide
  unfold State.startOp
  simp only [work, run, job, ofCtx, Option.bind_some, ctx]
  rw [if_neg turn, if_pos op]
  simp only [view]
  rw [if_neg (by rw [bound]; decide)]
  simp only [place]

/-- A compatibility launch starts. -/
theorem State.startOp_compat (op : w.opcode ≠ opcROW) (kind : (OpDesc.parse w.params).kind = 6) :
    s.startOp q = (s.startEntry q).modOp q fun o => { o with started := true } := by
  have turn : ¬(!w.isOp || o.started || !s.atHead q || s.pushWaits w && (OpDesc.parse w.params).skipUnselected) = true := by
    rw [isOp, new, head, noWait]
    decide
  unfold State.startOp
  simp only [work, run, job, ofCtx, Option.bind_some, ctx]
  rw [if_neg turn, if_neg op, if_pos kind]

/-- Any other operation starts with its operands as bound. -/
theorem State.startOp_body {u v : View} {p : List Byte} (op : w.opcode ≠ opcROW) (kind : (OpDesc.parse w.params).kind ≠ 6)
    (view : mkView j.mapping (OpDesc.parse w.params) = some u) (bound : u.boundStatus k = 0)
    (hp : p = patchParams k w.params 208 u.ops u.d.destinations) (view' : mkView j.mapping (OpDesc.parse p) = some v) :
    s.startOp q = s.startBody w o j v p := by
  subst hp
  have turn : ¬(!w.isOp || o.started || !s.atHead q || s.pushWaits w && (OpDesc.parse w.params).skipUnselected) = true := by
    rw [isOp, new, head, noWait]
    decide
  unfold State.startOp
  simp only [work, run, job, ofCtx, Option.bind_some, ctx]
  rw [if_neg turn, if_neg op, if_neg kind]
  simp only [view]
  rw [if_neg (not_not.2 bound)]
  simp only [view']

end

/-- The items of an operation whose sparse headers pass, with room for its bitmap. -/
theorem State.startBody_sparse {v : View} {p : List Byte} {hs : List (Nat × List Byte)} {t : Tiling} {da : Nat}
    (sparse : (!v.sparseInputs.isEmpty && !v.empty) = true) (pass : v.headerPass s.byte s.poisonedAt = (none, hs))
    (tiling : tilingOf j v o.capRows (v.leadKinds hs) = .ok t) (pool : s.poolUsed + bitmapBytes t.items ≤ poolBytes)
    (place : s.scratchPlace w.job j (if v.empty then 0 else v.scratchSpan t (v.capturedRows o.capRows).length) = some da) :
    s.startBody w o j v p = (s.carryHeaders hs).startItems w o j v p t hs (!v.sparseInputs.isEmpty && !v.empty) da := by
  have room : ¬(true && decide (poolBytes < s.poolUsed + bitmapBytes t.items)) = true := by simpa using pool
  unfold State.startBody
  simp only [sparse, if_true, pass, tiling]
  rw [if_neg room]
  simp only [place]

/-- The items of an operation without sparse operands: its tiling was known at issue. -/
theorem State.startBody_dense {v : View} {p : List Byte} {da : Nat} (dense : (!v.sparseInputs.isEmpty && !v.empty) = false)
    (place : s.scratchPlace w.job j (if v.empty then 0 else v.scratchSpan o.tiling (v.capturedRows o.capRows).length) = some da) :
    s.startBody w o j v p = (s.carryHeaders []).startItems w o j v p o.tiling [] (!v.sparseInputs.isEmpty && !v.empty) da := by
  unfold State.startBody
  simp only [dense, Bool.false_eq_true, if_false, Bool.false_and, place]

/-- An operation at the head of its queue starts, unless its push waits for a place. -/
theorem State.opStart_starts (work : s.work q = some w) (ofCtx : w.ctx = some c)
    (noWait : (s.pushWaits w && (OpDesc.parse w.params).skipUnselected) = false) : s.opStart q = (s.startOp q).pumpAll := by
  simp only [State.opStart, work, ofCtx, noWait, Bool.false_eq_true, if_false]

theorem State.opStart_waits (work : s.work q = some w) (ofCtx : w.ctx = some c)
    (waits : (s.pushWaits w && (OpDesc.parse w.params).skipUnselected) = true) : s.opStart q = s.pushMustWait c := by
  simp only [State.opStart, work, ofCtx, waits, if_true]

/-- The end of an apply pass. -/
theorem State.applyEnd_applying {x : State} {w' : Work} {o' : OpRun} (work : s.work q = some w) (run : w.op = some o)
    (applying : o.applying = true) (stands : w.cancelling = false)
    (hx : x = (s.applyFirst q (s.applyCount q)).modOp q fun o => { o with applying := false })
    (work' : x.work q = some w') (run' : x.opRun q = some o') : s.applyEnd q = x.completeOp w' o' := by
  have goes : ¬(!(w.op.map OpRun.applying).getD false || w.cancelling) = true := by simp [run, applying, stands]
  unfold State.applyEnd
  simp only [work]
  rw [if_neg goes]
  simp only [← hx, work', run']

end

/-- Settles O28: the start of each kind of operation, and the end of an apply pass. -/
theorem operationsStart : Obligations.OperationsStart := by
  intro s q c w o j k work run job ofCtx ctx
  refine ⟨fun isOp new head noWait => ⟨fun v da need op view bound size place => next_eq ?_, fun op kind => next_eq ?_,
    fun u p v hs t da op kind view bound hp view' sparse dense place => next_eq ?_⟩,
    fun waits => next_eq (State.opStart_waits work ofCtx waits),
    fun x w' o' applying stands hx work' run' => next_eq (State.applyEnd_applying work run applying stands hx work' run')⟩
  all_goals rw [State.opStart_starts work ofCtx noWait]
  · rw [State.startOp_row work run job ofCtx ctx isOp new head noWait op view bound size place]
  · rw [State.startOp_compat work run job ofCtx ctx isOp new head noWait op kind]
  · rw [State.startOp_body work run job ofCtx ctx isOp new head noWait op kind view bound hp view']
    by_cases h : (!v.sparseInputs.isEmpty && !v.empty) = true
    · obtain ⟨pass, tiling, pool⟩ := sparse h
      rw [State.startBody_sparse h pass tiling pool place]
    · obtain ⟨rfl, rfl⟩ := dense (Bool.eq_false_iff.2 h)
      rw [State.startBody_dense (Bool.eq_false_iff.2 h) place]

/-! ### Collectives -/

section
variable {s : State} {q : Nat} {w : Work} {j : Job} (work : s.work q = some w) (job : s.job w.job = some j)
include work job

/-- What a collective at the head of its queue decides. -/
theorem State.startColl_head (isColl : w.isColl = true) (new : w.running = false) (stands : w.cancelling = false) (head : s.atHead q = true) :
    s.startColl q =
      if j.aborted then s.failColl w St.intStepAbort
      else if j.collIds.contains (collIdOf j w) then s.failColl w St.stateCollMismatch
      else if !s.collBoundOk w j then s.failColl w St.stateHayloftTag
      else match collViewOf s j (s.patchColl w j) with
        | none => s.failColl (s.patchColl w j) St.paramShard
        | some v => s.launchColl (s.patchColl w j) j v (collIdOf j w) := by
  have turn : ¬((!w.isColl) = true ∨ w.running = true ∨ w.cancelling = true ∨ (!s.atHead q) = true) := by
    simp [isColl, new, stands, head]
  unfold State.startColl
  simp only [work, job]
  exact if_neg turn

theorem State.collTake_complete {c : CollRun} {v : CView} (coll : w.coll = some c) (view : collViewOf s j w = some v)
    (complete : c.complete w j v = true) :
    s.collTake q = (s.resultColl w j c v).clearLoss w.job ((participants j w).filterMap j.mapping.indexOf) := by
  simp only [State.collTake, work, job, coll, view, complete, if_true]

end

/-- Settles O29: the branches of `State.startColl_head`, and the completion. -/
theorem collectivesRun : Obligations.CollectivesRun := by
  intro s q w j work job
  refine ⟨fun v isColl new stands head attempt id bound view => ?_,
    fun c v coll view complete => next_eq (State.collTake_complete work job coll view complete),
    fun isColl new stands head aborted => next_eq ?_⟩
  · have starts : s.startColl q = s.launchColl (s.patchColl w j) j v (collIdOf j w) := by
      rw [State.startColl_head work job isColl new stands head, if_neg (by rw [attempt]; decide), if_neg (by rw [id]; decide),
        if_neg (by rw [bound]; decide), view]
    exact ⟨next_eq starts, next_eq starts⟩
  · rw [State.startColl_head work job isColl new stands head, if_pos aborted]

end Sys2Proof.Machine
end

section
/-! CLAIM. Stream transfers, cancellations, releases and modifications (R217, R250-R256, R382, R383). -/

namespace Sys2Proof.Machine

variable {s : State}

theorem State.transferStart_triggered {jn d : Nat} {b : StreamBody} (body : (s.stream jn d).body = some b)
    (armed : (s.stream jn d).state = .waiting ∨ (s.stream jn d).state = .running) (still : (s.stream jn d).moving = false)
    (trigger : s.triggerMet (s.stream jn d) b (StreamHdr.parse b.params) = true) (es : List Ecc) :
    s.transferStart jn d es = s.startXfer jn d (s.stream jn d) b (StreamHdr.parse b.params) es := by
  have starts : ¬(((s.stream jn d).state ≠ .waiting ∧ (s.stream jn d).state ≠ .running) ∨ (s.stream jn d).moving = true ∨
      (!s.triggerMet (s.stream jn d) b (StreamHdr.parse b.params)) = true) := by
    rw [still, trigger]
    tauto
  unfold State.transferStart
  simp only [body]
  exact if_neg starts

section
variable {q : Nat} {w : Work} (work : s.work q = some w) (cancelling : w.cancelling = true) (reads : s.readsOut q = false)
  (writes : s.issuedOut q = false)
include work cancelling reads writes

/-- A cancelled arm of a descriptor that stands in no context queue. -/
theorem State.cancelled_stream (op : w.opcode = opcSTREAM_ARM) (ctx : w.ctx = none) : s.cancelled q =
    let x := s.stream w.job w.sd
    let gen := (x.gen + 1) % 2 ^ 32
    (((s.finishAt q St.partEnd x.watermark (armReply x.watermark x.doneXfers)).modStream w.job w.sd fun x =>
      { x with state := .free, gen := gen, body := none, moving := false, segLeft := [], segs := [], badElems := [], ordered := false
               doneXfers := 0 }).endCancellers w.cancelBy x.doneXfers gen x.watermark).shadowEffect w.job w.sd := by
  unfold State.cancelled
  simp only [work, cancelling, reads, writes, Bool.not_true, Bool.or_self, Bool.false_eq_true, if_false, ctx, Option.bind_none, op, if_true]

/-- A cancelled operation. -/
theorem State.cancelled_op {o : OpRun} {c : Nat} {k : Ctx} (op : w.opcode ≠ opcSTREAM_ARM) (run : w.op = some o) (ofCtx : w.ctx = some c)
    (ctx : s.ctx c = some k) :
    s.cancelled q = ((s.endSpan c k.phase true).endPlain w o St.partEnd).endCancellers w.cancelBy o.finalCount 0 o.finalCount := by
  unfold State.cancelled
  simp only [work, cancelling, reads, writes, Bool.not_true, Bool.or_self, Bool.false_eq_true, if_false, ofCtx, Option.bind_some, ctx, op, run]

end

theorem State.zeroingEnds_release {jn q : Nat} {j : Job} (job : s.job jn = some j) (releasing : j.releasing = some q)
    (idle : (s.works.any fun w => w.job == jn && w.cancelling) = false) : s.zeroingEnds jn =
      (((((tilesOf j.paddocks).foldl State.zeroTile (j.regions.foldl (fun s r => s.zero r.base r.len) s)).unask
        (tilesOf j.paddocks)).retireJob jn).resetQps fun x => x.state != 0 && x.job == jn).finish q St.done [] := by
  unfold State.zeroingEnds
  simp only [job, releasing]
  exact if_neg (by rw [idle]; decide)

theorem State.zeroingEnds_modify {jn : Nat} {j : Job} (job : s.job jn = some j) (stays : j.releasing = none) (modifying : j.modifying ≠ [])
    (idle : ((tilesOf j.leaving).any fun n => (s.tile n).item.isSome) = false) : s.zeroingEnds jn =
      j.modifying.foldl (fun s q => s.finish q St.done [])
        ((((tilesOf j.leaving).foldl State.zeroTile s).unask (tilesOf j.leaving)).modJob jn fun j =>
          { j with paddocks := j.paddocks &&& ~~~j.leaving, leaving := 0#20, modifying := [] }) := by
  have ends : ¬(j.modifying.isEmpty = true ∨ ((tilesOf j.leaving).any fun n => (s.tile n).item.isSome) = true) := by
    rw [idle]
    simpa using modifying
  unfold State.zeroingEnds
  simp only [job, stays]
  exact if_neg ends

/-- Settles O30: each event under the condition of its clause. -/
theorem streamAndReleaseEventsComplete : Obligations.StreamAndReleaseEventsComplete := by
  intro s
  refine ⟨fun jn d b hjn hd body armed still trigger es => onUnits_eq hjn hd (State.transferStart_triggered body armed still trigger es),
    fun q w x gen work cancelling reads writes op ctx hx hgen => next_eq ?_,
    fun q w o c k work cancelling reads writes op run ofCtx ctx => next_eq ?_,
    fun jn j q hjn job releasing idle => onUnit_eq hjn ?_, fun jn j hjn job stays modifying idle => onUnit_eq hjn ?_⟩
  · rw [State.cancelDone, State.cancelled_stream work cancelling reads writes op ctx, hgen, hx]
  · rw [State.cancelDone, State.cancelled_op work cancelling reads writes op run ofCtx ctx]
  · rw [State.zeroingEnds_release job releasing idle]
  · rw [State.zeroingEnds_modify job stays modifying idle]

end Sys2Proof.Machine
end

section
/-! CLAIM. A tile takes an item and loads it (R36, R109, R201, R202, R236-R238). -/

namespace Sys2Proof.Machine

variable {s : State}

/-! ### TAKE -/

theorem State.asksEarly_noItem {n : Nat} (h : (s.tile n).item = none) : s.asksEarly n = false := by
  simp only [State.asksEarly, h]

theorem State.asksEarly_lastRound {n : Nat} {i : ItemRef} (phase : (s.tile n).phase = .compute) (item : (s.tile n).item = some i)
    (free : (s.tile n).next = none) (last : (s.tile n).round = s.tileLast i) : s.asksEarly n = true := by
  simp [State.asksEarly, phase, item, free, last]

section
variable {n : Nat} (sound : (s.tile n).quarantined = false) (signalled : s.waitsForSignal n = false)
  (asks : ((s.tile n).phase == .idle || s.asksEarly n) = true)
include sound signalled asks

theorem State.takeItem_offered {r : ItemRef} (offer : (s.sendTake n).offer n = some r) :
    s.takeItem n = (s.sendTake n).answerItem n r (s.asksEarly n) := by
  unfold State.takeItem
  simp only [sound, signalled, asks, Bool.not_true, Bool.or_self, Bool.false_eq_true, if_false, offer]

theorem State.takeItem_none (offer : (s.sendTake n).offer n = none) : s.takeItem n = (s.sendTake n).answerNone n := by
  unfold State.takeItem
  simp only [sound, signalled, asks, Bool.not_true, Bool.or_self, Bool.false_eq_true, if_false, offer]

end

theorem State.takeItem_stays {n : Nat} (h : (s.tile n).quarantined = true ∨ s.waitsForSignal n = true) : s.takeItem n = s := by
  unfold State.takeItem
  exact if_pos (by simp only [Bool.or_eq_true]; tauto)

/-! ### Pulls and reads that return -/

/-- What a tile with a round to load does about its pulls. -/
theorem State.issuePull_target {n round : Nat} {r : ItemRef} {q : ItemWork} (target : s.pullTarget n = some (r, round))
    (work : s.workOf r = some q) : s.issuePull n =
      if ((q.reads round).any fun a => !s.mayAccess q.w q.o a.2.1 a.2.2) = true then s.refuseAccess q.w ((q.reads round).map Prod.snd)
      else s.sendPulls n r round q := by
  unfold State.issuePull
  simp only [target, work]

theorem State.pullAt_load {k n : Nat} {r : ItemRef} (phase : (s.tile n).phase = .load) (item : (s.tile n).item = some r)
    (sent : ((s.tile n).pulls.any fun p => p.1 == k) = true) : s.pullAt k n = (s.queuePulls k n r (s.tile n).round).pump k := by
  unfold State.pullAt
  simp only [phase, item, sent, if_true]

section
variable {k : Nat} {es : List Ecc} {r : ReadReq} {rest : List ReadReq} {x : State} (reads : (s.skip k).reads = r :: rest)
  (answers : s.tierWaits r.granule r.size = false)
  (hx : x = (s.applyEccs r.granule (es.take (r.size / 32))).countMoved r.handle r.granule r.size)
  (whole : x.firstPoison r.granule r.size = none)
include reads answers hx whole

theorem State.skipReturn_staged (wanted : r.marked = false) : s.skipReturn k es =
    let y := x.modSkip k fun v => { v with reads := rest }
    ((y.modSkip k fun v => { v with staged := v.staged ++ [{
      handle := r.handle, gen := r.gen, granule := r.granule, size := r.size, copy := r.copy, users := r.users
      bytes := y.bytes r.granule r.size, poison := y.granulePoison r.granule r.size }] }).pump k).streamData k (es.drop (r.size / 32)) := by
  unfold State.skipReturn State.readReturn
  simp only [reads, answers, Bool.false_eq_true, if_false, ← hx, whole, wanted, List.head?_cons, Option.map_some, Option.getD_some]

theorem State.skipReturn_marked (marked : r.marked = true) : s.skipReturn k es =
    ((x.modSkip k fun v => { v with reads := rest }).pump k).streamData k (es.drop (r.size / 32)) := by
  unfold State.skipReturn State.readReturn
  simp only [reads, answers, Bool.false_eq_true, if_false, ← hx, whole, marked, if_true, List.head?_cons, Option.map_some, Option.getD_some]

end

/-- Settles O31: each message and read under the condition of its clause. -/
theorem itemsAreTakenAndLoaded : Obligations.ItemsAreTakenAndLoaded := by
  intro s
  have idle {n : Nat} (phase : (s.tile n).phase = .idle) : ((s.tile n).phase == .idle || s.asksEarly n) = true := by rw [phase]; rfl
  refine ⟨fun n r hn sound signalled phase item offer => onUnit_eq hn ?_,
    fun n i r hn sound signalled phase item free last offer => onUnit_eq hn ?_,
    fun n hn sound signalled phase item offer => onUnit_eq hn (State.takeItem_none sound signalled (idle phase) offer),
    fun n hn stays => onUnit_eq hn (State.takeItem_stays stays),
    fun n r round q hn target work allowed => onUnit_eq hn ?_, fun n r round q hn target work refused => onUnit_eq hn ?_,
    fun k n r hk hn phase item sent => onUnits_eq hk hn (State.pullAt_load phase item sent),
    fun k es r rest x y hk reads answers wanted hx whole hy => onUnit_eq hk ?_,
    fun k es r rest x hk reads answers marked hx whole => onUnit_eq hk (State.skipReturn_marked reads answers hx whole marked)⟩
  · rw [State.takeItem_offered sound signalled (idle phase) offer, State.asksEarly_noItem item]
  · have early := State.asksEarly_lastRound phase item free last
    rw [State.takeItem_offered sound signalled (by rw [early, Bool.or_true]) offer, early]
  · rw [State.issuePull_target target work, if_neg (by rw [allowed]; decide)]
  · rw [State.issuePull_target target work, if_pos refused]
  · rw [State.skipReturn_staged reads answers hx whole wanted, hy]

end Sys2Proof.Machine
end

section
/-! CLAIM. A tile computes its item, stores it and is done (R36, R70-R85, R105, R106, R201, R218, R239, R240). -/

namespace Sys2Proof.Machine

variable {s : State} {n : Nat} {q : ItemWork}

/-! ### COMPUTE -/

section
variable (work : s.tileWork n = some q)
include work

theorem State.beginCompute_loaded (phase : (s.tile n).phase = .load) (sent : (s.tile n).pullSent = true) (here : (s.tile n).waitFor = [])
    (done : (s.tile n).pulls = []) : s.beginCompute n =
      (s.countActivity n q.w.ctx evPort (((s.tile n).places.map fun p => pieceCount 512 (p.off.getD 0) p.len).foldl (· + ·) 0)).computes
        n q (s.tile n) := by
  have starts : ¬((s.tile n).phase ≠ .load ∨ (!(s.tile n).pullSent) = true ∨ (!(s.tile n).waitFor.isEmpty) = true ∨
      (!(s.tile n).pulls.isEmpty) = true) := by simp [phase, sent, here, done]
  unfold State.beginCompute
  simp only [work]
  exact if_neg starts

section
variable {v : View} {p : Nat × Nat} {slot k0 len : Nat} {f : TileFaults} {x : Feed} (body : q.b = .op v)
  (run : s.curRun n q = some (p, slot)) (phase : (s.tile n).phase = .compute) (runsK : q.runsK = true) (ready : (s.tile n).waiting = none)
  (round : q.rounds[(s.tile n).round]? = some (k0, len)) (hx : x = s.feed n q v)
  (partials : q.scatter = false ∨ (x.partials q.it.batch p k0 len).length ≤ (s.tile n).partials)
include body run phase runsK ready round hx partials

/-- What the end of a k-run decides, once its partials are all added. -/
theorem State.kRunEnd_run : s.kRunEnd n f =
    if (s.unitFaults n f).2 then (s.unitFaults n f).1.quarantine n 1
    else
      let u := (s.unitFaults n f).1.readSlot n q slot
      let r := u.recordChecks q x (q.runTiles v x (s.tile n) p k0 len) (s.tile n)
      if !r.2 then r.1 else r.1.runEnds n q v x p slot k0 len := by
  have ends : ¬((s.tile n).phase ≠ .compute ∨ (!q.runsK) = true ∨ (s.tile n).waiting.isSome = true) := by simp [phase, runsK, ready]
  have added : ¬(q.scatter = true ∧ (s.tile n).partials < (x.partials q.it.batch p k0 len).length) := by
    rintro ⟨scatter, more⟩
    rcases partials with none' | all
    · rw [none'] at scatter
      cases scatter
    · omega
  unfold State.kRunEnd
  simp only [work, body, run, round, Option.getD_some, ← hx]
  rw [if_neg ends, if_neg added]

end

/-- What a scattered partial does at its bank. -/
theorem State.scattered_adds {v : View} {p : Nat × Nat} {slot k0 len b : Nat} {t : Tile} {y : Scattered} {f : TileFaults}
    (body : q.b = .op v) (run : s.curRun n q = some (p, slot)) (phase : (s.tile n).phase = .compute) (scatter : q.scatter = true)
    (ready : (s.tile n).waiting = none) (round : q.rounds[(s.tile n).round]? = some (k0, len))
    (ht : t = (s.tile n).toNextAdd slot ((s.feed n q v).partials q.it.batch p k0 len)) (bank : t.nextBank = some b)
    (head : (t.queue b).head? = some y) (sound : ((s.setTile n t).unitFaults n f).2 = false) :
    s.scattered n f = ((s.setTile n t).unitFaults n f).1.bankAdds n q b y := by
  have adds : ¬((s.tile n).phase ≠ .compute ∨ (!q.scatter) = true ∨ (s.tile n).waiting.isSome = true) := by simp [phase, scatter, ready]
  unfold State.scattered
  simp only [work, body, run, round, Option.getD_some]
  rw [if_neg adds]
  simp only [← ht, bank, Option.bind_some, head, Option.map_some, sound, Bool.false_eq_true, if_false]

section
variable {f : TileFaults} (phase : (s.tile n).phase = .compute) (sound : (s.unitFaults n f).2 = false)
include phase sound

theorem State.retire_entry {e : FtqEntry} {rest : List FtqEntry} (runsK : q.runsK = true) (ftq : (s.tile n).ftq = e :: rest) :
    s.retire n f = ((s.unitFaults n f).1.countActivity n q.w.ctx evVector 1).retireEntry n q e rest := by
  unfold State.retire
  simp only [work, phase, ne_eq, not_true_eq_false, if_false, runsK, if_true, ftq, sound, Bool.false_eq_true]

theorem State.retire_tile {p : Nat × Nat} (noRuns : q.runsK = false) (next : q.live[(s.tile n).retired]? = some p) :
    s.retire n f = ((s.unitFaults n f).1.countActivity n q.w.ctx evVector 1).retireTile n q (s.tile n) p := by
  unfold State.retire
  simp only [work, phase, ne_eq, not_true_eq_false, if_false, noRuns, next, sound, Bool.false_eq_true]

end

/-! ### STORE -/

theorem State.beginStore_done (phase : (s.tile n).phase = .compute) (last : (s.tile n).round + 1 = q.rounds.length)
    (runs : q.runsK = false ∨ (s.tile n).runs = q.live.length) (retired : (s.tile n).retired = q.live.length) (queue : (s.tile n).ftq = [])
    (ready : (s.tile n).waiting = none) (push : s.pushWaits q.w = false) : s.beginStore n = s.storeItem n q (s.tile n) := by
  have all : ¬(q.runsK = true ∧ (s.tile n).runs ≠ q.live.length) := by
    rintro ⟨yes, more⟩
    rcases runs with no | all
    · rw [no] at yes
      cases yes
    · exact more all
  have stores : ¬((s.tile n).phase ≠ .compute ∨ (s.tile n).round + 1 ≠ q.rounds.length ∨
      (q.runsK = true ∧ (s.tile n).runs ≠ q.live.length) ∨ (s.tile n).retired ≠ q.live.length ∨ (!(s.tile n).ftq.isEmpty) = true ∨
      (s.tile n).waiting.isSome = true) := by
    rw [ready, queue]
    rintro (h | h | h | h | h | h)
    · exact h phase
    · exact h last
    · exact all h
    · exact h retired
    · cases h
    · cases h
  unfold State.beginStore
  simp only [work]
  rw [if_neg stores, push]
  rfl

end

/-- Settles O32: the start, the k-runs, the partials and the retirements of an item. -/
theorem itemsAreComputed : Obligations.ItemsAreComputed := by
  intro s n q hn work
  refine ⟨fun phase sent here done => onUnit_eq hn (State.beginCompute_loaded work phase sent here done),
    fun v p slot k0 len f x u body run phase runsK ready round hx partials sound hu checked => onUnit_eq hn ?_,
    fun v p slot k0 len t b y f body run phase scatter ready round ht bank head sound =>
      onUnit_eq hn (State.scattered_adds work body run phase scatter ready round ht bank head sound),
    fun e rest f phase runsK ftq sound => onUnit_eq hn (State.retire_entry work phase sound runsK ftq),
    fun p f phase noRuns next sound => onUnit_eq hn (State.retire_tile work phase sound noRuns next),
    fun v p slot k0 len f body run phase runsK ready round noScatter faulty => onUnit_eq hn ?_⟩
  · rw [State.kRunEnd_run work body run phase runsK ready round hx partials, if_neg (by rw [sound]; decide)]
    dsimp only
    rw [← hu, if_neg (by rw [checked]; decide)]
  · rw [State.kRunEnd_run work body run phase runsK ready round rfl (.inl noScatter), if_pos faulty]

/-! ### Writes at the skips -/

section
variable {k : Nat} {r : WriteReq} {rest : List WriteReq} (arrived : (s.skip k).arrived = r :: rest)
include arrived

theorem State.issueWrite_waits (waits : s.tierWaits r.da r.bytes.length = true) : s.issueWrite k = s := by
  unfold State.issueWrite
  simp only [arrived, waits, if_true]

variable (answers : s.tierWaits r.da r.bytes.length = false)
include answers

theorem State.issueWrite_atLimit (full : Skip.writeLimit s k ≤ (s.skip k).issued.length) : s.issueWrite k = s.atLimit k := by
  unfold State.issueWrite
  simp only [arrived, answers, Bool.false_eq_true, if_false, full, if_true]

variable (room : (s.skip k).issued.length < Skip.writeLimit s k)
include room

theorem State.issueWrite_held {j : Nat} (held : s.heldByCopy r = some j) :
    s.issueWrite k = (s.copyBefore j r.da r.bytes.length).modSkip k fun v => { v with heldAt := some (v.heldAt.getD s.sclk) } := by
  unfold State.issueWrite
  simp only [arrived, answers, Bool.false_eq_true, if_false, Nat.not_le.2 room, held]

theorem State.issueWrite_goes {x : Slot} {u y : State} (free : s.heldByCopy r = none) (hu : u = s.countHold k r)
    (hy : y = (u.setSkip k { u.skip k with arrived := rest, issued := (u.skip k).issued ++ [r] }).countMoved r.handle r.da r.bytes.length)
    (entry : y.entry r.handle = some x) : s.issueWrite k = y.touch x.job r.da r.bytes.length := by
  unfold State.issueWrite
  simp only [arrived, answers, Bool.false_eq_true, if_false, Nat.not_le.2 room, free, ← hu, ← hy, entry]

end

theorem State.writeAcked_answers {k : Nat} {r : WriteReq} {rest : List WriteReq} (issued : (s.skip k).issued = r :: rest)
    (answers : s.tierWaits r.da r.bytes.length = false) :
    s.writeAcked k = ((s.performWrite r).modSkip k fun x => { x with issued := rest }).ownerAck r := by
  unfold State.writeAcked
  simp only [issued, answers, Bool.false_eq_true, if_false]

theorem State.doneItem_stored {r : ItemRef} {w : Work} (phase : (s.tile n).phase = .store) (none' : (s.tile n).storesLeft = 0)
    (item : (s.tile n).item = some r) (work : s.work r.op = some w) : s.doneItem n = s.itemDone n (s.tile n) r w := by
  unfold State.doneItem
  simp only [phase, none', and_self, if_true, item, work]

/-- Settles O33: the writes of an item through the skips, and its end. -/
theorem itemsAreStored : Obligations.ItemsAreStored := by
  intro s
  exact ⟨fun n q hn work phase last runs retired queue ready push =>
      onUnit_eq hn (State.beginStore_done work phase last runs retired queue ready push),
    fun k r rest x u y hk arrived answers room free hu hy entry =>
      onUnit_eq hk (State.issueWrite_goes arrived answers room free hu hy entry),
    fun k r rest j hk arrived answers room held => onUnit_eq hk (State.issueWrite_held arrived answers room held),
    fun k r rest hk arrived waits => onUnit_eq hk (State.issueWrite_waits arrived waits),
    fun k r rest hk arrived answers full => onUnit_eq hk (State.issueWrite_atLimit arrived answers full),
    fun k r rest hk issued answers => onUnit_eq hk (State.writeAcked_answers issued answers),
    fun n r w hn phase none' item work => onUnit_eq hn (State.doneItem_stored phase none' item work)⟩

/-! ### Limits, atomics, flags and compatibility launches -/

theorem State.atomic_allowed {a b : AtomicAccess} {u : State} (allowed : s.atomicStatus n a = 0)
    (hb : b = { a with offset := a.offset / 64 * 64 })
    (hu : u = (atomicWords b).foldl (fun s w => s.windowEcc n (b.offset + 8 * w) ((b.ecc[w]?).getD .clean)) (s.portGrants n .atom 1)) :
    s.atomic n a = if a.returnOld then (u.runLanes b n (atomicLanes b)).1.send (.atomicOld n (u.runLanes b n (atomicLanes b)).2)
      else (u.runLanes b n (atomicLanes b)).1 := by
  subst hb hu
  unfold State.atomic
  simp only [allowed, ne_eq, not_true_eq_false, if_false]

theorem State.atomic_refused {a : AtomicAccess} (refused : s.atomicStatus n a ≠ 0) :
    s.atomic n a = s.refuseAtomic a.master (s.atomicStatus n a) := if_pos refused

theorem State.refuseAtomic_inside {m : AtomicMaster} {st : Nat} (inside : st ≠ St.secWindow) :
    s.refuseAtomic m st = s.send (.status st) := by
  cases m with
  | tile k => exact if_pos inside
  | skip k => rfl

theorem State.refuseAtomic_launch {m : Nat} {w : Work} {o : OpRun} (launch : s.launchAt m = some (w, o)) :
    s.refuseAtomic (.tile m) St.secWindow = (s.send (.status St.secWindow)).endPlain w o St.secWindow := by
  have same : (s.send (.status St.secWindow)).launchAt m = some (w, o) := launch
  simp only [State.refuseAtomic, ne_eq, not_true_eq_false, if_false, same]

/-- A flag write reaches the first job that has the flag in its regions. -/
theorem State.flagWrite_job {jn da : Nat} {j : Job} {v : U64} (hjn : jn < 4) (job : s.job jn = some j) (aligned : da % 8 = 0)
    (inside : j.inRegions da 8 = true) (first : ∀ i k, i < jn → s.job i = some k → k.inRegions da 8 = false) :
    s.flagWrite da v = s.flagPut jn da v.toNat := by
  unfold State.flagWrite
  split
  next k found =>
    obtain ⟨has, -, before⟩ := List.find?_range_eq_some.1 found
    rcases lt_trichotomy k jn with less | rfl | more
    · cases jobK : s.job k with
      | none => simp [jobK] at has
      | some x => simp [jobK, first k x less jobK] at has
    · rfl
    · simpa [job, aligned, inside] using before jn more
  next missing => simpa [job, aligned, inside] using List.find?_eq_none.1 missing jn (List.mem_range.2 hjn)

theorem State.programEnds_new {w : Work} {o : OpRun} {j : Job} (launch : s.launchAt n = some (w, o)) (new : n ∉ o.compatTiles)
    (job : s.job w.job = some j) : s.programEnds n =
      let t := s.modOp w.seq fun x => { x with compatTiles := o.compatTiles ++ [n] }
      if o.compatTiles.length + 1 = j.tiles.length then t.endPlain w o St.done else t := by
  have fresh : o.compatTiles.contains n = false := by simpa using new
  have same (f : OpRun → OpRun) : (s.modOp w.seq f).job w.job = some j := job
  unfold State.programEnds
  simp only [launch, fresh, Bool.false_eq_true, if_false, same, List.length_append, List.length_singleton]

theorem State.programStops_launch {w : Work} {o : OpRun} {h t : Nat} {j : Job} (launch : s.launchAt n = some (w, o))
    (holder : s.holder (paddockOf n) = some h) (job : s.job h = some j) : s.programStops n t =
      s.endOp w o St.paramCompatInsn (resultBlock o false 0 0 (s.programDa j w.params n + t) 0 n 0 0) := by
  unfold State.programStops
  simp only [launch, holder, Option.bind_some, job]

/-- Settles O34: each event of a tile under the condition of its clause. -/
theorem tileEventsComplete : Obligations.TileEventsComplete := by
  intro s
  refine ⟨fun n hn limit => onUnit_eq hn (if_pos limit), fun n hn limit => onUnit_eq hn (if_pos limit),
    fun n a b u hn allowed hb hu => ⟨fun silent => onUnit_eq hn ?_, fun old => onUnit_eq hn ?_⟩,
    fun n a st hn hst refused inside => onUnit_eq hn ?_, fun n m a w o hn refused master launch => onUnit_eq hn ?_,
    fun jn j da v hjn job aligned inside first => next_eq (State.flagWrite_job hjn job aligned inside first), fun da => rfl,
    fun n w o j hn launch new job more => onUnit_eq hn ?_, fun n w o j x hn launch new job last hx => onUnit_eq hn ?_,
    fun n w o h j t hn launch holder job => onUnit_eq hn (State.programStops_launch launch holder job)⟩
  · rw [State.atomic_allowed allowed hb hu, if_neg (by rw [silent]; decide)]
  · rw [State.atomic_allowed allowed hb hu, if_pos old]
  · subst hst
    rw [State.atomic_refused refused, State.refuseAtomic_inside inside]
  · have bad : s.atomicStatus n a ≠ 0 := by rw [refused]; decide
    rw [State.atomic_refused bad, refused, master, State.refuseAtomic_launch launch]
  · rw [State.programEnds_new launch new job]
    exact if_neg more
  · rw [State.programEnds_new launch new job, hx]
    exact if_pos last

end Sys2Proof.Machine
end

section
/-! CLAIM. Events of the memory tiers (R219-R229, R398), of the power loop (R410-R421, R478) and of the clocks (R405, R435, R462). -/

namespace Sys2Proof.Machine

variable {s : State}

/-! ### Memory -/

/-- What a scrub read does at an address of a tier that answers. -/
theorem State.scrubRead_answers {da : Nat} (tier : s.inTier da = true) (answers : s.tierWaits da 1 = false) (e : Ecc) (n : Nat) :
    s.scrubRead da e n =
      if da < hbmBytes then
        { s.applyEcc da e with memInfo := { (s.applyEcc da e).memInfo with
          onDie := store 0 (s.applyEcc da e).memInfo.onDie (hbmStack da)
            (sat32 (lookup 0 (s.applyEcc da e).memInfo.onDie (hbmStack da) + n)) } }
      else s.applyEcc da e := by
  have reads : ¬((!s.inTier da) = true ∨ s.tierWaits da 1 = true) := by simp [tier, answers]
  unfold State.scrubRead
  exact if_neg reads

/-- What a repair does to a row that fails. -/
theorem State.softRepair_failing {r : DramRow} (fails : s.rowFails r = true) : s.softRepair r =
    let us := r.das.map unitOf
    let t := { s with
      corrections := s.corrections.filter fun e => !us.contains e.1
      memInfo := { s.memInfo with failed := s.memInfo.failed.filter fun u => !us.contains u } }
    if r.spareLeft then
      { t with memInfo := { t.memInfo with pendingRepairs := sat 10 (t.memInfo.pendingRepairs + 1), soft := t.memInfo.soft ++ [r] } }
    else t.retireRow r := by
  unfold State.softRepair
  exact if_neg (by rw [fails]; decide)

/-- Settles O35: reads, write-backs, repairs and tests under the condition of their clause. -/
theorem memoryEventsComplete : Obligations.MemoryEventsComplete := by
  intro s
  refine ⟨fun da e n t tier answers ddr ht => next_eq ?_, fun da e n t h tier answers hbm ht hh => next_eq ?_,
    fun da => ⟨rfl, rfl, rfl⟩, fun da answers => next_eq (if_neg (by rw [answers]; decide)),
    fun r us fails hus spare => next_eq ?_, fun r us fails hus none' => next_eq ?_,
    fun r sound => next_eq (if_pos (by rw [sound]; rfl)), fun t l es x test hes hx => next_eq ?_⟩
  · rw [State.scrubRead_answers tier answers, if_neg (Nat.not_lt.2 ddr), ht]
  · rw [State.scrubRead_answers tier answers, if_pos hbm, ht, hh]
  · rw [State.softRepair_failing fails, hus]
    exact if_pos spare
  · rw [State.softRepair_failing fails, hus]
    exact if_neg (by rw [none']; decide)
  · unfold State.memTestEnds
    simp only [test, ← hes, ← hx]

/-! ### The power loop -/

/-- What a period of the cap loop does while the rails are on. -/
theorem State.capLoop_running (on : s.sec.off = false) (high : s.sec.resetLow = false) (t : Telemetry) : s.capLoop t =
    let u := (((s.takeCap).readTelemetry t).readHour).readVrms t.vrmStatus
    if u.sec.off then u else if u.tooHot then u.thermalShutdown else u.capPeriod := by
  unfold State.capLoop
  exact if_neg (by simp [on, high])

theorem State.thermalStep_held {p : Nat} (held : s.held p = true) : s.thermalStep p =
    if s.limitQc ≤ (s.paddock p).tempQc ∧ (s.paddock p).hot = 0 then
      (s.modPaddock p fun x => { x with thermal := some (min 4 (x.thermal.getD 0 + 1)), hot := 10 }).regrant
    else if (s.paddock p).tempQc < s.limitQc - 12 ∧ (s.paddock p).cool = 0 then
      (s.modPaddock p fun x => { x with thermal := (match x.thermal with | some (n + 1) => some n | _ => none), cool := 100 }).regrant
    else s := by
  unfold State.thermalStep
  exact if_neg (by rw [held]; decide)

/-- The level of a supply: two thresholds below the voltage in force, or one. -/
theorem State.droopLevel_eq (p mv : Nat) : s.droopLevel p mv =
    if mv + 2 * s.threshMv < s.inForceMv (p / 5) then 2 else if mv + s.threshMv < s.inForceMv (p / 5) then 1 else 0 := by
  unfold State.droopLevel
  split
  next two =>
    have one : mv + s.threshMv < s.inForceMv (p / 5) := by omega
    simp [two, one, b2n]
  next notTwo =>
    split
    next one => simp [notTwo, one, b2n]
    next notOne => simp [notTwo, notOne, b2n]

theorem State.droop_stays {p mv : Nat} (h : s.droopLevel p mv ≤ (s.paddock p).stretch) : s.droop p mv = s := if_pos (.inr h)

theorem State.droop_deeper {p mv : Nat} (held : s.held p = true) (deeper : (s.paddock p).stretch < s.droopLevel p mv) : s.droop p mv =
    ((s.setPaddock p { s.paddock p with
      stretch := s.droopLevel p mv, stretchSince := s.sclk
      stretchCycles := sat32 ((s.paddock p).stretchCycles + (s.paddock p).stretchCount s.sclk)
      stretchEvents := if (s.paddock p).stretch = 0 then sat32 ((s.paddock p).stretchEvents + 1) else (s.paddock p).stretchEvents }).holdRamp
        (p / 5)).throttleNow := by
  have trips : ¬((!s.held p) = true ∨ s.droopLevel p mv ≤ (s.paddock p).stretch) := by
    rw [held, Nat.not_le.2 deeper |> eq_false]
    decide
  unfold State.droop
  exact if_neg trips

theorem State.droopEnds_unsteady {h : Steady} (short : h.ns < 10 * s.power.hold) : s.droopEnds h = s := by
  have unsteady : s.steady h = false := by
    unfold State.steady
    rw [decide_eq_false (Nat.not_le.2 short), Bool.and_false]
  unfold State.droopEnds
  exact if_pos (.inr (by rw [unsteady]; rfl))

theorem State.droopEnds_steady {h : Steady} (stretched : (s.paddock h.paddock).stretch ≠ 0)
    (above : s.inForceMv (h.paddock / 5) + 10 < h.lowestMv + s.threshMv) (long : 10 * s.power.hold ≤ h.ns) : s.droopEnds h =
    ((s.setPaddock h.paddock { s.paddock h.paddock with
      stretch := 0, stretchCycles := sat32 ((s.paddock h.paddock).stretchCycles + (s.paddock h.paddock).stretchCount s.sclk) }).runQuarter
        (h.paddock / 5)).throttleNow := by
  have ends : ¬((s.paddock h.paddock).stretch = 0 ∨ (!s.steady h) = true) := by
    simp [State.steady, stretched, above, long]
  unfold State.droopEnds
  exact if_neg ends

section
variable (on : s.sec.off = false) (high : s.sec.resetLow = false)
include on high

/-- An alert is read while the rails are on. -/
theorem State.vrmAlert_read (d : Disturbance) (standing : Bool) : s.vrmAlert d standing =
    let t := s.noteVrm d standing
    match d, standing with
    | .feedSag, true | .brownOut, true => (t.vrmCeilings).regrant
    | .overcurrent r, true =>
      ((if s.power.overcurrent.contains r then t else ((paddocksOf r).filter t.held).foldl State.stepOc t).vrmCeilings).regrant
    | _, _ => t := by
  have reads : ¬(s.sec.off = true ∨ s.sec.resetLow = true) := by simp [on, high]
  unfold State.vrmAlert
  refine (if_neg reads).trans ?_
  rcases d <;> cases standing <;> rfl

end

theorem State.noteVrm_powerFail (new : s.power.powerFail = false) : s.noteVrm .powerFail true =
    ({ s with power := { s.power with powerFail := true, handOutStopped := true } }).event 2 [] := by
  simp [State.noteVrm, new]

/-- An hour adds its powered hour and its whole minutes, and no thermal cycle. -/
theorem State.hourly_counts (high : s.sec.resetLow = false) (h : HourlyData) :
    (s.hourly h).life.poweredH = sat32 (s.life.poweredH + 1) ∧
    (s.hourly h).life.minutes = addLists s.life.minutes (s.life.hour.bins.map fun n => n / minutePeriods) ∧
    (s.hourly h).life.cycles = s.life.cycles := by
  unfold State.hourly
  rw [if_neg (by rw [high]; decide)]
  exact ⟨rfl, rfl, rfl⟩

/-- Settles O36: each event of the power loop under the condition of its clause. -/
theorem powerEventsComplete : Obligations.PowerEventsComplete := by
  intro s
  refine ⟨fun t u on high hu on' => ⟨fun cool => next_eq ?_, fun hot => next_eq ?_⟩, fun stale => next_eq (if_pos stale),
    fun p hp held hot count => onUnit_eq hp ?_, fun p n hp held cold count ceiling => onUnit_eq hp ?_,
    fun q hq raised => onUnit_eq hq (if_pos raised), fun q hq lowered down => onUnit_eq hq ?_, State.droopLevel_eq,
    fun p mv hp held deeper => onUnit_eq hp (State.droop_deeper held deeper),
    fun p mv hp shallow => onUnit_eq hp (State.droop_stays shallow),
    fun h hp stretched above long => onUnit_eq hp (State.droopEnds_steady stretched above long),
    fun h hp short => onUnit_eq hp (State.droopEnds_unsteady short), fun on => next_eq (if_neg (by rw [on]; decide)), next_eq rfl,
    fun x on high hx => next_eq ?_, fun x on high hx => next_eq ?_, fun on high new => next_eq ?_, fun r on high => next_eq ?_,
    fun r on high => next_eq ?_, fun gone => next_eq (if_neg (by rw [gone]; decide)), fun x gone hx => next_eq ?_,
    fun h high => ⟨s.hourly h, rfl, State.hourly_counts high h⟩⟩
  · rw [State.capLoop_running on high, ← hu]
    dsimp only
    rw [if_neg (by rw [on']; decide), if_neg (by rw [cool]; decide)]
  · rw [State.capLoop_running on high, ← hu]
    dsimp only
    rw [if_neg (by rw [on']; decide), if_pos hot]
  · rw [State.thermalStep_held held, if_pos ⟨hot, count⟩, State.modPaddock_eq]
  · have notHot : ¬(s.limitQc ≤ (s.paddock p).tempQc ∧ (s.paddock p).hot = 0) := by omega
    rw [State.thermalStep_held held, if_neg notHot, if_pos ⟨cold, count⟩, State.modPaddock_eq]
    simp only [ceiling]
  · unfold State.vrmReached
    rw [if_neg (Nat.not_lt.2 lowered), if_pos down]
  · rw [State.vrmAlert_read on high, hx]
    rfl
  · rw [State.vrmAlert_read on high, hx]
    rfl
  · rw [State.vrmAlert_read on high]
    exact State.noteVrm_powerFail new
  · rw [State.vrmAlert_read on high]
    rfl
  · rw [State.vrmAlert_read on high]
    rfl
  · rw [hx]
    exact if_neg (by rw [gone]; decide)

/-! ### Clocks -/

theorem State.warmAsked_first (none' : s.sec.warmPending = none) (c : WarmCause) :
    s.warmAsked c = { s with sec := { s.sec with warmPending := some c } } := if_neg (by rw [none']; decide)

/-- The state in which a PLL that was locked has lost its lock, counted and recorded. -/
theorem State.pllLost_locked {p : Pll} {x : State} (locked : s.locked p = true)
    (hx : x = ({ s.setLock p false with power := { (s.setLock p false).power with loss := sat32 ((s.setLock p false).power.loss + 1) } }).event
      12 (leBytes 1 (pllCode p))) : s.pllLost p =
      if p = .root then x.warmAsked .rootPll else { x with sec := { x.sec with relocking := x.sec.relocking ++ [p] } } := by
  subst hx
  unfold State.pllLost
  rw [if_neg (by rw [locked]; decide)]
  cases p <;> rfl

/-- Settles O37: watchdogs, lost locks and locks that do not return. -/
theorem clockFaultEventsComplete : Obligations.ClockFaultEventsComplete := by
  intro s
  refine ⟨fun c hc none' => onUnit_eq hc (State.warmAsked_first none' _), fun p x other locked hx => next_eq ?_,
    fun x locked hx => next_eq ?_, fun p relocking => next_eq (if_pos relocking)⟩
  · rw [State.pllLost_locked locked hx, if_neg other]
  · rw [State.pllLost_locked locked hx, if_pos rfl]

end Sys2Proof.Machine
end

section
/-! CLAIM. Resets, the stages of boot, the sideband and the attestation (R462-R475, R489-R494), and what reset leaves. -/

namespace Sys2Proof.Machine

variable {s : State}

/-! ### PLLs -/

/-- A relocked PLL of an edge retrains the edge's ports. -/
theorem State.pllLocks_fab {e : Bool} {x : State} (other : s.starting (.fab e) = false) (relocking : s.sec.relocking.contains (.fab e) = true)
    (hx : x = { s.setLock (.fab e) true with sec := { s.sec with relocking := s.sec.relocking.filter (· != .fab e) } }) :
    s.pllLocks (.fab e) = (portsOf e).foldl (fun s p => s.retrain p false) x := by
  unfold State.pllLocks
  rw [if_neg (by rw [other]; decide), if_pos relocking, hx]
  rfl

/-- A PLL of the start-up order that does not lock: the root's stops the boot, an HBM stack's is passed over. -/
theorem State.pllFails_starting {p : Pll} (starting : s.starting p = true) : s.pllFails p =
    match p with
    | .root => { s with sec := { s.sec with faultLow := true, pllNext := 15 } }
    | .fab e => ((portsOf e).foldl (fun s p => s.modPort p fun x => { x with state := 0 }) s).nextPll
    | .host => ({ s with host := { s.host with state := 0 } }).nextPll
    | _ => s.nextPll := by
  unfold State.pllFails
  refine (if_neg (by rw [starting]; decide)).trans ?_
  cases p <;> rfl

/-! ### Stages -/

/-- The end of the ROM stage: the chosen bank's first image verifies, or the other bank's, or the boot halts. -/
theorem State.romEnds_stage1 {t u : State} {b : Bool} (stage : s.sec.stage = 1) (ht : t = s.romStarts)
    (hb : b = t.sec.header.pending.getD t.sec.header.active) (hu : u = t.bankFailed b (t.verifyImage b 1)) : s.romEnds =
      if t.verifyImage b 1 = 0 then t.runStage1 b else if u.verifyImage (!b) 1 = 0 then u.runStage1 (!b)
      else (u.bankFailed (!b) (u.verifyImage (!b) 1)).halt := by
  unfold State.romEnds
  rw [if_neg (not_not.2 stage)]
  simp only [← ht, ← hb]
  cases first : t.verifyImage b 1 with
  | zero => rfl
  | succ c =>
    rw [first] at hu
    simp only [← hu, Nat.succ_ne_zero, if_false]
    cases second : u.verifyImage (!b) 1 with
    | zero => rfl
    | succ d => rfl

/-- The first code of two checks that is not 0. -/
theorem firstBad_two (a b : Nat) : firstBad [(a == 0, a), (b == 0, b)] = if a = 0 then b else a := by
  cases a with
  | zero => cases b <;> rfl
  | succ n => rfl

/-- The end of stage 1 at cold boot: the bank's main image verifies, or the other bank is tried once. -/
theorem State.stage1Ends_cold {u : State} {b : Bool} {c : Nat} (stage : s.sec.stage = 2) (cold : s.sec.reloading = false)
    (hb : b = s.sec.bank) (hu : u = s.bankFailed b (s.verifyImage b 2))
    (hc : c = if u.verifyImage (!b) 1 = 0 then u.verifyImage (!b) 2 else u.verifyImage (!b) 1) : s.stage1Ends =
      if s.verifyImage b 2 = 0 then s.runMain else if s.sec.fallback ≠ 0 then u.halt
      else if c = 0 then (u.runStage1 (!b)).runMain else (u.bankFailed (!b) c).halt := by
  unfold State.stage1Ends
  rw [if_neg (not_not.2 stage)]
  simp only [← hb, cold]
  cases main : s.verifyImage b 2 with
  | zero => rfl
  | succ d =>
    rw [main] at hu
    simp only [← hu, Nat.succ_ne_zero, if_false, firstBad_two, ← hc]
    by_cases tried : s.sec.fallback ≠ 0
    · rw [if_pos tried, if_pos tried]
    · rw [if_neg tried, if_neg tried]
      cases c with
      | zero => rfl
      | succ n => rfl

/-- The end of stage 1 at a warm reset: the image must be the one measured at cold boot. -/
theorem State.stage1Ends_warm {b : Bool} {c : Nat} (stage : s.sec.stage = 2) (warm : s.sec.reloading = true) (hb : b = s.sec.bank)
    (hc : c = s.verifyImage b 2) : s.stage1Ends =
      if c = 0 then
        (if s.imageHash b 2 = s.sec.mainHash then { s with sec := { s.sec with stage := 3 } }
         else ({ s with sec := { s.sec with failCode := 9 } }).halt)
      else ({ s with sec := { s.sec with failCode := c } }).halt := by
  unfold State.stage1Ends
  rw [if_neg (not_not.2 stage)]
  simp only [← hb, warm, ← hc]
  cases c with
  | zero => rfl
  | succ n => rfl

/-- Settles O38: resets, locks and stages under the condition of their clause. -/
theorem resetAndBootEventsComplete : Obligations.ResetAndBootEventsComplete := by
  intro s
  refine ⟨fun c ready => next_eq (if_neg (by rw [ready]; decide)), fun stage reloading => next_eq (if_neg (by simp [stage, reloading])), rfl,
    fun t u low hu => next_eq ?_, fun p starting => next_eq (by rw [State.pllLocks, if_pos starting]),
    fun e x other relocking hx => next_eq (by rw [State.pllLocks_fab other relocking hx]),
    fun starting => next_eq (State.pllFails_starting starting), fun h starting => next_eq (State.pllFails_starting starting),
    fun t b u stage ht hb hu => next_eq (State.romEnds_stage1 stage ht hb hu),
    fun b u c stage cold hb hu hc => next_eq (State.stage1Ends_cold stage cold hb hu hc),
    fun b c stage warm hb hc => next_eq (State.stage1Ends_warm stage warm hb hc),
    fun t stage cold => next_eq (if_neg (by simp [stage, cold]))⟩
  subst hu
  exact if_neg (by rw [low]; decide)

/-! ### The sideband and the attestation -/

theorem State.sidebandHears_iff {a : BitVec 7} : s.sidebandHears a = true ↔ s.sidebandUp = true ∧ a.toNat = 0x58 + s.sec.sbAddr := by
  simp [State.sidebandHears]

theorem State.reportDone_last {q : Nat} {m : List Byte} (attesting : s.sec.attesting = [(q, m)]) :
    s.reportDone = ({ s with sec := { s.sec with report := s.reportOf m, attesting := [] } }).finish q St.done [] := by
  simp only [State.reportDone, attesting]

/-- Settles O39: a transfer is heard or not. -/
theorem sidebandAndReportComplete : Obligations.SidebandAndReportComplete := by
  intro s
  refine ⟨fun w up address eight => next_eq ?_, fun w deaf => next_eq ?_, fun q r up address hr => next_eq ?_,
    fun q deaf => next_eq ?_, fun q m attesting => next_eq (by rw [State.reportDone_last attesting])⟩
  · exact if_pos (by rw [State.sidebandHears_iff.2 ⟨up, address⟩, eight]; rfl)
  · refine if_neg fun heard => ?_
    rw [Bool.and_eq_true, State.sidebandHears_iff, beq_iff_eq] at heard
    obtain ⟨⟨up, address⟩, eight⟩ := heard
    rcases deaf with down | other | long
    · rw [down] at up
      cases up
    · exact other address
    · exact long eight
  · unfold State.sidebandRead
    rw [if_neg (by rw [State.sidebandHears_iff.2 ⟨up, address⟩]; decide), hr]
  · refine if_pos ?_
    rw [Bool.not_eq_true', ← Bool.not_eq_true, State.sidebandHears_iff]
    rintro ⟨up, address⟩
    rcases deaf with down | other
    · rw [down] at up
      cases up
    · exact other address

/-! ### What reset leaves -/

/-- No write to flash was made in the cycle of the reset, and none is torn. -/
theorem State.flashBusy_quiet (quiet : ∀ c, s.life.flashAt = some c → c.1 < s.sclk) : s.flashBusy = none := by
  unfold State.flashBusy
  split
  next t header last => exact if_neg (Nat.ne_of_lt (quiet _ last))
  next => rfl

theorem State.tears_quiet (quiet : s.flashBusy = none) (header : Bool) : s.tears header = false := by simp [State.tears, quiet]

/-- Settles O45: `State.coldReset` is that state, and without a write in its cycle nothing is torn. -/
theorem coldResetLeavesReset : Obligations.ColdResetLeavesReset := by
  intro s t h
  obtain rfl : t = s.coldReset := next_inj h
  refine ⟨rfl, fun quiet => ?_⟩
  have still := State.flashBusy_quiet quiet
  have header : s.headerLeft = (s.sec.copy0, s.sec.copy1) := by simp [State.headerLeft, State.tears_quiet still]
  have ring : s.ringLeft = s.life.ring := by simp [State.ringLeft, State.tears_quiet still]
  refine ⟨?_, congrArg Prod.fst header, congrArg Prod.snd header, ring⟩
  change s.freeCtr + b2n s.flashBusy.isSome = s.freeCtr
  rw [still]
  rfl

/-- Settles O46: the tables of the state after reset are empty, so each read gives its default. -/
theorem resetValues : Obligations.ResetValues :=
  ⟨rfl, fun i => rfl, rfl, fun j => rfl, fun c => rfl, rfl, rfl, rfl, rfl,
    fun p r => by simp [State.paddock, State.reset, Power.reset, Paddock.limits, Paddock.ceilings, Paddock.reset], fun r => rfl,
    rfl, fun n => ⟨rfl, rfl⟩⟩

end Sys2Proof.Machine
end

section
/-! CLAIM. How every row of the table answers (log 9): with a next state, or with the fault of a unit that the device does not have. -/

namespace Sys2Proof.Machine

/-- The outcome of a command: a next state, or the missing unit that its operands name out of their range. -/
def Answered (c : Instr) (o : Host.Outcome State Fault Refusal) : Prop :=
  (∃ t, o = .next t) ∨ (o = .fault .noSuchUnit ∧ c.wf = false)

theorem answered_next (c : Instr) (t : State) : Answered c (.next t) := .inl ⟨t, rfl⟩

theorem answered_onUnit {c : Instr} {n k : Nat} (t : State) (h : c.wf = true → n < k) : Answered c (onUnit n k t) := by
  by_cases unit : n < k
  · exact .inl ⟨t, if_pos unit⟩
  · exact .inr ⟨if_neg unit, Bool.eq_false_iff.2 fun wf => unit (h wf)⟩

theorem answered_onUnits {c : Instr} {n k m l : Nat} (t : State) (h : c.wf = true → n < k ∧ m < l) : Answered c (onUnits n k m l t) := by
  by_cases units : n < k ∧ m < l
  · exact .inl ⟨t, if_pos units⟩
  · exact .inr ⟨if_neg units, Bool.eq_false_iff.2 fun wf => units (h wf)⟩

theorem lt_of_wf_and {n k : Nat} {b : Bool} (h : (decide (n < k) && b) = true) : n < k := of_decide_eq_true (Bool.and_eq_true_iff.1 h).1

theorem lt_lt_of_wf_and {n k m l : Nat} (h : (decide (n < k) && decide (m < l)) = true) : n < k ∧ m < l :=
  ⟨lt_of_wf_and h, of_decide_eq_true (Bool.and_eq_true_iff.1 h).2⟩

/-- Every arm of `exec`: events at one unit, events at two, and all others. -/
theorem exec_answered (c : Instr) (s : State) : Answered c (exec c s) := by
  cases c
  case tileCntClrPhase n | tileCntClrFtq n | tileCntClrAcc n | tileCntClrPort n | fabRetrain n | fabPortEnable n _
      | journalMirrorWrite n | cnpRateRestore n | hostTransferComplete n | hostTimeout n | hostLaneLossOfLock n | ackFlit n _ | nakFlit n _
      | replayLimit n | ackFlitTimer n | portRetrainComplete n _ | spareDue n | pairTimeout n | heartbeat n | mirrorPairTimeout n
      | mirrorCopyComplete n | checkpointComplete n | restoreComplete n | take n | doneMessage n | pullIssue n | skipReadReturn n _
      | computeStart n | recoveredLimit n | eccQuarantineLimit n | storeStart n | spillComplete n | refillComplete n | skipWrite n
      | writeAcknowledged n | compatProgramEnd n | zeroingComplete n | thermalCeilingStep n | vrmAtTarget n | droopTrip n _ | stretchEnd n
      | watchdogExpiry n | imageApplyComplete n => exact answered_onUnit _ of_decide_eq_true
  case dataFlit n _ | peerLost n _ | kRunEnd n _ | ftqEntryRetire n _ | atomic n _ | scatteredPartial n _ | compatInsnStop n _ =>
    exact answered_onUnit _ lt_of_wf_and
  case laneLossOfLock n _ | pull n _ | streamTransferStart n _ => exact answered_onUnits _ lt_lt_of_wf_and
  all_goals exact answered_next _ _

/-- The commands that wait stay, at the fall of RESET_N too. -/
theorem exec_pending {c : Instr} {s t : State} (h : exec c s = .next t) : t.pending = s.pending := by
  by_cases fall : c = .resetNFall
  · subst fall
    cases h
    rfl
  · exact (exec_keeps c s t h fall).pending

/-- Settles O3: every arm answers, with the commands that wait as they were. -/
theorem onlyMissingUnitsFault : Obligations.OnlyMissingUnitsFault := by
  intro c s
  have answers {t : State} (h : exec c s = .next t) : ∃ t, exec c s = .next t ∧ t.pending = s.pending := ⟨t, h, exec_pending h⟩
  obtain ⟨t, next⟩ | ⟨fault, ill⟩ := exec_answered c s
  · refine ⟨fun _ => answers next, fun fault => ?_, .inl (answers next)⟩
    rw [next] at fault
    cases fault
  · refine ⟨fun wf => ?_, fun _ => ill, .inr fault⟩
    rw [ill] at wf
    cases wf

end Sys2Proof.Machine
end

section
/-! SUPPORT and CLAIM. `MEM_READ` and `MEM_WRITE` (R87, R88, R216, R377, R435, R445): what each part of an accepted command leaves of
the bytes of memory, of the entries and of the held commands. -/

namespace Sys2Proof.Machine

variable {s : State}

/-! ### The way of the data: messages and ports of tiles -/

/-- What is left of the state beside the tiles' ports, the STP and the model's free values. -/
def State.besideWay (s : State) : State :=
  { s with power := .reset, tiles := [], stpIn := [], stpMessages := 0, freeCtr := 0 }

theorem State.mem_of_besideWay {t : State} (h : t.besideWay = s.besideWay) : t.mem = s.mem := congrArg (·.mem) h
theorem State.works_of_besideWay {t : State} (h : t.besideWay = s.besideWay) : t.works = s.works := congrArg (·.works) h
theorem State.host_of_besideWay {t : State} (h : t.besideWay = s.besideWay) : t.host = s.host := congrArg (·.host) h
theorem State.jobs_of_besideWay {t : State} (h : t.besideWay = s.besideWay) : t.jobs = s.jobs := congrArg (·.jobs) h

theorem State.stpHop_besideWay (f : List Byte) (i : Nat) : (s.stpHop f i).besideWay = s.besideWay := by
  unfold State.stpHop
  dsimp only
  split <;> rfl

theorem State.carry_besideWay (src dest : Agent) (kind : Nat) (payload : List Byte) :
    (s.carry src dest kind payload).besideWay = s.besideWay := by
  unfold State.carry State.carryMarked
  split
  · exact State.foldl_leaves State.besideWay (f := fun s f => (stpPath _ _).foldl (fun s i => s.stpHop f i) s)
      (fun s f => State.foldl_leaves State.besideWay (f := fun s i => s.stpHop f i) (fun _ _ => State.stpHop_besideWay _ _) _ _) _ _
  · rfl

theorem State.remotePort_besideWay (m : PortMaster) (da n : Nat) : (s.remotePort m da n).besideWay = s.besideWay := by
  unfold State.remotePort
  split
  · split
    · unfold State.portGrants
      dsimp only
      split <;> rfl
    · rfl
  · rfl

theorem State.hostIn_besideWay (da : Nat) (bs : List Byte) : (s.hostIn da bs).besideWay = s.besideWay := by
  unfold State.hostIn
  split
  · exact State.foldl_leaves State.besideWay (fun _ _ => State.carry_besideWay _ _ _ _) _ _
  · rfl

theorem State.hostOut_besideWay (da : Nat) (bs : List Byte) : (s.hostOut da bs).besideWay = s.besideWay := by
  unfold State.hostOut
  split
  · exact State.foldl_leaves State.besideWay
      (fun _ _ => (State.carry_besideWay _ _ _ _).trans (State.carry_besideWay _ _ _ _)) _ _
  · rfl

theorem State.windowTook_besideWay (da n : Nat) : (s.windowTook da n).besideWay = s.besideWay := by
  unfold State.windowTook
  split
  · split <;> rfl
  · rfl

/-! ### Error correction and poison on a read -/

/-- The bytes of memory, the entries, and the host port with the commands that it holds. -/
def State.entryView (s : State) : SMap Byte × List Work × HostPort := (s.mem, s.works, s.host)

theorem State.entryView_of_besideWay {t : State} (h : t.besideWay = s.besideWay) : t.entryView = s.entryView :=
  show t.besideWay.entryView = s.besideWay.entryView from congrArg State.entryView h

theorem State.poisonSeen_entryView (da : Nat) : (s.poisonSeen da).entryView = s.entryView :=
  State.foldl_leaves State.entryView
    (f := fun s n => s.modJob n fun x => if x.meetsState da 1 then { x with poisonState := true } else x) (fun _ _ => rfl) _ _

theorem State.memLast_entryView (da kind : Nat) : (s.memLast da kind).entryView = s.entryView := by
  unfold State.memLast
  split <;> rfl

theorem State.countEcc_entryView (da : Nat) (f : EccCount → EccCount) : (s.countEcc da f).entryView = s.entryView := by
  unfold State.countEcc
  dsimp only
  split <;> rfl

theorem State.corrected_entryView (da : Nat) : (s.corrected da).entryView = s.entryView := by
  unfold State.corrected
  dsimp only
  split
  · rfl
  · rw [State.memLast_entryView]
    exact State.countEcc_entryView _ _

theorem State.uncorrectable_entryView (da : Nat) : (s.uncorrectable da).entryView = s.entryView := by
  unfold State.uncorrectable
  split
  · rfl
  · dsimp only
    rw [State.poisonSeen_entryView, State.memLast_entryView]
    exact State.countEcc_entryView _ _

theorem State.applyEcc_entryView (da : Nat) (e : Ecc) : (s.applyEcc da e).entryView = s.entryView := by
  cases e with
  | clean => rfl
  | corrected => exact State.corrected_entryView da
  | uncorrectable => exact State.uncorrectable_entryView da

theorem State.windowEcc_entryView (n off : Nat) (e : Ecc) : (s.windowEcc n off e).entryView = s.entryView := by
  unfold State.windowEcc
  split
  · rfl
  · cases e <;> rfl

theorem State.readEcc_entryView (da : Nat) (e : Ecc) : (s.readEcc da e).entryView = s.entryView := by
  unfold State.readEcc
  split
  · exact State.windowEcc_entryView _ _ e
  · exact State.applyEcc_entryView da e
  · exact State.applyEcc_entryView da e
  · rfl

theorem State.hostEcc_entryView (da n : Nat) (es : List Ecc) : (s.hostEcc da n es).entryView = s.entryView :=
  State.foldl_leaves State.entryView (f := fun s (u : Nat × Ecc) => s.readEcc u.1 u.2) (fun _ _ => State.readEcc_entryView _ _) _ _

theorem State.hostPoison_entryView (u : Nat) : (s.hostPoison u).entryView = s.entryView := by
  unfold State.hostPoison
  rw [State.poisonSeen_entryView, State.memLast_entryView]
  rfl

/-! ### Copies before a write -/

/-- The entries, and the host port with the commands that it holds. -/
def State.queueView (s : State) : List Work × HostPort := (s.works, s.host)

theorem State.unmark_queueView (u : Nat) : (s.unmark u).queueView = s.queueView := by
  unfold State.unmark
  split <;> rfl

theorem State.write_queueView (da : Nat) (bs : List Byte) : (s.write da bs).queueView = s.queueView :=
  State.foldl_leaves State.queueView (f := State.unmark) (fun _ _ => State.unmark_queueView _) _ _

theorem State.poisonSeen_queueView (da : Nat) : (s.poisonSeen da).queueView = s.queueView :=
  State.foldl_leaves State.queueView
    (f := fun s n => s.modJob n fun x => if x.meetsState da 1 then { x with poisonState := true } else x) (fun _ _ => rfl) _ _

theorem State.copySees_queueView (ps : List (Nat × Nat × Nat)) : (s.copySees ps).queueView = s.queueView := by
  unfold State.copySees
  split
  · exact State.poisonSeen_queueView _
  · rfl

theorem State.poisonsState_queueView (us : List Nat) : (s.poisonsState us).queueView = s.queueView :=
  State.foldl_leaves State.queueView (fun _ _ => State.poisonSeen_queueView _) _ _

theorem State.copyRange_queueView (src dst len : Nat) : (s.copyRange src dst len).queueView = s.queueView := by
  unfold State.copyRange
  dsimp only
  rw [State.poisonsState_queueView]
  exact (State.foldl_leaves State.queueView (f := State.mark) (fun _ _ => rfl) _ _).trans (State.write_queueView _ _)

theorem State.ckptReads_queueView (jn : Nat) (pick : Nat × Nat × Nat → Bool) : (s.ckptReads jn pick).queueView = s.queueView := by
  unfold State.ckptReads
  split
  · rfl
  · dsimp only
    exact (State.foldl_leaves State.queueView (fun _ _ => State.copyRange_queueView _ _ _) _ _).trans (State.copySees_queueView _)

theorem State.mirrorReads_queueView (jn : Nat) (pick : Nat × Nat × Nat → Bool) : (s.mirrorReads jn pick).queueView = s.queueView := by
  unfold State.mirrorReads
  split
  · rfl
  · split
    · rfl
    · exact State.copySees_queueView _

theorem State.copyBefore_queueView (jn da len : Nat) : (s.copyBefore jn da len).queueView = s.queueView := by
  unfold State.copyBefore
  dsimp only
  split
  · exact (State.mirrorReads_queueView _ _).trans (State.ckptReads_queueView _ _)
  · rfl

theorem State.devWrite_queueView (jn da : Nat) (bs : List Byte) : (s.devWrite jn da bs).queueView = s.queueView :=
  (State.write_queueView _ _).trans (State.copyBefore_queueView _ _ _)

/-! ### The end of an entry that stands in no queue -/

/-- The bytes of memory and the commands that the host port holds. -/
def State.heldView (s : State) : SMap Byte × List HeldCommand := (s.mem, s.host.held)

/-- The entry of a number, if it has one, stands in no context queue. -/
def State.apart (s : State) (seq : Nat) : Prop := ∀ w, s.work seq = some w → w.ctx = none

theorem State.apart_of_works {t : State} {seq : Nat} (h : t.works = s.works) (apart : s.apart seq) : t.apart seq := by
  unfold State.apart State.work at *
  rw [h]
  exact apart

theorem State.finish_heldView {seq : Nat} (apart : s.apart seq) (status : Nat) (reply : List Byte) :
    (s.finish seq status reply).heldView = s.heldView := by
  unfold State.finish
  split
  · rfl
  · split
    · rfl
    · extract_lets y t u
      have view : u.heldView = s.heldView ∧ u.works = s.works := by
        simp only [u]
        split
        · split <;> exact ⟨rfl, rfl⟩
        · exact ⟨rfl, rfl⟩
      have apart' : u.apart seq := State.apart_of_works view.2 apart
      obtain ⟨view, -⟩ := view
      clear_value u
      split
      · exact view
      · next w work =>
        rw [apart' w work]
        dsimp only
        split <;> split <;> exact view

/-! ### Acceptance and the reply -/

theorem State.queueUp_besideHost (n : Nat) : (s.queueUp n).besideHost = s.besideHost := rfl

theorem State.received_besideHost (p : Packet) : (s.received p).besideHost = s.besideHost := by
  rw [State.received, State.queueUp_besideHost, State.hostCount_besideHost, State.frameCounted_besideHost]

theorem State.received_eq (p : Packet) : s.received p = { s with host := (s.received p).host, out := (s.received p).out } :=
  State.eq_of_besideHost (s.received_besideHost p)

theorem State.received_held (p : Packet) : (s.received p).host.held = s.host.held := by
  obtain ⟨c, o, e⟩ := s.frameCounted_eq p.frame
  unfold State.received
  rw [e]
  rfl

/-- The state in which a command that waits in no queue is performed: what it has received, its entry, and its slot. -/
theorem State.accepted_eq (op : Nat) (p : Packet) (ctx : Nat) : ∃ (t : State) (n : U32) (j : Journal), s.accepted op p ctx none =
    { s.received p with
      works := ((s.received p).works.filter fun w => w.seq != p.seq.toNat) ++ [freshWork t op p none]
      host := { (s.received p).host with next := n }, journal := j } := by
  unfold State.accepted
  generalize freshSlot (s.received p) op p ctx = x
  generalize s.received p = r
  exact ⟨r.journalled x, _, _, rfl⟩

/-- The entry of a command that waits in no queue is the one that its number names. -/
theorem State.accepted_apart (op : Nat) (p : Packet) (ctx : Nat) : (s.accepted op p ctx none).apart p.seq.toNat := by
  obtain ⟨t, n, j, e⟩ := s.accepted_eq op p ctx
  intro w work
  have others (l : List Work) : (l.filter fun w => w.seq != p.seq.toNat).find? (fun w => w.seq == p.seq.toNat) = none := by
    simp
  have own : (freshWork t op p none).seq = p.seq.toNat := rfl
  rw [e] at work
  unfold State.work at work
  dsimp only at work
  rw [List.find?_append, others, Option.none_or, List.find?_singleton, own, beq_self_eq_true, if_pos rfl] at work
  cases work
  rfl

theorem State.accepted_mem (op : Nat) (p : Packet) (ctx : Nat) : (s.accepted op p ctx none).mem = s.mem := by
  obtain ⟨t, n, j, e⟩ := s.accepted_eq op p ctx
  rw [e, State.received_eq]

theorem State.accepted_jobs (op : Nat) (p : Packet) (ctx : Nat) : (s.accepted op p ctx none).jobs = s.jobs := by
  obtain ⟨t, n, j, e⟩ := s.accepted_eq op p ctx
  rw [e, State.received_eq]

theorem State.accepted_sec (op : Nat) (p : Packet) (ctx : Nat) : (s.accepted op p ctx none).sec = s.sec := by
  obtain ⟨t, n, j, e⟩ := s.accepted_eq op p ctx
  rw [e, State.received_eq]

theorem State.accepted_memInfo (op : Nat) (p : Packet) (ctx : Nat) : (s.accepted op p ctx none).memInfo = s.memInfo := by
  obtain ⟨t, n, j, e⟩ := s.accepted_eq op p ctx
  rw [e, State.received_eq]

theorem State.accepted_held (op : Nat) (p : Packet) (ctx : Nat) : (s.accepted op p ctx none).host.held = s.host.held := by
  obtain ⟨t, n, j, e⟩ := s.accepted_eq op p ctx
  rw [e]
  dsimp only
  exact State.received_held p

theorem State.sendReply_heldView (r : Reply) : (s.sendReply r).heldView = s.heldView := by
  unfold State.sendReply
  split <;> rfl

theorem State.firstReply_heldView (op : Nat) (p : Packet) (acc : List Byte) : (s.firstReply op p acc).heldView = s.heldView := by
  unfold State.firstReply
  extract_lets i t
  have view : t.heldView = s.heldView := by
    simp only [t]
    unfold State.modEntry
    split <;> rfl
  clear_value t
  rw [← view]
  unfold State.replyFor
  split
  · exact State.sendReply_heldView _
  · rfl

theorem State.flushReplies_heldView : s.flushReplies.heldView = s.heldView := by
  unfold State.flushReplies
  split
  · rfl
  · exact State.foldl_leaves State.heldView (fun _ _ => State.sendReply_heldView _) _ _

theorem State.drain_of_noneHeld (h : s.host.held = []) (n : Nat) : s.drain n = s := by
  cases n with
  | zero => rfl
  | succ n =>
    unfold State.drain
    rw [h]
    rfl

/-- Where no command is held, the replies leave memory alone. -/
theorem State.answered_mem (h : s.host.held = []) (op : Nat) (p : Packet) (acc : List Byte) : (s.answered op p acc).mem = s.mem := by
  have first : (s.firstReply op p acc).poolMark.heldView = s.heldView := State.firstReply_heldView op p acc
  have held : (s.firstReply op p acc).poolMark.host.held = [] := (congrArg (·.2) first).trans h
  unfold State.answered
  rw [State.drain_of_noneHeld held]
  exact (congrArg Prod.fst State.flushReplies_heldView).trans (congrArg Prod.fst first)

/-! ### What the two commands do to memory -/

theorem State.memRead_heldView {seq : Nat} (apart : s.apart seq) (p : List Byte) : (s.memRead seq p).heldView = s.heldView := by
  unfold State.memRead
  dsimp only
  split
  · exact State.finish_heldView apart _ _
  · split
    · rfl
    · generalize s.windowBytes (le p 0 8) _ = bs
      have way : (((s.windowTook (le p 0 8) (le p 8 4)).remotePort .host (le p 0 8) (le p 8 4)).hostOut (le p 0 8) bs).besideWay =
          s.besideWay :=
        (State.hostOut_besideWay _ _).trans ((State.remotePort_besideWay _ _ _).trans (State.windowTook_besideWay _ _))
      generalize ((s.windowTook (le p 0 8) (le p 8 4)).remotePort .host (le p 0 8) (le p 8 4)).hostOut (le p 0 8) bs = u at way ⊢
      have ends {t : State} (h : t.entryView = s.entryView) (st : Nat) : (t.finish seq st bs).heldView = s.heldView := by
        have works : t.works = s.works := congrArg (·.2.1) h
        rw [State.finish_heldView (State.apart_of_works works apart)]
        exact congrArg (fun v : SMap Byte × List Work × HostPort => (v.1, v.2.2.held)) h
      split
      · exact ends ((State.hostPoison_entryView _).trans (State.entryView_of_besideWay way)) _
      · exact ends (State.entryView_of_besideWay way) _

/-- The bytes of a write of `n` bytes that memory keeps: none of those behind the headers of a tile's frames (R88). -/
def State.kept (s : State) (da n : Nat) : Nat :=
  match s.regionOf da with
  | .tile _ off => if off < 0x11_F9C0 then min n (0x11_F9C0 - off) else 0
  | _ => n

theorem State.kept_le (da n : Nat) : s.kept da n ≤ n := by
  unfold State.kept
  split
  · split
    · exact Nat.min_le_left _ _
    · exact Nat.zero_le _
  · exact Nat.le_refl _

/-- A byte before the reserved bytes of a tile is kept. -/
theorem State.lt_kept {da n k : Nat} (hk : k < n) (before : ∀ t off, s.regionOf da = .tile t off → off + k < 0x11_F9C0) :
    k < s.kept da n := by
  unfold State.kept
  split
  next t off region =>
    have := before t off region
    rw [if_pos (by omega)]
    omega
  next => exact hk

theorem State.kept_le_of_reserved {da n k t off : Nat} (region : s.regionOf da = .tile t off) (reserved : 0x11_F9C0 ≤ off + k) :
    s.kept da n ≤ k := by
  unfold State.kept
  rw [region]
  dsimp only
  split <;> omega

theorem State.memWrite_empty {jn seq : Nat} {p : List Byte} (empty : le p 8 4 = 0) : s.memWrite jn seq p = s.ends seq := if_pos empty

theorem State.memWrite_waits {jn seq : Nat} {p : List Byte} (some' : 0 < le p 8 4) (waits : s.tierWaits (le p 0 8) (le p 8 4) = true) :
    s.memWrite jn seq p = s := by
  unfold State.memWrite
  dsimp only
  rw [if_neg (Nat.ne_of_gt some'), if_pos waits]

/-- A write that is performed is one write of the device, on a state with the same memory and the same copies under way. -/
theorem State.memWrite_answers {jn seq : Nat} {p : List Byte} (apart : s.apart seq) (some' : 0 < le p 8 4)
    (answers : s.tierWaits (le p 0 8) (le p 8 4) = false) : ∃ u : State, u.mem = s.mem ∧ u.jobs = s.jobs ∧
      (s.memWrite jn seq p).heldView =
        ((u.devWrite jn (le p 0 8) ((p.drop 16).take (s.kept (le p 0 8) (le p 8 4)))).mem, s.host.held) := by
  have way : ((s.remotePort .host (le p 0 8) (le p 8 4)).hostIn (le p 0 8) ((p.drop 16).take (le p 8 4))).besideWay = s.besideWay :=
    (State.hostIn_besideWay _ _).trans (State.remotePort_besideWay _ _ _)
  refine ⟨_, State.mem_of_besideWay way, State.jobs_of_besideWay way, ?_⟩
  have performed : s.memWrite jn seq p =
      (((s.remotePort .host (le p 0 8) (le p 8 4)).hostIn (le p 0 8) ((p.drop 16).take (le p 8 4))).devWrite jn (le p 0 8)
        ((p.drop 16).take (s.kept (le p 0 8) (le p 8 4)))).ends seq := by
    unfold State.memWrite
    dsimp only
    rw [if_neg (Nat.ne_of_gt some'), if_neg (by rw [answers]; decide)]
    rfl
  rw [performed]
  generalize (s.remotePort .host (le p 0 8) (le p 8 4)).hostIn (le p 0 8) ((p.drop 16).take (le p 8 4)) = u at way ⊢
  have queue : (u.devWrite jn (le p 0 8) ((p.drop 16).take (s.kept (le p 0 8) (le p 8 4)))).queueView = s.queueView :=
    (State.devWrite_queueView _ _ _).trans (congrArg Prod.snd (State.entryView_of_besideWay way))
  have works := congrArg Prod.fst queue
  have held := congrArg (fun v : List Work × HostPort => v.2.held) queue
  generalize u.devWrite jn (le p 0 8) ((p.drop 16).take (s.kept (le p 0 8) (le p 8 4))) = w at works held ⊢
  rw [State.ends, State.finish_heldView (State.apart_of_works works apart)]
  exact congrArg (Prod.mk w.mem) held

/-- Where no copy has still to read what a write of the device covers, bytes outside it stay. -/
theorem State.byte_devWrite_outside {jn da a : Nat} {bs : List Byte} (noCopy : s.copyLacks jn da bs.length = false)
    (outside : a < da ∨ da + bs.length ≤ a) : (s.devWrite jn da bs).byte a = s.byte a := by
  have copies : s.copyBefore jn da bs.length = s := if_neg (by rw [noCopy]; decide)
  rw [State.devWrite, State.byte_write_outside _ _ _ _ outside, copies]
  rfl

theorem State.copyLacks_of_jobs {t : State} (h : t.jobs = s.jobs) (jn da len : Nat) : t.copyLacks jn da len = s.copyLacks jn da len := by
  unfold State.copyLacks State.job
  rw [h]

/-! ### What acceptance says of a write -/

theorem orElse0_eq_zero {a b : Nat} : orElse0 a b = 0 ↔ a = 0 ∧ b = 0 := by
  unfold orElse0
  split <;> simp_all

theorem firstBad_cons_eq_zero {ok : Bool} {st : Nat} {l : List (Bool × Nat)} (bad : st ≠ 0) :
    firstBad ((ok, st) :: l) = 0 ↔ ok = true ∧ firstBad l = 0 := by
  cases ok <;> simp [firstBad, bad]

/-- A write that every check passes: its job stands, its bytes are there, and its own checks pass (R371, R377). -/
theorem commandStatus_memWrite {jn c : Nat} {ps : List Byte} (h : commandStatus s 0x0202 jn c ps = 0) :
    ∃ j, s.job jn = some j ∧ ps.length = 16 + le ps 8 4 ∧ memStatus s jn j ps 65488 true = 0 := by
  have scope : scopeOf 0x0202 = some .job := by decide
  unfold commandStatus at h
  rw [scope] at h
  simp only [orElse0_eq_zero] at h
  obtain ⟨-, there, layout, own, -⟩ := h
  rw [firstBad_cons_eq_zero (by decide)] at layout
  cases job : s.job jn with
  | none => simp [existsStatus, State.liveJob, job, St.stateNoJob] at there
  | some j =>
    refine ⟨j, rfl, (Option.some_inj.1 (beq_iff_eq.1 layout.1)).symm, ?_⟩
    simpa only [ownStatus, job, jobStatus] using own

/-- The range of a write that its own checks pass is the job's. -/
theorem inJob_of_memStatus {jn : Nat} {j : Job} {ps : List Byte} (some' : 0 < le ps 8 4) (h : memStatus s jn j ps 65488 true = 0) :
    j.inRegions (le ps 0 8) (le ps 8 4) = true ∨ j.inTiles s (le ps 0 8) (le ps 8 4) = true := by
  unfold memStatus at h
  dsimp only at h
  split at h
  · cases h
  · split at h
    · cases h
    · rw [if_neg (Nat.ne_of_gt some'), firstBad_cons_eq_zero (by decide), firstBad_cons_eq_zero (by decide)] at h
      obtain ⟨-, own, -⟩ := h
      rw [Bool.and_eq_true, Bool.or_eq_true] at own
      exact own.1

/-! ### Readings of the state that acceptance leaves alone -/

theorem State.regionOf_of_memInfo {t : State} (h : t.memInfo = s.memInfo) (da : Nat) : t.regionOf da = s.regionOf da := by
  unfold State.regionOf State.ddrBytes
  rw [h]

theorem State.kept_of_memInfo {t : State} (h : t.memInfo = s.memInfo) (da n : Nat) : t.kept da n = s.kept da n := by
  simp only [State.kept, State.regionOf_of_memInfo h]

theorem State.pllOf_of_memInfo {t : State} (h : t.memInfo = s.memInfo) (da : Nat) : t.pllOf da = s.pllOf da := by
  unfold State.pllOf State.inDdr State.ddrBytes State.ddrChannel
  rw [h]

theorem State.tierWaits_of_memInfo {t : State} (h : t.memInfo = s.memInfo) (hs : t.sec = s.sec) (da n : Nat) :
    t.tierWaits da n = s.tierWaits da n := by
  simp only [State.tierWaits, State.pllOf_of_memInfo h, hs]

theorem Region.meets_mono {r : Region} {da m n : Nat} (h : m ≤ n) (meets : r.meets da m = true) : r.meets da n = true := by
  unfold Region.meets at *
  rw [decide_eq_true_eq] at *
  omega

/-- A copy that lacks nothing of a range lacks nothing of its beginning. -/
theorem Copy.meets_mono {c : Copy} {da m n : Nat} (h : m ≤ n) (meets : c.meets da m = true) : c.meets da n = true := by
  unfold Copy.meets at *
  rw [List.any_eq_true] at *
  obtain ⟨p, mem, meets⟩ := meets
  exact ⟨p, mem, Region.meets_mono h meets⟩

theorem State.copyLacks_mono {jn da m n : Nat} (h : m ≤ n) (noCopy : s.copyLacks jn da n = false) : s.copyLacks jn da m = false := by
  rw [← Bool.not_eq_true] at *
  refine fun lacks => noCopy ?_
  unfold State.copyLacks at *
  cases job : s.job jn with
  | none => simp [job] at lacks
  | some j =>
    simp only [job, Bool.or_eq_true] at lacks ⊢
    refine lacks.imp (fun ckpt => ?_) fun mirror => ?_
    · cases e : j.checkpoint with
      | none => simp [e] at ckpt
      | some c => simpa [e] using Copy.meets_mono h (by simpa [e] using ckpt)
    · cases e : j.pair.bind Pairing.sending with
      | none => simp [e] at mirror
      | some c => simpa [e] using Copy.meets_mono h (by simpa [e] using mirror)

/-! ### The two commands -/

theorem memRead_performs : Performs .memRead 0x0201 fun s p => (s.readChecks 0x0201 p).memRead p.seq.toNat p.params :=
  performs_job (fun _ _ => rfl) (by decide) (by decide) fun _ _ _ => rfl

theorem memWrite_performs : Performs .memWrite 0x0202 fun s p => s.memWrite p.job.toNat p.seq.toNat p.params :=
  performs_job (fun _ _ => rfl) (by decide) (by decide) fun _ _ _ => rfl

/-- The bytes of an accepted write that memory keeps are all there. -/
theorem length_kept_of_acceptable {p : Packet} (acceptable : Acceptable s 0x0202 p) :
    ((p.params.drop 16).take (s.kept (le p.params 0 8) (le p.params 8 4))).length =
      s.kept (le p.params 0 8) (le p.params 8 4) := by
  obtain ⟨-, -, length, -⟩ := commandStatus_memWrite acceptable.checks
  have kept := State.kept_le (s := s) (le p.params 0 8) (le p.params 8 4)
  rw [List.length_take, List.length_drop]
  omega

section
variable {p : Packet} (held : s.host.held = [])
include held

/-- With no command held, the bytes after a command's answer are those that its effect leaves. -/
theorem mem_answered_of_heldView {t : State} {m : SMap Byte} {op : Nat} (h : t.heldView = (m, s.host.held)) (acc : List Byte) :
    (t.answered op p acc).mem = m := by
  have held' : t.host.held = [] := (congrArg (·.2) h).trans held
  rw [State.answered_mem held']
  exact congrArg (·.1) h

theorem exec_memRead_mem (acceptable : Acceptable s 0x0201 p) : ∃ t, exec (.memRead p) s = .next t ∧ t.mem = s.mem := by
  refine ⟨_, memRead_performs s p acceptable, mem_answered_of_heldView held ?_ []⟩
  have checks : ((s.accepted 0x0201 p p.ctx.toNat none).readChecks 0x0201 p).entryView =
      (s.accepted 0x0201 p p.ctx.toNat none).entryView := State.hostEcc_entryView _ _ _
  have works : ((s.accepted 0x0201 p p.ctx.toNat none).readChecks 0x0201 p).works = (s.accepted 0x0201 p p.ctx.toNat none).works :=
    congrArg (·.2.1) checks
  rw [State.memRead_heldView (State.apart_of_works works (State.accepted_apart _ _ _)), ← State.accepted_mem 0x0201 p p.ctx.toNat,
    ← State.accepted_held 0x0201 p p.ctx.toNat]
  exact congrArg (fun v : SMap Byte × List Work × HostPort => (v.1, v.2.2.held)) checks

variable (acceptable : Acceptable s 0x0202 p)
include acceptable

/-- A write that has no bytes, or waits for a PLL, changes no byte. -/
theorem exec_memWrite_idle (idle : le p.params 8 4 = 0 ∨ s.tierWaits (le p.params 0 8) (le p.params 8 4) = true) :
    ∃ t, exec (.memWrite p) s = .next t ∧ t.mem = s.mem := by
  refine ⟨_, memWrite_performs s p acceptable, mem_answered_of_heldView held ?_ []⟩
  have still : ((s.accepted 0x0202 p p.ctx.toNat none).memWrite p.job.toNat p.seq.toNat p.params).heldView =
      (s.accepted 0x0202 p p.ctx.toNat none).heldView := by
    rcases Nat.eq_zero_or_pos (le p.params 8 4) with empty | some'
    · rw [State.memWrite_empty empty]
      exact State.finish_heldView (State.accepted_apart _ _ _) _ _
    · have waits := idle.resolve_left (Nat.ne_of_gt some')
      rw [← State.tierWaits_of_memInfo (State.accepted_memInfo 0x0202 p p.ctx.toNat) (State.accepted_sec 0x0202 p p.ctx.toNat)] at waits
      rw [State.memWrite_waits some' waits]
  rw [still, State.heldView, State.accepted_mem, State.accepted_held]

/-- A write that is performed is one write of the device, of the bytes that memory keeps. -/
theorem exec_memWrite_writes (some' : 0 < le p.params 8 4) (answers : s.tierWaits (le p.params 0 8) (le p.params 8 4) = false) :
    ∃ t u : State, exec (.memWrite p) s = .next t ∧ u.mem = s.mem ∧ u.jobs = s.jobs ∧
      t.mem = (u.devWrite p.job.toNat (le p.params 0 8)
        ((p.params.drop 16).take (s.kept (le p.params 0 8) (le p.params 8 4)))).mem := by
  rw [← State.tierWaits_of_memInfo (State.accepted_memInfo 0x0202 p p.ctx.toNat) (State.accepted_sec 0x0202 p p.ctx.toNat)] at answers
  obtain ⟨u, mem, jobs, view⟩ := State.memWrite_answers (jn := p.job.toNat) (State.accepted_apart 0x0202 p p.ctx.toNat) some' answers
  rw [State.accepted_held, State.kept_of_memInfo (State.accepted_memInfo 0x0202 p p.ctx.toNat)] at view
  exact ⟨_, u, memWrite_performs s p acceptable, mem.trans (State.accepted_mem _ _ _), jobs.trans (State.accepted_jobs _ _ _),
    mem_answered_of_heldView held view []⟩

/-- A performed write changes no byte outside those that memory keeps, where no copy has still to read them. -/
theorem exec_memWrite_outside (some' : 0 < le p.params 8 4) (answers : s.tierWaits (le p.params 0 8) (le p.params 8 4) = false)
    (noCopy : s.copyLacks p.job.toNat (le p.params 0 8) (le p.params 8 4) = false) : ∃ t, exec (.memWrite p) s = .next t ∧
      ∀ a, a < le p.params 0 8 ∨ le p.params 0 8 + s.kept (le p.params 0 8) (le p.params 8 4) ≤ a → t.byte a = s.byte a := by
  obtain ⟨t, u, run, mem, jobs, written⟩ := exec_memWrite_writes held acceptable some' answers
  have length := length_kept_of_acceptable acceptable
  refine ⟨t, run, fun a outside => ?_⟩
  have noCopy' := State.copyLacks_mono (State.kept_le (s := s) (le p.params 0 8) (le p.params 8 4)) noCopy
  rw [← State.copyLacks_of_jobs jobs, ← length] at noCopy'
  rw [← length] at outside
  calc t.byte a = _ := congrArg (lookup 0#8 · a) written
    _ = u.byte a := State.byte_devWrite_outside noCopy' outside
    _ = s.byte a := congrArg (lookup 0#8 · a) mem

/-- A performed write leaves the bytes that memory keeps. -/
theorem exec_memWrite_inside (some' : 0 < le p.params 8 4) (answers : s.tierWaits (le p.params 0 8) (le p.params 8 4) = false) :
    ∃ t, exec (.memWrite p) s = .next t ∧ ∀ k, k < s.kept (le p.params 0 8) (le p.params 8 4) →
      t.byte (le p.params 0 8 + k) = (p.params[16 + k]?).getD 0#8 := by
  obtain ⟨t, u, run, -, -, written⟩ := exec_memWrite_writes held acceptable some' answers
  have length := length_kept_of_acceptable acceptable
  refine ⟨t, run, fun k hk => ?_⟩
  have inside : k < ((p.params.drop 16).take (s.kept (le p.params 0 8) (le p.params 8 4))).length := by rw [length]; exact hk
  calc t.byte (le p.params 0 8 + k) = _ := congrArg (lookup 0#8 · (le p.params 0 8 + k)) written
    _ = _ := State.byte_write_inside _ _ _ k inside
    _ = (p.params[16 + k]?).getD 0#8 := by
      rw [List.getElem_take, List.getElem_drop, List.getElem?_eq_getElem, Option.getD_some]

end

/-- Settles O51: a read leaves memory, a write that waits too, and one that is performed is a write of the bytes that memory keeps. -/
theorem memoryCommandsMoveTheirBytes : Obligations.MemoryCommandsMoveTheirBytes := by
  intro s p held
  refine ⟨exec_memRead_mem held, fun acceptable waits => exec_memWrite_idle held acceptable (.inr waits),
    fun acceptable some' answers => ?_⟩
  obtain ⟨t, run, inside⟩ := exec_memWrite_inside held acceptable some' answers
  refine ⟨t, run, fun k hk before => inside k (State.lt_kept hk before), fun noCopy => ?_⟩
  obtain ⟨t', run', outside⟩ := exec_memWrite_outside held acceptable some' answers noCopy
  obtain rfl : t' = t := next_inj (run'.symm.trans run).symm
  refine ⟨fun k n off region reserved => outside _ (.inr (Nat.add_le_add_left (State.kept_le_of_reserved region reserved) _)),
    fun a beside => outside a (beside.imp_right fun behind => Nat.le_trans ?_ behind)⟩
  exact Nat.add_le_add_left (State.kept_le _ _) _

/-- Settles O52: a byte that changes lies among those written, and the checks of the write say that they are the job's. -/
theorem memWriteStaysInTheJob : Obligations.MemWriteStaysInTheJob := by
  intro s t p a acceptable held noCopy run changed
  have unchanged {t' : State} (run' : exec (.memWrite p) s = .next t') (same : t'.byte a = s.byte a) : False := by
    obtain rfl : t' = t := next_inj (run'.symm.trans run).symm
    exact changed same
  by_cases idle : le p.params 8 4 = 0 ∨ s.tierWaits (le p.params 0 8) (le p.params 8 4) = true
  · obtain ⟨t', run', mem⟩ := exec_memWrite_idle held acceptable idle
    exact (unchanged run' (congrArg (lookup 0#8 · a) mem)).elim
  · obtain ⟨some', answers⟩ := not_or.1 idle
    obtain ⟨t', run', outside⟩ :=
      exec_memWrite_outside held acceptable (Nat.pos_of_ne_zero some') (Bool.not_eq_true _ ▸ answers) noCopy
    obtain ⟨j, job, -, own⟩ := commandStatus_memWrite acceptable.checks
    have received : (s.received p).job p.job.toNat = s.job p.job.toNat := by rw [State.received_eq]; rfl
    have tiles : j.inTiles (s.received p) (le p.params 0 8) (le p.params 8 4) = j.inTiles s (le p.params 0 8) (le p.params 8 4) := by
      rw [State.received_eq]
      rfl
    have own := inJob_of_memStatus (Nat.pos_of_ne_zero some') own
    rw [tiles] at own
    have kept := State.kept_le (s := s) (le p.params 0 8) (le p.params 8 4)
    refine ⟨j, received.symm.trans job, own, ?_⟩
    have among := mt (outside a) fun same => unchanged run' same
    omega

end Sys2Proof.Machine
end
